-- ==== Sys2Proof/Word.lean ====
section
/-! DEFINITION. The word types of the module: bytes, registers, and the numbered units of 00_scope.md
(the table *Identifiers used throughout the manual*). -/

namespace Sys2Proof

/-- One byte (R10: little-endian structures, byte 0 holds bits [7:0]). -/
abbrev Byte := BitVec 8

/-- A parameter register, an FP32 value, an arm record, a grist word (R103, R137). -/
abbrev W32 := BitVec 32

/-- A 64-bit value: a status word, a dictionary U64, a debug data word. -/
abbrev W64 := BitVec 64

/-- A recipe-memory entry: command word, header, stream or ring descriptor (R122). -/
abbrev W256 := BitVec 256

/-- A byte sequence, byte 0 first. -/
abbrev Bytes := List Byte

/-- Compute die CD00 to CD63. -/
abbrev Die := Fin 64
/-- Device core number, die * 256 + core. -/
abbrev CoreNo := Fin 16384
/-- Hardware context h0 to h3. -/
abbrev CtxNo := Fin 4
/-- Stream number of a core. -/
abbrev StreamNo := Fin 16
/-- Ring number of a core. -/
abbrev RingNo := Fin 32
/-- Partition number. -/
abbrev PartNo := Fin 256
/-- Client number of a partition. -/
abbrev ClientNo := Fin 8
/-- Memory-interface die MX00 to MX15, and the LPDDR5X package it drives. -/
abbrev MxNo := Fin 16
/-- Link die LX00 to LX15. -/
abbrev LxNo := Fin 16
/-- Global fabric port number g = 8 * xx + p (R294). -/
abbrev PortNo := Fin 128
/-- Host port HP0 to HP3. -/
abbrev HostPort := Fin 4
/-- Queue pair number of a host port (R320). -/
abbrev QpNo := Fin 1024
/-- Tun segment of a die (R83). -/
abbrev SegNo := Fin 176
/-- Physical core position of a die (R21). -/
abbrev PosNo := Fin 272
/-- Device ID (R270). -/
abbrev DeviceId := Fin 131072
/-- Remote-access window (R284). -/
abbrev WindowNo := Fin 4096
/-- Intake ring of a die (R322). -/
abbrev IntakeNo := Fin 16

end Sys2Proof
end

