-- ==== Sys2Proof/Syntax.lean ====
section
/-! DEFINITION. The commands of the block: one constructor of `Instr` per row of spec/opcode_table.json.
A grist row names the core and the stream, a macro-operation row the core and the context; the fields of the
instruction or command word are what program memory or recipe memory holds there. An intake row names the die
and the ring whose head packet the reader executes; a fabric row the link die whose inbound queue holds the
transaction. A row that is a dictionary write names its writer. -/

namespace Sys2Proof

/-- Who makes a dictionary write: the `ORIGIN`, `PRINCIPAL` and `ORIGIN_ID` of R460, the session identifier of
R461 and the role bits of R430. -/
structure Origin where
  kind      : Fin 4      -- 0 internal unit, 1 Caddy session, 2 TAP, 3 intake reader
  principal : Byte       -- principal slot, 0xFF when none
  originId  : Byte       -- host port, unit number or 0
  session   : W32        -- session identifier, 0 when none
  roles     : BitVec 8   -- bit 0 READ, 1 WRITE, 2 FIRMWARE, 3 DEBUG, 4 ADMIN
  deriving DecidableEq, Repr

/-- The agent that waits at a barrier: a stream at grist WAIT, or a context at BARRIER or WAIT (R119, R182). -/
inductive Waiter where
  | stream (n : StreamNo)
  | context (h : CtxNo)
  deriving DecidableEq, Repr

/-- The dies with a PLL and a junction temperature (R394, R404). -/
inductive PanelDie where
  | cd (d : Die)
  | mx (m : MxNo)
  | lx (x : LxNo)
  | kd (k : Fin 2)
  deriving DecidableEq, Repr

/-- The outcome of a BIST section run: the array's bad columns and rows, its two transpose buffers, and whether
the memory and logic sections passed (R379, R382). -/
structure BistResult where
  clearOk   : Bool           -- read-back of step 2 all zero
  memOk     : Bool
  logicOk   : Bool
  badCols   : BitVec 34      -- bit x = physical column x failed
  badRows   : BitVec 33      -- bit x = physical row x failed
  wXposeOk  : Bool
  nXposeOk  : Bool
  deriving DecidableEq, Repr

/-- A maintenance read (R82). -/
structure MaintRead where
  start     : Nat
  elemBytes : Nat
  rows      : Nat
  cols      : Nat
  rowStride : Nat
  colStride : Nat
  transpose : Bool
  deriving DecidableEq, Repr

/-- What link ECC made of a read: attempts that failed, and corrections (R262, R269). -/
structure LinkRead where
  fails     : Fin 4
  corrected : Nat
  deriving DecidableEq, Repr

/-- What the receiver of a lane reports for 1 ms: the lane, whether it has lost lock, and its decoder's counts of marked
codewords, corrected symbols and symbols received (R305, R315). -/
structure LaneReport where
  lane      : Fin 9
  lost      : Bool
  marked    : Nat
  corrected : Nat
  symbols   : Nat
  deriving DecidableEq, Repr

/-- A RoCE packet that has arrived: the queue pair it names, and whether it carries a CE mark (R316, R318). -/
structure Packet where
  qp : QpNo
  ce : Bool
  deriving DecidableEq, Repr

/-- The UDP tuple of a Caddy datagram (R448). -/
structure Tuple where
  port    : HostPort
  srcAddr : BitVec 128
  srcPort : BitVec 16
  deriving DecidableEq, Repr

/-- A grist instruction (R104, R105), as program memory holds it. `len` and `n` are the fields `LEN` - 1 and
`N` - 1; ADDA, SETI and LOOP have one constructor for each value of `SRC`. -/
inductive Grist where
  | seta (ar : Fin 4) (px py : Fin 64)
  | addaImm (ar : Fin 4) (imm : Fin 2097152)
  | addaReg (ar : Fin 4) (ir : Fin 8)
  | setiImm (ir : Fin 8) (imm : Fin 8388608)
  | setiReg (ir : Fin 8) (px : Fin 64)
  | loopImm (lvl : Fin 4) (count : Fin 16777216)
  | loopReg (lvl : Fin 4) (px : Fin 64)
  | endl (lvl : Fin 4) (amask : Fin 16) (s3 s2 s1 s0 : Fin 8)
  | load (ar : Fin 4) (post : Bool) (len : Fin 2048)
  | store (ar : Fin 4) (post : Bool) (acc : Fin 4) (len : Fin 2048)
  | gather (ab ai : Fin 4) (irl irs : Fin 8) (n : Fin 256)
  | scatter (ab ai : Fin 4) (irl irs : Fin 8) (n : Fin 256) (acc : Fin 4)
  | emit (zpad : Bool)
  | take
  | free
  | wait (mode : Fin 4) (die : Fin 64) (bar : Fin 256) (px : Fin 64)
  | arrive (die : Fin 64) (bar : Fin 256)
  | done
  deriving DecidableEq, Repr

/-- One command of the block. -/
inductive Instr where
  -- grist instructions (R105), by core and stream
  | seta (c : CoreNo) (n : StreamNo)
  | adda (c : CoreNo) (n : StreamNo)
  | seti (c : CoreNo) (n : StreamNo)
  | loop (c : CoreNo) (n : StreamNo)
  | endl (c : CoreNo) (n : StreamNo)
  | load (c : CoreNo) (n : StreamNo)
  | store (c : CoreNo) (n : StreamNo)
  | gather (c : CoreNo) (n : StreamNo)
  | scatter (c : CoreNo) (n : StreamNo)
  | emit (c : CoreNo) (n : StreamNo)
  | take (c : CoreNo) (n : StreamNo)
  | free (c : CoreNo) (n : StreamNo)
  | gristWait (c : CoreNo) (n : StreamNo)
  | arrive (c : CoreNo) (n : StreamNo)
  | endStream (c : CoreNo) (n : StreamNo)
  | streamRequestComplete (c : CoreNo) (n : StreamNo)
  | probeResponse (c : CoreNo) (r : RingNo)
  | barrierConditionHolds (c : CoreNo) (w : Waiter)
  -- array, scratchpad and tun
  | kStepEnter (c : CoreNo)
  | arrayContinue (c : CoreNo)
  | spScrubVisit (c : CoreNo)
  | tunScrubVisit (d : Die) (t : Fin 16)
  | maintenanceRead (c : CoreNo) (byDebug : Bool) (r : MaintRead)
  -- recipes and contexts
  | loadRequest (d : Die) (r : IntakeNo)
  | recipeHeaderFetched (c : CoreNo) (h : CtxNo)
  | recipeImageFetched (c : CoreNo) (h : CtxNo)
  | start (d : Die) (r : IntakeNo)
  | abort (d : Die) (r : IntakeNo)
  | patchRequest (d : Die) (r : IntakeNo)
  | unload (d : Die) (r : IntakeNo)
  | commandComplete (c : CoreNo) (h : CtxNo)
  | preemptionTaken (c : CoreNo) (h : CtxNo)
  -- macro-operations (R150), by core and context
  | matmul (c : CoreNo) (h : CtxNo)
  | matmulT (c : CoreNo) (h : CtxNo)
  | gradW (c : CoreNo) (h : CtxNo)
  | elemwise (c : CoreNo) (h : CtxNo)
  | rownormFwd (c : CoreNo) (h : CtxNo)
  | rownormBwd (c : CoreNo) (h : CtxNo)
  | softmaxFwd (c : CoreNo) (h : CtxNo)
  | softmaxBwd (c : CoreNo) (h : CtxNo)
  | attnBlockFwd (c : CoreNo) (h : CtxNo)
  | attnBlockBwd (c : CoreNo) (h : CtxNo)
  | rope (c : CoreNo) (h : CtxNo)
  | kvAppend (c : CoreNo) (h : CtxNo)
  | maskpack (c : CoreNo) (h : CtxNo)
  | rngMask (c : CoreNo) (h : CtxNo)
  | castMx (c : CoreNo) (h : CtxNo)
  | gatherRows (c : CoreNo) (h : CtxNo)
  | scatterAdd (c : CoreNo) (h : CtxNo)
  | optUpdate (c : CoreNo) (h : CtxNo)
  | gatedUpdateProceed (c : CoreNo) (h : CtxNo)
  | seal (c : CoreNo) (h : CtxNo)
  | checkSeal (c : CoreNo) (h : CtxNo)
  | checkpoint (c : CoreNo) (h : CtxNo)
  | reducePush (c : CoreNo) (h : CtxNo)
  | layerDone (c : CoreNo) (h : CtxNo)
  | barrierCmd (c : CoreNo) (h : CtxNo)
  | waitCmd (c : CoreNo) (h : CtxNo)
  | fill (c : CoreNo) (h : CtxNo)
  | copy (c : CoreNo) (h : CtxNo)
  | patchCmd (c : CoreNo) (h : CtxNo)
  -- mashes and gates
  | report (c : CoreNo) (h : CtxNo)
  | arbitrationStart (p : PartNo) (stepNo mashWord : W32)
  | gateStepWrite (o : Origin) (p : PartNo) (v : W32)
  | gateTimeout (p : PartNo)
  -- pour table
  | pourStepWrite (o : Origin) (p : PartNo) (v : W32)
  | pourTableBaseWrite (o : Origin) (v : W64)
  | flushComplete (p : PartNo)
  | pourRelease (p : PartNo)
  | moveComplete (p : PartNo)
  -- lauter engines
  | planCommit (o : Origin) (v : W32)
  | accum (m : MxNo)
  | accumRetry (m : MxNo)
  | lauterBlockTimeout (m : MxNo) (block : BitVec 64)
  | lauterGenerationWrite (o : Origin) (v : Byte)
  -- LPDDR5X
  | refreshPoll (m : MxNo) (readout : Fin 6) (writeLinkErrors : List Nat)
  | wckOscillator (m : MxNo)
  | lpddrScrubVisit (m : MxNo) (ch : Fin 8)
  | memoryReadComplete (c : CoreNo) (n : StreamNo) (link : LinkRead)
  | generationIncrement (m : MxNo)
  | generationProbe (c : CoreNo) (r : RingNo)
  | lpddrTrainingDone (failed : List (MxNo × Fin 8)) (ids : List W32)
  | zeroFillDone
  -- translation and windows
  | walkComplete (c : CoreNo) (n : StreamNo)
  | invalidate (o : Origin) (p : PartNo) (cl : ClientNo) (v : W64)
  | invalidateComplete (p : PartNo) (cl : ClientNo)
  | retry (o : Origin) (p : PartNo) (cl : ClientNo) (v : W64)
  | fail (o : Origin) (p : PartNo) (cl : ClientNo) (v : W64)
  | windowOpen (o : Origin) (w : WindowNo)
  | windowClose (o : Origin) (w : WindowNo)
  | windowCloseComplete (w : WindowNo)
  -- Ludjafa links
  | flit (g : PortNo) (f : BitVec 2048) (marked : Bool)
  | retryTimer (g : PortNo)
  | mapFrame (g : PortNo) (f : BitVec 2048)
  | configFrame (g : PortNo) (f : BitVec 2048)
  | doneFrame (g : PortNo) (f : BitVec 2048) (roundTripNs : Nat)
  | lightDetected (g : PortNo) (lane : Fin 9)
  | lockComplete (g : PortNo) (locked : BitVec 9)
  | mapPauseExpiry (g : PortNo)
  | portStateTimeout (g : PortNo)
  | laneFail (g : PortNo) (lane : LaneReport)
  | lossOfLight (g : PortNo)
  | portDisable (o : Origin) (g : PortNo)
  | portEnable (o : Origin) (g : PortNo)
  | portForceRepair (o : Origin) (g : PortNo)
  | write (x : LxNo)
  | read (x : LxNo)
  | arriveTransaction (x : LxNo)
  | gateVote (x : LxNo)
  | winOpen (x : LxNo)
  | winClose (x : LxNo)
  | epochQuery (x : LxNo)
  | resp (x : LxNo)
  | readData (x : LxNo)
  | transactionAbandon (x : LxNo) (txn : BitVec 12)
  | routeWrite (o : Origin) (dev : DeviceId) (v : W32)
  | rerouteHoldExpiry (dev : DeviceId)
  | epochCacheExpiry (dev : DeviceId)
  -- host ports
  | hostLinkUp (p : HostPort)
  | hostLinkDown (p : HostPort)
  | pfcFrame (p : HostPort) (quanta : BitVec 16)
  | pfcRefresh (p : HostPort)
  | cnp (p : HostPort) (q : QpNo)
  | cnpRateRecovery (p : HostPort) (q : QpNo)
  | send (p : HostPort) (q : QpNo) (ce : Bool) (data : Bytes)
  | rdmaWrite (p : HostPort) (q : QpNo) (ce : Bool) (va : W64) (rkey : W32) (data : Bytes)
  | rdmaRead (p : HostPort) (q : QpNo) (ce : Bool) (va : W64) (rkey : W32) (len : Nat)
  | rdmaReadResponse (p : HostPort) (q : Packet) (data : Bytes)
  | ack (p : HostPort) (q : Packet)
  | nak (p : HostPort) (q : Packet)
  | rnrNak (p : HostPort) (q : Packet)
  | qpRetransmitTimeout (p : HostPort) (q : QpNo)
  | arpRequest (p : HostPort) (targetIp senderIp : W32) (senderMac : BitVec 48)
  | neighbourSolicitation (p : HostPort) (target sender : BitVec 128) (senderMac : BitVec 48)
  | icmpEcho (p : HostPort) (v6 : Bool) (target sender : BitVec 128) (data : Bytes)
  | qpValidSet (o : Origin) (p : HostPort) (q : QpNo) (v : BitVec 512)
  | qpReset (o : Origin) (p : HostPort) (q : QpNo) (v : BitVec 512)
  | commitDoorbell (p : HostPort) (q : Packet) (d : Die) (r : IntakeNo) (v : W64)
  | completionTailWrite (p : PartNo) (cl : ClientNo)
  -- partitions and slices
  | build (o : Origin) (p : PartNo)
  | dissolve (o : Origin) (p : PartNo)
  | segmentAllocate (o : Origin) (d : Die) (s : SegNo) (p : PartNo)
  | segmentFree (o : Origin) (d : Die) (s : SegNo)
  | sliceMsWrite (o : Origin) (p : PartNo) (cl : ClientNo) (v : BitVec 16)
  | sliceEnd (p : PartNo)
  | switchComplete (p : PartNo)
  -- resilience
  | shadowStart (p : PartNo) (k : Nat)
  | shadowComplete (p : PartNo) (k : Nat)
  | shadowWindowExpiry (p : PartNo) (k : Nat)
  -- kiln
  | kilnDue (d : Die) (isSegment : Bool) (k : PosNo)
  | kilnForce (d : Die) (x : PosNo)
  | kilnSlice (d : Die) (x : PosNo)
  | kilnSliceDone (d : Die) (x : PosNo) (r : BistResult)
  | segmentTest (d : Die) (s : SegNo) (badRows : List (Fin 16 × Nat))
  | segmentTestRetry (d : Die) (s : SegNo)
  | dieCheck (u : PanelDie) (pllOk monitorOk : Bool)
  | laneLoopback (x : LxNo) (slice : Fin 68) (ok : Bool)
  | kilnRequestCore (o : Origin) (d : Die) (k : Byte) (force : Bool)
  | kilnRequestSegment (o : Origin) (d : Die) (k : Byte)
  | kilnRequestDieCheck (o : Origin) (d : Die)
  | kilnRequestPort (o : Origin) (x : LxNo) (k : Fin 8)
  -- clocks, power and start-up
  | refLoss
  | candidateCountDone (p : HostPort) (count : Nat)
  | pllStable (u : PanelDie)
  | pllLockTimeout (u : PanelDie)
  | holdoverExpiry
  | refCtlWrite (o : Origin) (n : Byte)
  | opTargetWrite (o : Origin) (d : Die) (v : Byte)
  | voltageSettled (d : Die)
  | governorWindow
  | thermalSample (u : PanelDie) (deciC : Int)
  | groupGate (d : Die) (g : Fin 16)
  | inputSample (milliV : Int) (milliA : Int)
  | heartbeat
  | kdTakeover
  | modReset
  | stbyEnLow
  | standbyApplied
  | standbyLoss
  | bootReset (o : Origin)
  | bootShutdown (o : Origin)
  | phaseTimeout
  | dieRampDone (u : PanelDie)
  | dieRampTimeout (u : PanelDie)
  -- trust and firmware
  | firmwareVerifyDone (k : Fin 2)
  | fwStageWrite (o : Origin) (chunk : Nat) (data : Bytes)
  | fwVerify (o : Origin)
  | fwArm (o : Origin)
  | fwCommit (o : Origin)
  | fwRevert (o : Origin)
  | attestNonceWrite (o : Origin) (nonce : BitVec 256)
  | attestReportReady
  | principalWrite (o : Origin) (slot : Fin 16) (v : BitVec 640)
  -- TAP and debug
  | idcode
  | extest
  | samplePreload
  | bypass
  | tapReset
  | dbgNop (seq : Byte)
  | challenge (seq : Byte) (arg : BitVec 48) (data : W64)
  | respond (seq : Byte) (arg : BitVec 48) (data : W64)
  | lock (seq : Byte) (arg : BitVec 48) (data : W64)
  | halt (seq : Byte) (arg : BitVec 48) (data : W64)
  | haltEffect (c : CoreNo) (h : CtxNo)
  | resume (seq : Byte) (arg : BitVec 48) (data : W64)
  | stepCtx (seq : Byte) (arg : BitVec 48) (data : W64)
  | ctxRead (seq : Byte) (arg : BitVec 48) (data : W64)
  | breakSet (seq : Byte) (arg : BitVec 48) (data : W64)
  | breakClear (seq : Byte) (arg : BitVec 48) (data : W64)
  | memRead (seq : Byte) (arg : BitVec 48) (data : W64)
  | memWrite (seq : Byte) (arg : BitVec 48) (data : W64)
  | dictRead (seq : Byte) (arg : BitVec 48) (data : W64)
  | dictStage (seq : Byte) (arg : BitVec 48) (data : W64)
  | dictWrite (seq : Byte) (arg : BitVec 48) (data : W64)
  | debugIdleExpiry
  -- Caddy
  | hello (t : Tuple) (msg : Bytes)
  | openSession (t : Tuple) (msg : Bytes)
  | close (t : Tuple) (msg : Bytes)
  | caddyRead (t : Tuple) (msg : Bytes)
  | caddyWrite (t : Tuple) (msg : Bytes)
  | readBlock (t : Tuple) (msg : Bytes)
  | writeBlock (t : Tuple) (msg : Bytes)
  | notify (t : Tuple) (msg : Bytes)
  | notifyResend (session : W32)
  | sessionIdleExpiry (session : W32)
  | halfOpenExpiry (session : W32)
  | stickyClear (o : Origin) (mask : W256)
  | annotate (o : Origin) (v : BitVec 128)
  | registerWrite (o : Origin) (index : BitVec 16) (sub : Byte) (value : Bytes)
  -- rows added at the end of the table
  | modResetRelease
  | stbyEnHigh
  | dbgXfer
  | segmentZeroFillDone (d : Die) (s : SegNo)
  deriving DecidableEq, Repr

end Sys2Proof
end

