-- ==== Sys2Proof/Decode.lean ====
section
/-! DEFINITION. The grist instruction words of R104, read and written; and the host's table decoder. No row of
spec/opcode_table.json gives its command any bits, so no word spells a command of the block. -/

namespace Sys2Proof

/-- The command that a word spells by the table's bits: no row gives bits. -/
def decodeTableWord (_nbits _w : Nat) : Option Instr := none

/-- Field [hi:lo] of a word. -/
def wfld (w hi lo : Nat) : Nat := w / 2 ^ lo % 2 ^ (hi + 1 - lo)

/-- Field [hi:lo] as a number below n, when the field has that range. -/
def fin (n w hi lo : Nat) (h : 0 < n) : Fin n := ⟨wfld w hi lo % n, Nat.mod_lt _ h⟩

/-- Two-bit field at lo. -/
def f2 (w lo : Nat) : Fin 4 := fin 4 w (lo + 1) lo (by decide)
/-- Three-bit field at lo. -/
def f3 (w lo : Nat) : Fin 8 := fin 8 w (lo + 2) lo (by decide)
/-- Six-bit field at lo. -/
def f6 (w lo : Nat) : Fin 64 := fin 64 w (lo + 5) lo (by decide)
/-- Eight-bit field at lo. -/
def f8 (w lo : Nat) : Fin 256 := fin 256 w (lo + 7) lo (by decide)
/-- Bit lo. -/
def f1 (w lo : Nat) : Bool := wfld w lo lo == 1

/-- Bits [hi:lo] are reserved and zero (R104). -/
def zeros (w hi lo : Nat) : Bool := wfld w hi lo == 0

/-- Answer the instruction when its reserved bits are zero. -/
def guardZ (ok : Bool) (g : Grist) : Option Grist := if ok then some g else none

/-- The grist instruction of a word below 2^32; none for a reserved opcode, a non-zero reserved field or a reserved
value of a defined field (R104). -/
def decodeGrist (w : Nat) : Option Grist :=
  match wfld w 31 27 with
  | 0x01 => guardZ (zeros w 12 0) (.seta (f2 w 25) (f6 w 19) (f6 w 13))
  | 0x02 =>
    if f1 w 24 then guardZ (zeros w 20 0) (.addaReg (f2 w 25) (f3 w 21))
    else guardZ (zeros w 23 21) (.addaImm (f2 w 25) (fin 2097152 w 20 0 (by decide)))
  | 0x03 =>
    if f1 w 23 then guardZ (zeros w 16 0) (.setiReg (f3 w 24) (f6 w 17))
    else some (.setiImm (f3 w 24) (fin 8388608 w 22 0 (by decide)))
  | 0x04 =>
    if f1 w 24 then guardZ (zeros w 17 0) (.loopReg (f2 w 25) (f6 w 18))
    else some (.loopImm (f2 w 25) (fin 16777216 w 23 0 (by decide)))
  | 0x05 =>
    guardZ (zeros w 8 0)
      (.endl (f2 w 25) (fin 16 w 24 21 (by decide)) (f3 w 18) (f3 w 15) (f3 w 12) (f3 w 9))
  | 0x06 =>
    guardZ (zeros w 23 22 && zeros w 10 0) (.load (f2 w 25) (f1 w 24) (fin 2048 w 21 11 (by decide)))
  | 0x07 =>
    guardZ (zeros w 10 0 && !(wfld w 23 22 == 3))
      (.store (f2 w 25) (f1 w 24) (f2 w 22) (fin 2048 w 21 11 (by decide)))
  | 0x08 => guardZ (zeros w 8 0) (.gather (f2 w 25) (f2 w 23) (f3 w 20) (f3 w 17) (f8 w 9))
  | 0x09 =>
    guardZ (zeros w 6 0 && !(wfld w 8 7 == 3))
      (.scatter (f2 w 25) (f2 w 23) (f3 w 20) (f3 w 17) (f8 w 9) (f2 w 7))
  | 0x0A => guardZ (zeros w 25 0) (.emit (f1 w 26))
  | 0x0B => guardZ (zeros w 26 0) .take
  | 0x0C => guardZ (zeros w 26 0) .free
  | 0x0D =>
    guardZ (zeros w 4 0 && decide (wfld w 26 25 < 2)) (.wait (f2 w 25) (f6 w 19) (f8 w 11) (f6 w 5))
  | 0x0E => guardZ (zeros w 12 0) (.arrive (f6 w 21) (f8 w 13))
  | 0x0F => guardZ (zeros w 26 0) .done
  | _ => none

/-- A Bool as a bit. -/
def bitOf (b : Bool) : Nat := if b then 1 else 0

/-- The word of a grist instruction (R104). -/
def encodeGrist : Grist → Nat
  | .seta ar px py => 0x01 * 2 ^ 27 + ar.val * 2 ^ 25 + px.val * 2 ^ 19 + py.val * 2 ^ 13
  | .addaImm ar imm => 0x02 * 2 ^ 27 + ar.val * 2 ^ 25 + imm.val
  | .addaReg ar ir => 0x02 * 2 ^ 27 + ar.val * 2 ^ 25 + 2 ^ 24 + ir.val * 2 ^ 21
  | .setiImm ir imm => 0x03 * 2 ^ 27 + ir.val * 2 ^ 24 + imm.val
  | .setiReg ir px => 0x03 * 2 ^ 27 + ir.val * 2 ^ 24 + 2 ^ 23 + px.val * 2 ^ 17
  | .loopImm lvl c => 0x04 * 2 ^ 27 + lvl.val * 2 ^ 25 + c.val
  | .loopReg lvl px => 0x04 * 2 ^ 27 + lvl.val * 2 ^ 25 + 2 ^ 24 + px.val * 2 ^ 18
  | .endl lvl m s3 s2 s1 s0 =>
    0x05 * 2 ^ 27 + lvl.val * 2 ^ 25 + m.val * 2 ^ 21 + s3.val * 2 ^ 18 + s2.val * 2 ^ 15 + s1.val * 2 ^ 12
      + s0.val * 2 ^ 9
  | .load ar post len => 0x06 * 2 ^ 27 + ar.val * 2 ^ 25 + bitOf post * 2 ^ 24 + len.val * 2 ^ 11
  | .store ar post acc len =>
    0x07 * 2 ^ 27 + ar.val * 2 ^ 25 + bitOf post * 2 ^ 24 + acc.val * 2 ^ 22 + len.val * 2 ^ 11
  | .gather ab ai irl irs n =>
    0x08 * 2 ^ 27 + ab.val * 2 ^ 25 + ai.val * 2 ^ 23 + irl.val * 2 ^ 20 + irs.val * 2 ^ 17 + n.val * 2 ^ 9
  | .scatter ab ai irl irs n acc =>
    0x09 * 2 ^ 27 + ab.val * 2 ^ 25 + ai.val * 2 ^ 23 + irl.val * 2 ^ 20 + irs.val * 2 ^ 17 + n.val * 2 ^ 9
      + acc.val * 2 ^ 7
  | .emit z => 0x0A * 2 ^ 27 + bitOf z * 2 ^ 26
  | .take => 0x0B * 2 ^ 27
  | .free => 0x0C * 2 ^ 27
  | .wait mode die bar px =>
    0x0D * 2 ^ 27 + mode.val * 2 ^ 25 + die.val * 2 ^ 19 + bar.val * 2 ^ 11 + px.val * 2 ^ 5
  | .arrive die bar => 0x0E * 2 ^ 27 + die.val * 2 ^ 21 + bar.val * 2 ^ 13
  | .done => 0x0F * 2 ^ 27

end Sys2Proof
end

