-- ==== Sys2Proof/Config.lean ====
section
/-! DEFINITION. What an implementation fixes, and the values the spec leaves open. The opaque constants have no
body: nothing can be proved of their values (the free values of the assumption log). -/

namespace Sys2Proof.Config

/-- The KD random source (R451, R436): nonces, session identifiers, session keys and signature nonces. The step
applies it to the counter `State.free`, which it advances. Log entry 4. -/
opaque randomSource : Nat → BitVec 256

/-- The private half of the device key (R419, R429), a factory value never readable. Log entry 5. -/
opaque deviceKey : Nat

/-- The public half of the device key, `trust.device_pubkey` (R429): x and y as 64 bytes. Log entry 5. -/
opaque devicePublic : Nat

/-- The owner key of principal slot 0 (R430), supplied with the order: x and y as 64 bytes. Log entry 5. -/
opaque ownerKey : Nat

/-- The bytes of the firmware store at manufacture, by bank * 2^26 + offset (R424). Log entry 5. -/
opaque factoryStore : Nat → BitVec 8

/-- The digests of root slots 0 to 3 (R421). Log entry 5. -/
opaque rootDigest : Nat → BitVec 256

/-- The revocation bits that the body of a KD image names, by its digest (R426: the spec gives no place in the body for
them). Log entry 5. -/
opaque revocations : BitVec 256 → BitVec 4

/-- The version of the kiln signature set that the KD image body holds for the device's stepping, by the body's digest; none
where it holds none, or one that fails verification (R382, R390). Log entry 5. -/
opaque signatureSet : BitVec 256 → Option (BitVec 24)

/-- How CTX_READ item 0 lays a state code and a command pointer out in `DATA` (R435: the spec gives no places). Log
entry 35. -/
opaque ctxWord : Nat → Nat → BitVec 64

/-- Which free frame of a pool the device allocates (R214: the device alone allocates; the spec names no order). The
step applies it to the counter `State.free`, which it advances. Log entry 4. -/
opaque frameChoice : Nat → Nat

/-- The time in nanoseconds that a link die takes to fix its close point of a window (R287: within 5 µs). The step applies it
to the counter `State.free` at the close, which it advances, and to the link die. Log entry 49. -/
opaque closeDelay : Nat → Nat → Nat

/-- REF runs at 156.25 MHz: one cycle is 6.4 ns (R395). -/
def refPicosPerCycle : Nat := 6400

/-- The number of audit slots (R462). -/
def auditSlots : Nat := 65536

end Sys2Proof.Config
end

