-- ==== Sys2Proof/Machine/Bits.lean ====
section
/-! DEFINITION. Bit fields, byte order (R10), sparse tables, and the two cyclic codes the spec writes out
(CRC-32C of R355, CRC-32 of R298). -/

namespace Sys2Proof.Machine

/-- Field [hi:lo] of a word (R11: bit 0 is the least significant). -/
def fld (v hi lo : Nat) : Nat := (v >>> lo) % 2 ^ (hi + 1 - lo)

/-- Bit i of a word, as a Bool. -/
def bit (v i : Nat) : Bool := fld v i i == 1

/-- The word with field [hi:lo] replaced by x, cut to the field's width. -/
def setFld (v hi lo x : Nat) : Nat :=
  (v >>> (hi + 1)) <<< (hi + 1) + (x % 2 ^ (hi + 1 - lo)) <<< lo + v % 2 ^ lo

/-- Ceiling of a quotient, as the cost formulas write it. -/
def ceilDiv (a b : Nat) : Nat := (a + b - 1) / b

/-- 1 for true. -/
def b2n (b : Bool) : Nat := if b then 1 else 0

/-- Advance a counter that saturates at its maximum. -/
def satAdd (w v k : Nat) : Nat := min (v + k) (2 ^ w - 1)

/-- Number of one bits among the low n bits. -/
def popCount (v : Nat) : Nat → Nat
  | 0 => 0
  | n + 1 => popCount v n + b2n (bit v n)

/-- The set bits below n, ascending. -/
def bitList (v n : Nat) : List Nat := (List.range n).filter (bit v)

/-- Floor of log2, 0 at 0. -/
def log2 (v : Nat) : Nat := Nat.log2 v

/-! Byte order. -/

/-- Little-endian value of a byte sequence (R10). -/
def leNat : Bytes → Nat
  | [] => 0
  | b :: t => b.toNat + 256 * leNat t

/-- The low `len` bytes of a value, little-endian (R10). -/
def natLe : Nat → Nat → Bytes
  | 0, _ => []
  | len + 1, v => BitVec.ofNat 8 v :: natLe len (v / 256)

/-- Big-endian value (network order, R10 for Caddy headers). -/
def beNat (bs : Bytes) : Nat := leNat bs.reverse

/-- The low `len` bytes, big-endian. -/
def natBe (len v : Nat) : Bytes := (natLe len v).reverse

/-- `len` bytes from offset `off`, as far as they exist. -/
def slice (bs : Bytes) (off len : Nat) : Bytes := (bs.drop off).take len

/-- `len` bytes from offset `off`, completed with zeros. -/
def sliceZ (bs : Bytes) (off len : Nat) : Bytes :=
  let t := slice bs off len
  t ++ List.replicate (len - t.length) 0

/-- A byte sequence completed with zeros to a multiple of k. -/
def padTo (k : Nat) (bs : Bytes) : Bytes :=
  bs ++ List.replicate (ceilDiv bs.length k * k - bs.length) 0

/-- A byte sequence cut into pieces of k bytes, the last perhaps shorter. Fuel: the length. -/
def chunksAux (k : Nat) : Nat → Bytes → List Bytes
  | 0, _ => []
  | _, [] => []
  | n + 1, bs => bs.take k :: chunksAux k n (bs.drop k)

def chunks (k : Nat) (bs : Bytes) : List Bytes := if k = 0 then [] else chunksAux k bs.length bs

/-- The 32-bit little-endian words of a byte sequence. -/
def words32 (bs : Bytes) : List W32 := (chunks 4 bs).map fun c => BitVec.ofNat 32 (leNat c)

/-- The bytes of 32-bit words. -/
def unwords32 (ws : List W32) : Bytes := ws.flatMap fun w => natLe 4 w.toNat

/-! Sparse tables: a list of key and value pairs with the keys rising. -/

/-- A sparse table. -/
abbrev SMap (α : Type) := List (Nat × α)

namespace SMap

/-- The entry of key k. -/
def find? {α : Type} (k : Nat) : SMap α → Option α
  | [] => none
  | (k', v) :: t => if k' = k then some v else find? k t

/-- The entry of key k, or the value an unlisted key has. -/
def get {α : Type} (d : α) (m : SMap α) (k : Nat) : α := (find? k m).getD d

/-- Write the entry of key k, keeping the keys rising. -/
def put {α : Type} (k : Nat) (v : α) : SMap α → SMap α
  | [] => [(k, v)]
  | (k', v') :: t =>
    if k' = k then (k, v) :: t
    else if k < k' then (k, v) :: (k', v') :: t
    else (k', v') :: put k v t

/-- Remove every entry of key k. -/
def del {α : Type} (k : Nat) (m : SMap α) : SMap α := m.filter fun e => e.1 != k

/-- Drop the entries whose key satisfies the test. -/
def delIf {α : Type} (f : Nat → Bool) (m : SMap α) : SMap α := m.filter fun e => !f e.1

/-- Write the entry of key k, an entry equal to the unlisted value being removed. -/
def putD {α : Type} [DecidableEq α] (d : α) (k : Nat) (v : α) (m : SMap α) : SMap α :=
  if v = d then del k m else put k v m

end SMap

/-! Cyclic codes. -/

/-- One bit of a reflected CRC. -/
def crcBit (poly : Nat) : Nat → Nat → Nat
  | 0, r => r
  | n + 1, r => crcBit poly n (if r % 2 = 1 then (r / 2) ^^^ poly else r / 2)

/-- A reflected CRC over bytes, from the register value r. -/
def crcFold (poly r : Nat) (bs : Bytes) : Nat :=
  bs.foldl (fun r b => crcBit poly 8 (r ^^^ b.toNat)) r

/-- CRC-32C (R355). -/
def crc32c (bs : Bytes) : W32 := BitVec.ofNat 32 (crcFold 0x82F63B78 0xFFFFFFFF bs ^^^ 0xFFFFFFFF)

/-- CRC-32 of IEEE 802.3 (R298): polynomial 0x04C1_1DB7 reflected. -/
def crc32 (bs : Bytes) : W32 := BitVec.ofNat 32 (crcFold 0xEDB88320 0xFFFFFFFF bs ^^^ 0xFFFFFFFF)

end Sys2Proof.Machine
end

