-- ==== Sys2Proof/Machine/Crypto.lean ====
section
/-! DEFINITION. The published algorithms R419 and R420 name: SM3 (GB/T 32905), HMAC over it (ISO/IEC 9797-2), and SM2
signature verification on the recommended curve (GB/T 32918.2, .5). PRESUMED: the spec names the standards and does not
restate them (log entry 3). -/

namespace Sys2Proof.Machine

/-! SM3. -/

def rotl32 (x k : Nat) : Nat := ((x <<< (k % 32)) % 2 ^ 32) + (x >>> (32 - k % 32))
def not32 (x : Nat) : Nat := 2 ^ 32 - 1 - x
def sm3P0 (x : Nat) : Nat := x ^^^ rotl32 x 9 ^^^ rotl32 x 17
def sm3P1 (x : Nat) : Nat := x ^^^ rotl32 x 15 ^^^ rotl32 x 23
def sm3FF (j x y z : Nat) : Nat :=
  if j < 16 then x ^^^ y ^^^ z else (x &&& y) ||| (x &&& z) ||| (y &&& z)
def sm3GG (j x y z : Nat) : Nat :=
  if j < 16 then x ^^^ y ^^^ z else (x &&& y) ||| (not32 x &&& z)

/-- Message expansion: w holds the words so far, newest first. -/
def sm3Expand : Nat → List Nat → List Nat
  | 0, w => w
  | n + 1, w =>
    let v := sm3P1 (w.getD 15 0 ^^^ w.getD 8 0 ^^^ rotl32 (w.getD 2 0) 15)
      ^^^ rotl32 (w.getD 12 0) 7 ^^^ w.getD 5 0
    sm3Expand n (v :: w)

structure Sm3Regs where
  a : Nat
  b : Nat
  c : Nat
  d : Nat
  e : Nat
  f : Nat
  g : Nat
  h : Nat
  deriving DecidableEq, Repr

def sm3Round (w : List Nat) (v : Sm3Regs) (j : Nat) : Sm3Regs :=
  let t := if j < 16 then 0x79CC4519 else 0x7A879D8A
  let ss1 := rotl32 ((rotl32 v.a 12 + v.e + rotl32 t j) % 2 ^ 32) 7
  let ss2 := ss1 ^^^ rotl32 v.a 12
  let tt1 := (sm3FF j v.a v.b v.c + v.d + ss2 + (w.getD j 0 ^^^ w.getD (j + 4) 0)) % 2 ^ 32
  let tt2 := (sm3GG j v.e v.f v.g + v.h + ss1 + w.getD j 0) % 2 ^ 32
  ⟨tt1, v.a, rotl32 v.b 9, v.c, sm3P0 tt2, v.e, rotl32 v.f 19, v.g⟩

def sm3Block (v : Sm3Regs) (block : Bytes) : Sm3Regs :=
  let w := (sm3Expand 52 ((chunks 4 block).map beNat).reverse).reverse
  let r := (List.range 64).foldl (sm3Round w) v
  ⟨v.a ^^^ r.a, v.b ^^^ r.b, v.c ^^^ r.c, v.d ^^^ r.d, v.e ^^^ r.e, v.f ^^^ r.f, v.g ^^^ r.g, v.h ^^^ r.h⟩

/-- SM3 digest, 32 bytes. -/
def sm3 (m : Bytes) : Bytes :=
  let padded := m ++ (0x80#8 :: List.replicate ((119 - m.length % 64) % 64) 0) ++ natBe 8 (8 * m.length)
  let iv : Sm3Regs := ⟨0x7380166F, 0x4914B2B9, 0x172442D7, 0xDA8A0600, 0xA96F30BC, 0x163138AA, 0xE38DEE4D, 0xB0FB0E4E⟩
  let r := (chunks 64 padded).foldl sm3Block iv
  [r.a, r.b, r.c, r.d, r.e, r.f, r.g, r.h].flatMap (natBe 4)

/-- HMAC-SM3 with a 32 B key and a 64 B block (R420). -/
def hmacSm3 (key m : Bytes) : Bytes :=
  let k := key ++ List.replicate (64 - key.length) 0
  let ipad := k.map fun b => b ^^^ 0x36#8
  let opad := k.map fun b => b ^^^ 0x5C#8
  sm3 (opad ++ sm3 (ipad ++ m))

/-! SM2. -/

def sm2p : Nat := 0xFFFFFFFEFFFFFFFFFFFFFFFFFFFFFFFFFFFFFFFF00000000FFFFFFFFFFFFFFFF
def sm2a : Nat := 0xFFFFFFFEFFFFFFFFFFFFFFFFFFFFFFFFFFFFFFFF00000000FFFFFFFFFFFFFFFC
def sm2b : Nat := 0x28E9FA9E9D9F5E344D5A9E4BCF6509A7F39789F515AB8F92DDBCBD414D940E93
def sm2n : Nat := 0xFFFFFFFEFFFFFFFFFFFFFFFFFFFFFFFF7203DF6B21C6052B53BBF40939D54123
def sm2gx : Nat := 0x32C4AE2C1F1981195F9904466A39C9948FE30BBFF2660BE1715A4589334C74C7
def sm2gy : Nat := 0xBC3736A2F4F6779C59BDCEE36B692153D0A9877CC62A474002DF32E52139F0A0

/-- Subtraction modulo p. -/
def sm2Sub (x y : Nat) : Nat := (x + sm2p - y % sm2p) % sm2p

/-- A point in Jacobian coordinates; z = 0 is the point at infinity. -/
structure EcPoint where
  x : Nat
  y : Nat
  z : Nat
  deriving DecidableEq, Repr

def ecDouble (P : EcPoint) : EcPoint :=
  if P.z = 0 then P
  else
    let zz := P.z * P.z % sm2p
    let m := 3 * sm2Sub P.x zz * (P.x + zz) % sm2p     -- a = p - 3
    let yy := P.y * P.y % sm2p
    let s := 4 * P.x * yy % sm2p
    let x := sm2Sub (m * m % sm2p) (2 * s)
    ⟨x, sm2Sub (m * sm2Sub s x % sm2p) (8 * yy * yy), 2 * P.y * P.z % sm2p⟩

def ecAdd (P Q : EcPoint) : EcPoint :=
  if P.z = 0 then Q
  else if Q.z = 0 then P
  else
    let z1 := P.z * P.z % sm2p
    let z2 := Q.z * Q.z % sm2p
    let u1 := P.x * z2 % sm2p
    let u2 := Q.x * z1 % sm2p
    let s1 := P.y * z2 * Q.z % sm2p
    let s2 := Q.y * z1 * P.z % sm2p
    if u1 = u2 then (if s1 = s2 then ecDouble P else ⟨1, 1, 0⟩)
    else
      let h := sm2Sub u2 u1
      let r := sm2Sub s2 s1
      let hh := h * h % sm2p
      let hhh := hh * h % sm2p
      let v := u1 * hh % sm2p
      let x := sm2Sub (sm2Sub (r * r % sm2p) hhh) (2 * v)
      ⟨x, sm2Sub (r * sm2Sub v x % sm2p) (s1 * hhh), h * P.z % sm2p * Q.z % sm2p⟩

/-- k * P over the low n bits of k, most significant first. -/
def ecMul (k : Nat) (P : EcPoint) : Nat → EcPoint → EcPoint
  | 0, acc => acc
  | n + 1, acc =>
    let d := ecDouble acc
    ecMul k P n (if bit k n then ecAdd d P else d)

def powMod (b m : Nat) (e : Nat) : Nat → Nat → Nat
  | 0, acc => acc
  | n + 1, acc =>
    let s := acc * acc % m
    powMod b m e n (if bit e n then s * b % m else s)

/-- The affine x coordinate (Fermat inverse). -/
def ecAffine (P : EcPoint) : Nat × Nat :=
  let zi := powMod (P.z % sm2p) sm2p (sm2p - 2) 256 1
  let zi2 := zi * zi % sm2p
  (P.x * zi2 % sm2p, P.y * zi2 % sm2p * zi % sm2p)

/-- The point a 65 B public key names, when it lies on the curve (R419, R430). -/
def sm2Key (key : Bytes) : Option EcPoint :=
  let x := beNat (slice key 1 32)
  let y := beNat (slice key 33 32)
  if key.length = 65 && key.headD 0 == 4#8 && x < sm2p && y < sm2p
      && y * y % sm2p == (x * x * x + sm2a * x + sm2b) % sm2p then some ⟨x, y, 1⟩ else none

/-- ZA with the 16-byte default identity (R419). -/
def sm2Za (key : Bytes) : Bytes :=
  sm3 (natBe 2 128 ++ ("1234567812345678".toList.map fun c => BitVec.ofNat 8 c.toNat)
    ++ natBe 32 sm2a ++ natBe 32 sm2b ++ natBe 32 sm2gx ++ natBe 32 sm2gy ++ slice key 1 64)

/-- The digest a signature is taken over: SM3(ZA || M) (R419). -/
def sm2Digest (key m : Bytes) : Nat := beNat (sm3 (sm2Za key ++ m))

/-- SM2 verification of the 64 B signature r, s over M by a 65 B public key (R419). -/
def sm2Verify (key m sig : Bytes) : Bool :=
  match sm2Key key with
  | none => false
  | some P =>
    let r := beNat (slice sig 0 32)
    let s := beNat (slice sig 32 32)
    let t := (r + s) % sm2n
    if sig.length != 64 || r == 0 || r ≥ sm2n || s == 0 || s ≥ sm2n || t == 0 then false
    else
      let G : EcPoint := ⟨sm2gx, sm2gy, 1⟩
      let Q := ecAdd (ecMul s G 256 ⟨1, 1, 0⟩) (ecMul t P 256 ⟨1, 1, 0⟩)
      Q.z != 0 && (sm2Digest key m + (ecAffine Q).1) % sm2n == r

/-- SM2 signing with private key d and secret number k (R419). -/
def sm2Sign (d : Nat) (key m : Bytes) (k : Nat) : Bytes :=
  let x := (ecAffine (ecMul k ⟨sm2gx, sm2gy, 1⟩ 256 ⟨1, 1, 0⟩)).1
  let r := (sm2Digest key m + x) % sm2n
  let inv := powMod ((1 + d) % sm2n) sm2n (sm2n - 2) 256 1
  let s := inv * ((k + sm2n - r * d % sm2n) % sm2n) % sm2n
  natBe 32 r ++ natBe 32 s

/-- The SM2 key stream: SM3(x2 || y2 || counter), n blocks. -/
def sm2Kdf (z : Bytes) : Nat → Nat → Bytes
  | 0, _ => []
  | n + 1, ct => sm3 (z ++ natBe 4 ct) ++ sm2Kdf z n (ct + 1)

/-- SM2 public-key encryption in C1 || C3 || C2 order with secret number k (R451); empty for a key off the curve. -/
def sm2Encrypt (key m : Bytes) (k : Nat) : Bytes :=
  match sm2Key key with
  | none => []
  | some P =>
    let c1 := ecAffine (ecMul k ⟨sm2gx, sm2gy, 1⟩ 256 ⟨1, 1, 0⟩)
    let q := ecAffine (ecMul k P 256 ⟨1, 1, 0⟩)
    let x2 := natBe 32 q.1
    let y2 := natBe 32 q.2
    let t := (sm2Kdf (x2 ++ y2) (ceilDiv m.length 32) 1).take m.length
    (4#8 :: natBe 32 c1.1 ++ natBe 32 c1.2) ++ sm3 (x2 ++ m ++ y2) ++ List.zipWith (· ^^^ ·) m t

end Sys2Proof.Machine
end

