-- ==== Sys2Proof/Machine/Flags.lean ====
section
/-! DEFINITION. The status codes of R13 and the rule that picks one among several (R16), and which codes have a
sticky error bit (R373, R464). The block has no arithmetic flags: status codes and sticky bits are its flags. -/

namespace Sys2Proof.Machine

/-- The shared status codes (R13). -/
inductive Status where
  | ok | alreadyComplete | aborted | engineAbsent | unitRetired | bankConflict | ringMisconfig
  | translationFault | accessDenied | sealFail | resteepMismatch | eccUncorrectable | windowClosed
  | epochMismatch | remoteUnreachable | nondeterministic | recipeInvalid | preemptOverrun | busy
  deriving DecidableEq, Repr

/-- The 8-bit code of a status (R13). -/
def Status.code : Status → Nat
  | .ok => 0x00
  | .alreadyComplete => 0x01
  | .aborted => 0x02
  | .engineAbsent => 0x08
  | .unitRetired => 0x09
  | .bankConflict => 0x10
  | .ringMisconfig => 0x11
  | .translationFault => 0x18
  | .accessDenied => 0x19
  | .sealFail => 0x20
  | .resteepMismatch => 0x21
  | .eccUncorrectable => 0x22
  | .windowClosed => 0x28
  | .epochMismatch => 0x29
  | .remoteUnreachable => 0x2A
  | .nondeterministic => 0x30
  | .recipeInvalid => 0x31
  | .preemptOverrun => 0x38
  | .busy => 0x40

/-- Every status of R13, in ascending code. -/
def Status.all : List Status :=
  [.ok, .alreadyComplete, .aborted, .engineAbsent, .unitRetired, .bankConflict, .ringMisconfig, .translationFault,
   .accessDenied, .sealFail, .resteepMismatch, .eccUncorrectable, .windowClosed, .epochMismatch,
   .remoteUnreachable, .nondeterministic, .recipeInvalid, .preemptOverrun, .busy]

/-- The status of a code; a reserved code is a failure (R13), read here as a refusal by access. -/
def Status.ofCode (c : Nat) : Status := (Status.all.find? fun s => s.code == c).getD .accessDenied

/-- The codes that R373 lets set a sticky bit. -/
def Status.sticky : Status → Bool
  | .ok | .alreadyComplete | .aborted | .busy => false
  | _ => true

/-- The status of a check point at which the listed conditions were detected: the lowest code (R16). -/
def lowest : List Status → Status
  | [] => .ok
  | s :: t => t.foldl (fun a b => if b.code < a.code then b else a) s

/-- The conditions of a check point: those whose test holds, in the order written. -/
def conds (cs : List (Bool × Status)) : List Status := (cs.filter (·.1)).map (·.2)

/-- The first condition whose test holds, for checks made one after another (R16). -/
def firstFail : List (Bool × Status) → Option Status
  | [] => none
  | (b, st) :: t => if b then some st else firstFail t


/-- A value is an aligned one: `2^k` divides it. -/
def aligned (k v : Nat) : Bool := v % 2 ^ k == 0

end Sys2Proof.Machine
end

