-- ==== Sys2Proof/Machine/DictTable.lean ====
section
/-! DEFINITION. The Caddy parameter dictionary (R441 to R447): one row for each entry or array of entries that a
chapter tabulates, with its type, access, persistence, default and value range. -/

namespace Sys2Proof.Machine

/-- The types of R442. `bits` carries the mask of its assigned bits, `enum` its highest assigned code. -/
inductive EType where
  | num (len : Nat)
  | f32
  | enum (top : Nat)
  | bits (len mask : Nat)
  | str (len : Nat)
  | blob (len : Nat)
  deriving DecidableEq, Repr

/-- The length of a value in bytes (R442). -/
def EType.len : EType → Nat
  | .num n => n
  | .f32 => 4
  | .enum _ => 1
  | .bits n _ => n
  | .str n => n
  | .blob n => n

/-- The access rights of R443. -/
inductive Acc where
  | ro | rw | wo | rwl
  deriving DecidableEq, Repr

/-- The persistence classes of R444. -/
inductive Pers where
  | persistent | standby | volatile | none
  deriving DecidableEq, Repr

/-- Which compute die an entry belongs to, for the fused-off rule of R445. -/
inductive DieSel where
  | no | byIndex | bySub
  deriving DecidableEq, Repr

/-- One row of a dictionary table. -/
structure Entry where
  name : String
  base : Nat
  span : Nat := 1
  subs : Nat → Bool := fun s => s == 0
  ty   : EType
  acc  : Acc
  pers : Pers
  dflt : Nat → Nat → Nat := fun _ _ => 0
  lo   : Nat := 0
  hi   : Nat := 2 ^ 64
  die  : DieSel := .no

/-- The key of an entry in the register file. -/
def rk (index sub : Nat) : Nat := index * 256 + sub

/-- Exactly sub-index k. -/
def at_ (k : Nat) : Nat → Bool := fun s => s == k
/-- Sub-indices below n. -/
def below (n : Nat) : Nat → Bool := fun s => decide (s < n)
/-- A constant default. -/
def cst (v : Nat) : Nat → Nat → Nat := fun _ _ => v

/-- The text as the value of a STR entry: byte 0 is the first character. -/
def strNat (t : String) : Nat := leNat (t.toList.map fun c => BitVec.ofNat 8 c.toNat)

/-- Identity and inventory (R447). The factory values are log entry 6. -/
def tabIdentity : List Entry :=
  [ ⟨"id.vendor", 0x1000, 1, at_ 0, .str 21, .ro, .persistent, cst (strNat "Halmond Semiconductor"), 0, 0, .no⟩,
    ⟨"id.product", 0x1000, 1, at_ 1, .str 12, .ro, .persistent, cst (strNat "Tyral Dritia"), 0, 0, .no⟩,
    ⟨"id.ordering_code", 0x1000, 1, at_ 2, .str 10, .ro, .persistent, cst (strNat "TYD-6416-A"), 0, 0, .no⟩,
    ⟨"id.serial", 0x1000, 1, at_ 3, .num 8, .ro, .persistent, cst 0, 0, 0, .no⟩,
    ⟨"id.grade", 0x1000, 1, at_ 4, .num 1, .ro, .persistent, cst 0x41, 0, 0, .no⟩,
    ⟨"id.stepping", 0x1000, 1, at_ 5, .num 1, .ro, .persistent, cst 0x41, 0, 0, .no⟩,
    ⟨"id.fused_dies", 0x1000, 1, at_ 6, .bits 8 (2 ^ 64 - 1), .ro, .persistent, cst 0, 0, 0, .no⟩,
    ⟨"id.made_week", 0x1000, 1, at_ 7, .num 2, .ro, .persistent, cst 0, 0, 0, .no⟩,
    ⟨"id.idcode", 0x1000, 1, at_ 8, .num 4, .ro, .persistent, cst 0x16416445, 0, 0, .no⟩,
    ⟨"inv.cd_state", 0x1010, 1, below 64, .enum 2, .ro, .volatile, cst 0, 0, 0, .bySub⟩,
    ⟨"inv.mx_state", 0x1011, 1, below 16, .enum 2, .ro, .volatile, cst 0, 0, 0, .no⟩,
    ⟨"inv.lx_state", 0x1012, 1, below 16, .enum 2, .ro, .volatile, cst 0, 0, 0, .no⟩,
    ⟨"inv.lpddr_id", 0x1013, 1, below 16, .bits 4 (2 ^ 32 - 1), .ro, .volatile, cst 0, 0, 0, .no⟩,
    ⟨"inv.presented_cores", 0x1014, 1, at_ 0, .num 4, .ro, .volatile, cst 0, 0, 0, .no⟩ ]

/-- Caddy, audit and sticky entries (R465). -/
def tabAudit : List Entry :=
  [ ⟨"audit.next_seq", 0x1100, 1, at_ 0, .num 4, .ro, .standby, cst 0, 0, 0, .no⟩,
    ⟨"audit.annotate", 0x1100, 1, at_ 1, .blob 16, .wo, .none, cst 0, 0, 2 ^ 128, .no⟩,
    ⟨"audit.mirror_base", 0x1100, 1, at_ 2, .num 8, .rwl, .persistent, cst 0, 0, 2 ^ 64, .no⟩,
    ⟨"audit.mirror_enabled", 0x1100, 1, at_ 3, .enum 1, .ro, .volatile, cst 0, 0, 0, .no⟩,
    ⟨"sticky.bits", 0x1100, 1, at_ 0x10, .blob 32, .ro, .standby, cst 0, 0, 0, .no⟩,
    ⟨"sticky.clear", 0x1100, 1, at_ 0x11, .blob 32, .wo, .none, cst 0, 0, 2 ^ 256, .no⟩,
    ⟨"sticky.first_seq", 0x1110, 1, below 256, .num 4, .ro, .standby, cst 0xFFFFFFFF, 0, 0, .no⟩,
    ⟨"audit.record", 0x1200, 256, below 256, .blob 64, .ro, .standby, cst 0, 0, 0, .no⟩,
    ⟨"caddy.ports", 0x7080, 1, at_ 0, .bits 1 0xF, .rwl, .persistent, cst 0xF, 0, 0xF, .no⟩,
    ⟨"caddy.idle_s", 0x7080, 1, at_ 1, .num 2, .rw, .persistent, cst 300, 10, 3600, .no⟩,
    ⟨"caddy.sessions", 0x7080, 1, at_ 2, .num 1, .ro, .volatile, cst 0, 0, 0, .no⟩,
    ⟨"caddy.mac_drops", 0x8F20, 1, at_ 0, .num 4, .ro, .volatile, cst 0, 0, 0, .no⟩,
    ⟨"caddy.open_failures", 0x8F20, 1, at_ 1, .num 4, .ro, .persistent, cst 0, 0, 0, .no⟩,
    ⟨"caddy.notify_drops", 0x8F20, 1, at_ 2, .num 4, .ro, .volatile, cst 0, 0, 0, .no⟩ ]

/-- Clocks, power and start-up (R418) and sensors (R475). -/
def tabClocks : List Entry :=
  [ ⟨"clk.ref_port", 0x2000, 1, at_ 0, .num 1, .ro, .volatile, cst 0xFF, 0, 0, .no⟩,
    ⟨"clk.ref_state", 0x2000, 1, at_ 1, .enum 3, .ro, .volatile, cst 0, 0, 0, .no⟩,
    ⟨"clk.ref_ctl", 0x2000, 1, at_ 2, .num 1, .wo, .none, cst 0, 0, 3, .no⟩,
    ⟨"clk.ref_ok", 0x2000, 1, at_ 3, .bits 1 0xF, .ro, .volatile, cst 0, 0, 0, .no⟩,
    ⟨"time.local_ns", 0x2000, 1, at_ 4, .num 8, .ro, .volatile, cst 0, 0, 0, .no⟩,
    ⟨"pwr.op_target", 0x2010, 1, below 64, .enum 3, .rw, .volatile, cst 3, 0, 3, .bySub⟩,
    ⟨"pwr.op_current", 0x2011, 1, below 64, .enum 3, .ro, .volatile, cst 0, 0, 0, .bySub⟩,
    ⟨"pwr.op_ceiling", 0x2012, 1, below 64, .enum 3, .ro, .volatile, cst 3, 0, 0, .bySub⟩,
    ⟨"pwr.groups_awake", 0x2013, 1, below 64, .bits 2 0xFFFF, .ro, .volatile, cst 0, 0, 0, .bySub⟩,
    ⟨"pwr.op_default", 0x2020, 1, at_ 0, .enum 3, .rwl, .persistent, cst 3, 0, 3, .no⟩,
    ⟨"pwr.slew_ma_per_ms", 0x2020, 1, at_ 1, .num 4, .rwl, .persistent, cst 20000, 2000, 20000, .no⟩,
    ⟨"pwr.idle_us", 0x2020, 1, at_ 2, .num 4, .rw, .persistent, cst 1000, 10, 1000000, .no⟩,
    ⟨"boot.phase", 0x2030, 1, at_ 0, .bits 1 0xC7, .ro, .volatile, cst 0, 0, 0, .no⟩,
    ⟨"boot.ctl", 0x2030, 1, at_ 1, .num 1, .wo, .none, cst 0, 1, 2, .no⟩,
    ⟨"boot.phase_ms", 0x2030, 1, at_ 2, .blob 32, .ro, .volatile, cst 0, 0, 0, .no⟩,
    ⟨"kd.active", 0x2040, 1, at_ 0, .enum 1, .ro, .volatile, cst 0, 0, 0, .no⟩,
    ⟨"kd.standby", 0x2040, 1, at_ 1, .enum 2, .ro, .volatile, cst 0, 0, 0, .no⟩,
    ⟨"therm.cd_junction", 0x2050, 1, below 64, .f32, .ro, .volatile, cst 0, 0, 0, .bySub⟩,
    ⟨"therm.mx_junction", 0x2051, 1, below 16, .f32, .ro, .volatile, cst 0, 0, 0, .no⟩,
    ⟨"therm.lx_junction", 0x2052, 1, below 16, .f32, .ro, .volatile, cst 0, 0, 0, .no⟩,
    ⟨"therm.kd_junction", 0x2053, 1, below 2, .f32, .ro, .volatile, cst 0, 0, 0, .no⟩,
    ⟨"therm.coolant_in", 0x2054, 1, at_ 0, .f32, .ro, .volatile, cst 0, 0, 0, .no⟩,
    ⟨"therm.coolant_out", 0x2054, 1, at_ 1, .f32, .ro, .volatile, cst 0, 0, 0, .no⟩,
    ⟨"therm.carrier", 0x2054, 1, at_ 2, .f32, .ro, .volatile, cst 0, 0, 0, .no⟩,
    ⟨"pwr.input_v", 0x2060, 1, at_ 0, .f32, .ro, .volatile, cst 0, 0, 0, .no⟩,
    ⟨"pwr.input_a", 0x2060, 1, at_ 1, .f32, .ro, .volatile, cst 0, 0, 0, .no⟩,
    ⟨"pwr.standby_v", 0x2060, 1, at_ 2, .f32, .ro, .volatile, cst 0, 0, 0, .no⟩,
    ⟨"pwr.low_input", 0x2060, 1, at_ 3, .enum 1, .ro, .volatile, cst 0, 0, 0, .no⟩,
    ⟨"clk.failovers", 0x8000, 1, at_ 0, .num 4, .ro, .volatile, cst 0, 0, 0, .no⟩,
    ⟨"clk.quiesces", 0x8000, 1, at_ 1, .num 4, .ro, .persistent, cst 0, 0, 0, .no⟩,
    ⟨"kd.takeovers", 0x8000, 1, at_ 2, .num 4, .ro, .persistent, cst 0, 0, 0, .no⟩,
    ⟨"pwr.wake_grants", 0x8000, 1, at_ 3, .num 8, .ro, .volatile, cst 0, 0, 0, .no⟩,
    ⟨"pwr.wake_wait_max_us", 0x8000, 1, at_ 4, .num 4, .ro, .volatile, cst 0, 0, 0, .no⟩,
    ⟨"pwr.thermal_shutdowns", 0x8000, 1, at_ 5, .num 4, .ro, .persistent, cst 0, 0, 0, .no⟩,
    ⟨"pwr.low_input_events", 0x8000, 1, at_ 6, .num 4, .ro, .persistent, cst 0, 0, 0, .no⟩,
    ⟨"pwr.throttles", 0x8001, 1, below 64, .num 4, .ro, .volatile, cst 0, 0, 0, .bySub⟩ ]

/-- Memory (R93, R269) and translation and windows (R293). -/
def tabMemory : List Entry :=
  [ ⟨"mem.usable_bytes", 0x3000, 1, at_ 0, .num 8, .ro, .volatile, cst 0xF000000000, 0, 0, .no⟩,
    ⟨"mem.retire_threshold", 0x3000, 1, at_ 1, .num 2, .rwl, .persistent, cst 4, 1, 1000, .no⟩,
    ⟨"mem.refresh_poll_ms", 0x3000, 1, at_ 2, .num 2, .rwl, .persistent, cst 16, 4, 256, .no⟩,
    ⟨"mem.retire_record", 0x3010, 1, below 16, .bits 1 0xFF, .ro, .persistent, cst 0, 0, 0, .no⟩,
    ⟨"mem.channel_fenced", 0x3020, 1, below 16, .bits 1 0xFF, .ro, .volatile, cst 0, 0, 0, .no⟩,
    ⟨"mem.refresh_mult", 0x3030, 1, below 16, .enum 5, .ro, .volatile, cst 2, 0, 0, .no⟩,
    ⟨"cask.base", 0x3040, 1, at_ 0, .num 8, .rwl, .persistent, cst 0, 0, 2 ^ 64, .no⟩,
    ⟨"cask.bytes", 0x3040, 1, at_ 1, .num 8, .rwl, .persistent, cst 0, 0, 2 ^ 64, .no⟩,
    ⟨"cask.enabled", 0x3040, 1, at_ 2, .enum 1, .ro, .volatile, cst 0, 0, 0, .no⟩,
    ⟨"mem.ecc_corrected", 0x8800, 16, below 8, .num 4, .ro, .volatile, cst 0, 0, 0, .no⟩,
    ⟨"mem.ecc_uncorrectable", 0x8810, 16, below 8, .num 4, .ro, .volatile, cst 0, 0, 0, .no⟩,
    ⟨"mem.link_corrected", 0x8820, 16, below 8, .num 4, .ro, .volatile, cst 0, 0, 0, .no⟩,
    ⟨"mem.link_retries", 0x8830, 16, below 8, .num 4, .ro, .volatile, cst 0, 0, 0, .no⟩,
    ⟨"sp.scrub_interval", 0x3100, 1, at_ 0, .num 2, .rwl, .persistent, cst 1024, 256, 65535, .no⟩,
    ⟨"tun.scrub_period_s", 0x3110, 1, at_ 0, .num 4, .rw, .persistent, cst 3600, 60, 86400, .no⟩,
    ⟨"tun.spare_rows_left", 0x3140, 64, below 16, .num 2, .ro, .volatile, cst 512, 0, 0, .byIndex⟩,
    ⟨"tun.segment_state", 0x3180, 64, below 176, .enum 2, .ro, .volatile, cst 0, 0, 0, .byIndex⟩,
    ⟨"sp.ecc_corrected", 0x8100, 64, below 256, .num 4, .ro, .volatile, cst 0, 0, 0, .byIndex⟩,
    ⟨"sp.ecc_uncorrectable", 0x8140, 64, below 256, .num 4, .ro, .volatile, cst 0, 0, 0, .byIndex⟩,
    ⟨"tun.ecc_corrected", 0x8180, 64, below 16, .num 4, .ro, .volatile, cst 0, 0, 0, .byIndex⟩,
    ⟨"tun.ecc_uncorrectable", 0x81C0, 64, below 16, .num 4, .ro, .volatile, cst 0, 0, 0, .byIndex⟩,
    ⟨"xlate.root", 0x3800, 256, below 8, .num 8, .rw, .volatile, cst 0, 0, 2 ^ 64, .no⟩,
    ⟨"xlate.invalidate", 0x3900, 256, below 8, .bits 8 (2 ^ 64 - 2 ^ 16), .wo, .none, cst 0, 0, 2 ^ 64, .no⟩,
    ⟨"xlate.resume", 0x3A00, 256, below 8, .bits 8 (2 ^ 37 - 1), .wo, .none, cst 0, 0, 2 ^ 64, .no⟩,
    ⟨"win.desc", 0x3B00, 16, below 256, .blob 32, .rw, .volatile, cst 0, 0, 2 ^ 256, .no⟩,
    ⟨"win.ctl", 0x3C00, 1, at_ 0, .bits 4 0xC0000FFF, .wo, .none, cst 0, 0, 2 ^ 32, .no⟩,
    ⟨"win.reopen_guard_us", 0x3C00, 1, at_ 1, .num 4, .rwl, .persistent, cst 2000, 1001, 1000000, .no⟩,
    ⟨"xlate.walks", 0x8900, 1, below 64, .num 8, .ro, .volatile, cst 0, 0, 0, .bySub⟩,
    ⟨"xlate.faults", 0x8901, 1, below 64, .num 4, .ro, .volatile, cst 0, 0, 0, .bySub⟩,
    ⟨"win.refused_closed", 0x8902, 1, at_ 0, .num 4, .ro, .volatile, cst 0, 0, 0, .no⟩,
    ⟨"win.refused_denied", 0x8902, 1, at_ 1, .num 4, .ro, .volatile, cst 0, 0, 0, .no⟩ ]

/-- Partitions and accounting (R353). -/
def tabPartitions : List Entry :=
  [ ⟨"part.state", 0x4000, 256, at_ 0, .enum 1, .ro, .volatile, cst 0, 0, 0, .no⟩,
    ⟨"part.units", 0x4000, 256, at_ 1, .blob 32, .rw, .volatile, cst 0, 0, 2 ^ 256, .no⟩,
    ⟨"part.ctl", 0x4000, 256, at_ 2, .num 1, .wo, .none, cst 0, 1, 2, .no⟩,
    ⟨"part.resident", 0x4000, 256, at_ 3, .num 1, .ro, .volatile, cst 0xFF, 0, 0, .no⟩,
    ⟨"part.drained", 0x4000, 256, at_ 4, .enum 1, .ro, .volatile, cst 1, 0, 0, .no⟩,
    ⟨"part.slice_ms", 0x4100, 256, below 8, .num 2, .rw, .volatile, cst 0, 0, 10000, .no⟩,
    ⟨"part.save_banks", 0x4200, 256, below 8, .num 1, .rw, .volatile, cst 32, 0, 32, .no⟩,
    ⟨"tun.seg_owner", 0x4300, 64, below 176, .bits 2 0xF8FF, .rw, .volatile, cst 0, 0, 2 ^ 16, .byIndex⟩,
    ⟨"acct.queue_wait_ns", 0x8D00, 8, below 256, .num 8, .ro, .volatile, cst 0, 0, 0, .no⟩,
    ⟨"acct.resident_ns", 0x8D08, 8, below 256, .num 8, .ro, .volatile, cst 0, 0, 0, .no⟩,
    ⟨"acct.preemptions", 0x8D10, 8, below 256, .num 4, .ro, .volatile, cst 0, 0, 0, .no⟩,
    ⟨"acct.kiln_preemptions", 0x8D18, 8, below 256, .num 4, .ro, .volatile, cst 0, 0, 0, .no⟩,
    ⟨"acct.overruns", 0x8D20, 8, below 256, .num 4, .ro, .volatile, cst 0, 0, 0, .no⟩,
    ⟨"acct.overrun_ns", 0x8D28, 8, below 256, .num 8, .ro, .volatile, cst 0, 0, 0, .no⟩ ]

/-- Fabric (R315). The default of fab.lane_fail_ser is the binary32 nearest to 2.0e-4; its range is that of the
binary32 values nearest to 1.0e-6 and 1.0e-3. -/
def tabFabric : List Entry :=
  [ ⟨"fab.device_id", 0x5000, 1, at_ 0, .num 4, .rwl, .persistent, cst 0xFFFFFFFF, 0, 2 ^ 32, .no⟩,
    ⟨"fab.protocol_level", 0x5000, 1, at_ 1, .num 1, .ro, .volatile, cst 1, 0, 0, .no⟩,
    ⟨"fab.arith_epoch", 0x5000, 1, at_ 2, .num 1, .ro, .volatile, cst 1, 0, 0, .no⟩,
    ⟨"fab.hop_limit", 0x5000, 1, at_ 3, .num 1, .rwl, .persistent, cst 16, 1, 31, .no⟩,
    ⟨"fab.lane_fail_cw", 0x5000, 1, at_ 4, .num 2, .rw, .persistent, cst 4, 1, 1000, .no⟩,
    ⟨"fab.lane_fail_ser", 0x5000, 1, at_ 5, .f32, .rw, .persistent, cst 0x3951B717, 0x358637BD, 0x3A83126F, .no⟩,
    ⟨"fab.port_enable", 0x5010, 1, below 128, .enum 2, .rw, .persistent, cst 1, 0, 2, .no⟩,
    ⟨"fab.port_state", 0x5020, 1, below 128, .enum 7, .ro, .volatile, cst 0, 0, 0, .no⟩,
    ⟨"fab.port_width", 0x5030, 1, below 128, .num 1, .ro, .volatile, cst 0, 0, 0, .no⟩,
    ⟨"fab.port_peer", 0x5040, 1, below 128, .bits 4 0xFF01FFFF, .ro, .volatile, cst 0, 0, 0, .no⟩,
    ⟨"fab.port_link", 0x5050, 1, below 128, .bits 4 0xFFFFFFFF, .ro, .volatile, cst 0, 0, 0, .no⟩,
    ⟨"fab.lane_map", 0x5060, 1, below 128, .bits 2 0x1FFF, .ro, .volatile, cst 0x1E00, 0, 0, .no⟩,
    ⟨"fab.spares_free", 0x5070, 1, below 16, .num 1, .ro, .volatile, cst 4, 0, 0, .no⟩,
    ⟨"fab.route", 0x5100, 512, below 256, .bits 4 0xF8007F7F, .rw, .volatile, cst 0, 0, 2 ^ 32, .no⟩,
    ⟨"fab.flits_resent", 0x8A00, 1, below 128, .num 8, .ro, .volatile, cst 0, 0, 0, .no⟩,
    ⟨"fab.crc_discards", 0x8A01, 1, below 128, .num 4, .ro, .volatile, cst 0, 0, 0, .no⟩,
    ⟨"fab.fec_corrected", 0x8A02, 1, below 128, .num 8, .ro, .volatile, cst 0, 0, 0, .no⟩,
    ⟨"fab.fec_marked", 0x8A03, 1, below 128, .num 4, .ro, .volatile, cst 0, 0, 0, .no⟩,
    ⟨"fab.txn_abandoned", 0x8A04, 1, below 16, .num 4, .ro, .volatile, cst 0, 0, 0, .no⟩,
    ⟨"fab.age_discards", 0x8A05, 1, below 16, .num 4, .ro, .volatile, cst 0, 0, 0, .no⟩ ]

/-- Host ports (R335). -/
def tabHost : List Entry :=
  [ ⟨"host.mac", 0x5800, 4, at_ 0, .num 8, .rwl, .persistent, cst 0, 0, 2 ^ 48 - 1, .no⟩,
    ⟨"host.ipv4", 0x5800, 4, at_ 1, .num 4, .rw, .persistent, cst 0, 0, 2 ^ 32, .no⟩,
    ⟨"host.ipv6", 0x5800, 4, at_ 2, .blob 16, .rw, .persistent, cst 0, 0, 2 ^ 128, .no⟩,
    ⟨"host.vlan", 0x5800, 4, at_ 3, .num 2, .rw, .persistent, cst 0, 0, 4094, .no⟩,
    ⟨"host.pfc_prio", 0x5800, 4, at_ 4, .num 1, .rw, .persistent, cst 3, 0, 7, .no⟩,
    ⟨"host.cnp_interval_us", 0x5800, 4, at_ 5, .num 2, .rw, .persistent, cst 50, 1, 1000, .no⟩,
    ⟨"host.rnr_timer", 0x5800, 4, at_ 6, .num 2, .rw, .persistent, cst 655, 10, 65535, .no⟩,
    ⟨"host.link_state", 0x5800, 4, at_ 7, .enum 1, .ro, .volatile, cst 0, 0, 0, .no⟩,
    ⟨"host.qp", 0x5810, 16, below 256, .blob 64, .rw, .volatile, cst 0, 0, 2 ^ 512, .no⟩,
    ⟨"host.aperture", 0x5820, 4, below 8, .blob 16, .rw, .volatile, cst 0, 0, 2 ^ 128, .no⟩,
    ⟨"intake.ring", 0x5830, 64, below 16, .bits 8 0xC0FFFFFFFE000000, .rw, .volatile, cst 0, 0, 2 ^ 64, .byIndex⟩,
    ⟨"host.rings", 0x5900, 256, below 8, .blob 32, .rw, .volatile, cst 0, 0, 2 ^ 256, .no⟩,
    ⟨"host.rx_frames", 0x8B00, 1, below 4, .num 8, .ro, .volatile, cst 0, 0, 0, .no⟩,
    ⟨"host.pfc_xoff_sent", 0x8B01, 1, below 4, .num 4, .ro, .volatile, cst 0, 0, 0, .no⟩,
    ⟨"host.cnp_sent", 0x8B02, 1, below 4, .num 4, .ro, .volatile, cst 0, 0, 0, .no⟩,
    ⟨"intake.voided", 0x8B10, 64, below 16, .num 4, .ro, .volatile, cst 0, 0, 0, .byIndex⟩,
    ⟨"intake.sparged", 0x8B50, 64, below 16, .num 4, .ro, .volatile, cst 0, 0, 0, .byIndex⟩,
    ⟨"host.fault_drops", 0x8B90, 8, below 256, .num 4, .ro, .volatile, cst 0, 0, 0, .no⟩ ]

/-- Resilience (R378). -/
def tabResilience : List Entry :=
  [ ⟨"watch.kiln_interval_s", 0x6000, 1, at_ 0, .num 4, .rwl, .persistent, cst 300, 60, 3600, .no⟩,
    ⟨"watch.release_clean", 0x6000, 1, at_ 1, .num 1, .rwl, .persistent, cst 3, 1, 15, .no⟩,
    ⟨"watch.count", 0x6000, 1, at_ 2, .num 2, .ro, .persistent, cst 0, 0, 0, .no⟩,
    ⟨"watch.entry", 0x6010, 2, below 256, .blob 16, .ro, .persistent, cst 0, 0, 0, .no⟩,
    ⟨"core.retire_record", 0x6020, 64, at_ 0, .blob 34, .ro, .persistent, cst 0, 0, 0, .byIndex⟩,
    ⟨"core.spares_left", 0x6020, 64, at_ 1, .num 1, .ro, .volatile, cst 16, 0, 0, .byIndex⟩,
    ⟨"seal.region", 0x6100, 256, below 256, .blob 16, .rw, .volatile, cst 0, 0, 2 ^ 128, .no⟩,
    ⟨"shadow.enable", 0x6200, 256, at_ 0, .enum 1, .rw, .volatile, cst 1, 0, 1, .no⟩,
    ⟨"shadow.window_ms", 0x6200, 256, at_ 1, .num 4, .rw, .volatile, cst 1000, 1, 60000, .no⟩,
    ⟨"shadow.pending", 0x6200, 256, at_ 2, .num 2, .ro, .volatile, cst 0, 0, 0, .no⟩,
    ⟨"shadow.last_mismatch_step", 0x6200, 256, at_ 3, .num 4, .ro, .volatile, cst 0xFFFFFFFF, 0, 0, .no⟩,
    ⟨"shadow.runs", 0x8C00, 256, at_ 0, .num 4, .ro, .volatile, cst 0, 0, 0, .no⟩,
    ⟨"shadow.mismatches", 0x8C00, 256, at_ 1, .num 4, .ro, .volatile, cst 0, 0, 0, .no⟩,
    ⟨"shadow.skipped", 0x8C00, 256, at_ 2, .num 4, .ro, .volatile, cst 0, 0, 0, .no⟩,
    ⟨"seal.failures", 0x8E00, 1, at_ 0, .num 4, .ro, .volatile, cst 0, 0, 0, .no⟩,
    ⟨"seal.reread_ok", 0x8E00, 1, at_ 1, .num 4, .ro, .volatile, cst 0, 0, 0, .no⟩,
    ⟨"core.retired_in_service", 0x8E00, 1, at_ 2, .num 4, .ro, .persistent, cst 0, 0, 0, .no⟩ ]

/-- Kiln (R390). -/
def tabKiln : List Entry :=
  [ ⟨"kiln.interval_s", 0x6800, 1, at_ 0, .num 4, .rwl, .persistent, cst 3600, 600, 86400, .no⟩,
    ⟨"kiln.defer_max_s", 0x6800, 1, at_ 1, .num 4, .rwl, .persistent, cst 1800, 60, 1800, .no⟩,
    ⟨"kiln.max_per_die", 0x6800, 1, at_ 2, .num 1, .rw, .persistent, cst 1, 1, 16, .no⟩,
    ⟨"kiln.request", 0x6800, 1, at_ 3, .bits 4 0xFFFFE000, .wo, .none, cst 0, 0, 2 ^ 32, .no⟩,
    ⟨"kiln.sig_set", 0x6800, 1, at_ 4, .num 4, .ro, .volatile, cst 0, 0, 0, .no⟩,
    ⟨"kiln.core_result", 0x6810, 64, below 256, .bits 8 (2 ^ 64 - 1), .ro, .volatile, cst 0, 0, 0, .byIndex⟩,
    ⟨"kiln.spare_result", 0x6850, 64, below 16, .bits 8 (2 ^ 64 - 1), .ro, .volatile, cst 0, 0, 0, .byIndex⟩,
    ⟨"kiln.seg_result", 0x6890, 64, below 176, .bits 8 (2 ^ 64 - 1), .ro, .volatile, cst 0, 0, 0, .byIndex⟩,
    ⟨"kiln.slices", 0x8F00, 1, below 64, .num 4, .ro, .volatile, cst 0, 0, 0, .bySub⟩,
    ⟨"kiln.forced", 0x8F01, 1, below 64, .num 4, .ro, .volatile, cst 0, 0, 0, .bySub⟩,
    ⟨"kiln.failures", 0x8F02, 1, below 64, .num 4, .ro, .volatile, cst 0, 0, 0, .bySub⟩,
    ⟨"kiln.aborted", 0x8F03, 1, below 64, .num 4, .ro, .volatile, cst 0, 0, 0, .bySub⟩ ]

/-- Trust, firmware and debug (R440). Slot 0 of the principal table is read-only; the others are RWL. -/
def tabTrust : List Entry :=
  [ ⟨"fw.state", 0x7000, 1, at_ 0, .enum 6, .ro, .volatile, cst 0, 0, 0, .no⟩,
    ⟨"fw.ctl", 0x7000, 1, at_ 1, .num 1, .wo, .none, cst 0, 1, 4, .no⟩,
    ⟨"fw.active_bank", 0x7000, 1, at_ 2, .enum 1, .ro, .volatile, cst 0, 0, 0, .no⟩,
    ⟨"fw.verify_result", 0x7000, 1, at_ 3, .enum 255, .ro, .volatile, cst 0, 0, 0, .no⟩,
    ⟨"fw.version", 0x7001, 1, fun s => decide (1 ≤ s) && decide (s ≤ 3), .num 4, .ro, .volatile, cst 0, 0, 0, .no⟩,
    ⟨"fw.svn_fuse", 0x7002, 1, fun s => decide (1 ≤ s) && decide (s ≤ 3), .num 1, .ro, .persistent, cst 0, 0, 0, .no⟩,
    ⟨"fw.key_revoked", 0x7003, 1, at_ 0, .bits 1 0xF, .ro, .persistent, cst 0, 0, 0, .no⟩,
    ⟨"fw.stage", 0x7100, 48, below 256, .blob 4096, .wo, .none, cst 0, 0, 2 ^ 32768, .no⟩,
    ⟨"trust.device_cert", 0x7010, 1, at_ 0, .blob 2048, .ro, .persistent, cst 0, 0, 0, .no⟩,
    ⟨"trust.ca_cert", 0x7010, 1, at_ 1, .blob 2048, .ro, .persistent, cst 0, 0, 0, .no⟩,
    ⟨"trust.device_pubkey", 0x7010, 1, at_ 2, .blob 65, .ro, .persistent, cst (4 + Config.devicePublic % 2 ^ 512 * 256), 0, 0, .no⟩,
    ⟨"trust.attest_nonce", 0x7011, 1, at_ 0, .blob 32, .wo, .none, cst 0, 0, 2 ^ 256, .no⟩,
    ⟨"trust.attest_report", 0x7011, 1, at_ 1, .blob 512, .ro, .volatile, cst 0, 0, 0, .no⟩,
    ⟨"trust.principal", 0x7020, 1, at_ 0, .blob 80, .ro, .persistent, cst (4 + Config.ownerKey % 2 ^ 512 * 256 + 0x1F * 2 ^ 520), 0, 0, .no⟩,
    ⟨"trust.principal", 0x7020, 1, fun s => decide (0 < s) && decide (s < 16), .blob 80, .rwl, .persistent, cst 0, 0, 2 ^ 640, .no⟩,
    ⟨"dbg.enable", 0x7030, 1, at_ 0, .enum 1, .rwl, .persistent, cst 1, 0, 1, .no⟩,
    ⟨"dbg.idle_s", 0x7030, 1, at_ 1, .num 2, .rwl, .persistent, cst 600, 10, 3600, .no⟩,
    ⟨"dbg.state", 0x7030, 1, at_ 2, .bits 2 0xF8F3, .ro, .volatile, cst 0, 0, 0, .no⟩,
    ⟨"dbg.break", 0x7031, 1, below 16, .bits 8 (2 ^ 64 - 1), .ro, .volatile, cst 0, 0, 0, .no⟩,
    ⟨"dbg.halted", 0x7040, 64, below 256, .bits 1 0xF, .ro, .volatile, cst 0, 0, 0, .byIndex⟩,
    ⟨"dbg.unlocks", 0x8F10, 1, at_ 0, .num 4, .ro, .persistent, cst 0, 0, 0, .no⟩,
    ⟨"dbg.unlock_failures", 0x8F10, 1, at_ 1, .num 4, .ro, .persistent, cst 0, 0, 0, .no⟩,
    ⟨"fw.commits", 0x8F10, 1, at_ 2, .num 4, .ro, .persistent, cst 0, 0, 0, .no⟩ ]

/-- Stall counters (R121), recipes (R149), core and array (R50), seeds (R66). -/
def tabCores : List Entry :=
  [ ⟨"stall.ring_empty", 0x8200, 64, below 256, .num 8, .ro, .volatile, cst 0, 0, 0, .byIndex⟩,
    ⟨"stall.ring_full", 0x8240, 64, below 256, .num 8, .ro, .volatile, cst 0, 0, 0, .byIndex⟩,
    ⟨"stall.xlate", 0x8280, 64, below 256, .num 8, .ro, .volatile, cst 0, 0, 0, .byIndex⟩,
    ⟨"stall.remote_wait", 0x82C0, 64, below 256, .num 8, .ro, .volatile, cst 0, 0, 0, .byIndex⟩,
    ⟨"stall.refetch", 0x8300, 64, below 256, .num 8, .ro, .volatile, cst 0, 0, 0, .byIndex⟩,
    ⟨"stall.mesh_arb", 0x8340, 64, below 256, .num 8, .ro, .volatile, cst 0, 0, 0, .byIndex⟩,
    ⟨"stall.barrier", 0x8380, 64, below 256, .num 8, .ro, .volatile, cst 0, 0, 0, .byIndex⟩,
    ⟨"stall.array_drain", 0x83C0, 64, below 256, .num 8, .ro, .volatile, cst 0, 0, 0, .byIndex⟩,
    ⟨"grist.refetch_slots", 0x8400, 64, below 256, .num 4, .ro, .volatile, cst 0, 0, 0, .byIndex⟩,
    ⟨"recipe.segment_cycles", 0x9300, 1, at_ 0, .num 4, .rwl, .persistent, cst 850000, 65536, 8500000, .no⟩,
    ⟨"core.phys_pos", 0x9800, 64, below 256, .num 2, .ro, .volatile, fun _ c => 17 * (c / 16) + c % 16, 0, 0, .byIndex⟩,
    ⟨"core.array_width", 0x9840, 64, below 256, .num 1, .ro, .volatile, cst 32, 0, 0, .byIndex⟩,
    ⟨"core.array_state", 0x9880, 64, below 256, .bits 4 0x0F00001F, .ro, .volatile, cst 0, 0, 0, .byIndex⟩,
    ⟨"core.ctx_state", 0x98C0, 64, below 256, .num 2, .ro, .volatile, cst 0, 0, 0, .byIndex⟩,
    ⟨"rng.job_seed", 0x9100, 256, below 8, .num 8, .rw, .volatile, cst 0, 0, 2 ^ 64, .no⟩,
    ⟨"rng.seed_policy", 0x9200, 1, at_ 0, .enum 1, .rwl, .persistent, cst 0, 0, 1, .no⟩ ]

/-- Mashes and gates (R206). -/
def tabGates : List Entry :=
  [ ⟨"gate.expect", 0x9400, 256, at_ 0, .num 4, .rw, .volatile, cst 0, 0, 1048576, .no⟩,
    ⟨"gate.step", 0x9400, 256, at_ 1, .num 4, .rw, .volatile, cst 0, 0, 2 ^ 32, .no⟩,
    ⟨"gate.state", 0x9400, 256, at_ 2, .enum 4, .ro, .volatile, cst 0, 0, 0, .no⟩,
    ⟨"gate.passed", 0x9400, 256, at_ 3, .num 4, .ro, .volatile, cst 0, 0, 0, .no⟩,
    ⟨"gate.parent", 0x9400, 256, at_ 4, .bits 4 0x81FFFFFF, .rw, .volatile, cst 0, 0, 2 ^ 32, .no⟩,
    ⟨"gate.children", 0x9400, 256, at_ 5, .num 2, .rw, .volatile, cst 0, 0, 4096, .no⟩,
    ⟨"gate.timeout_ms", 0x9400, 256, at_ 6, .num 4, .rw, .volatile, cst 0, 0, 3600000, .no⟩,
    ⟨"gate.prev", 0x9400, 256, at_ 7, .num 8, .ro, .volatile, cst 0, 0, 0, .no⟩,
    ⟨"mash.policy", 0x9400, 256, at_ 8, .enum 1, .rw, .volatile, cst 0, 0, 1, .no⟩,
    ⟨"mash.arb_ctx", 0x9400, 256, at_ 9, .num 1, .rw, .volatile, cst 3, 0, 3, .no⟩,
    ⟨"mash.arb_base", 0x9400, 256, at_ 0xA, .num 2, .rw, .volatile, cst 768, 1, 1022, .no⟩,
    ⟨"mash.arb_prog", 0x9400, 256, at_ 0xB, .num 2, .rw, .volatile, cst 768, 0, 1023, .no⟩,
    ⟨"resteep.verdicts", 0x8500, 256, at_ 0, .num 4, .ro, .volatile, cst 0, 0, 0, .no⟩,
    ⟨"resteep.arbitrated", 0x8500, 256, at_ 1, .num 4, .ro, .volatile, cst 0, 0, 0, .no⟩,
    ⟨"resteep.forward_faults", 0x8500, 256, at_ 2, .num 4, .ro, .volatile, cst 0, 0, 0, .no⟩,
    ⟨"resteep.unresolved", 0x8500, 256, at_ 3, .num 4, .ro, .volatile, cst 0, 0, 0, .no⟩,
    ⟨"resteep.not_arbitrated", 0x8500, 256, at_ 4, .num 4, .ro, .volatile, cst 0, 0, 0, .no⟩ ]

/-- Pour table and pages (R231). -/
def tabPour : List Entry :=
  [ ⟨"pour.table_base", 0x9000, 1, at_ 0, .num 8, .rwl, .persistent, cst 0, 0, 2 ^ 64, .no⟩,
    ⟨"pour.step", 0x9500, 256, at_ 0, .num 4, .rw, .volatile, cst 0, 0, 2 ^ 32, .no⟩,
    ⟨"pour.state", 0x9500, 256, at_ 1, .enum 2, .ro, .volatile, cst 0, 0, 0, .no⟩,
    ⟨"pour.budget", 0x9500, 256, at_ 2, .num 4, .rw, .volatile, cst 4096, 1, 1048576, .no⟩,
    ⟨"pour.max_seqs", 0x9500, 256, at_ 3, .num 2, .rw, .volatile, cst 4096, 1, 4096, .no⟩,
    ⟨"pour.barrier", 0x9500, 256, at_ 4, .bits 4 0xBFFF0000, .rw, .volatile, cst 0, 0, 2 ^ 32, .no⟩,
    ⟨"pour.worklist", 0x9500, 256, at_ 5, .num 8, .rw, .volatile, cst 0, 0, 2 ^ 64, .no⟩,
    ⟨"kv.frame_bytes", 0x9500, 256, at_ 6, .num 4, .rw, .volatile, cst 131072, 16384, 131072, .no⟩,
    ⟨"kv.spill_low", 0x9500, 256, at_ 7, .num 4, .rw, .volatile, cst 64, 0, 2 ^ 32, .no⟩,
    ⟨"kv.spill_high", 0x9500, 256, at_ 8, .num 4, .rw, .volatile, cst 256, 0, 2 ^ 32, .no⟩,
    ⟨"kv.pool_base", 0x9600, 256, fun s => decide (s < 128) && (s % 16 == 0 || s % 16 == 2 || s % 16 == 4), .num 8, .rw, .volatile, cst 0, 0, 2 ^ 64, .no⟩,
    ⟨"kv.pool_frames", 0x9600, 256, fun s => decide (s < 128) && (s % 16 == 1 || s % 16 == 3 || s % 16 == 5), .num 4, .rw, .volatile, cst 0, 0, 16777215, .no⟩,
    ⟨"kv.flushes", 0x8600, 256, at_ 0, .num 4, .ro, .volatile, cst 0, 0, 0, .no⟩,
    ⟨"kv.spills", 0x8600, 256, at_ 1, .num 4, .ro, .volatile, cst 0, 0, 0, .no⟩,
    ⟨"kv.prefetches", 0x8600, 256, at_ 2, .num 4, .ro, .volatile, cst 0, 0, 0, .no⟩,
    ⟨"kv.move_failures", 0x8600, 256, at_ 3, .num 4, .ro, .volatile, cst 0, 0, 0, .no⟩,
    ⟨"pour.deferred", 0x8600, 256, at_ 4, .num 4, .ro, .volatile, cst 0, 0, 0, .no⟩ ]

/-- Lauter engines (R254). -/
def tabLauter : List Entry :=
  [ ⟨"lauter.plan", 0x9700, 256, below 256, .blob 32, .rw, .volatile, cst 0, 0, 2 ^ 256, .no⟩,
    ⟨"lauter.plan_commit", 0x9210, 1, at_ 0, .num 4, .wo, .none, cst 0, 0, 65536, .no⟩,
    ⟨"lauter.plan_entries", 0x9210, 1, at_ 1, .num 4, .ro, .volatile, cst 0, 0, 0, .no⟩,
    ⟨"lauter.generation", 0x9210, 1, at_ 2, .num 1, .rw, .volatile, cst 0, 0, 255, .no⟩,
    ⟨"lauter.timeout_ms", 0x9210, 1, at_ 3, .num 4, .rw, .volatile, cst 10000, 0, 3600000, .no⟩,
    ⟨"lauter.retry_us", 0x9210, 1, at_ 4, .num 2, .rw, .volatile, cst 20, 1, 10000, .no⟩,
    ⟨"lauter.blocks_done", 0x8700, 1, below 16, .num 8, .ro, .volatile, cst 0, 0, 0, .no⟩,
    ⟨"lauter.adds", 0x8701, 1, below 16, .num 8, .ro, .volatile, cst 0, 0, 0, .no⟩,
    ⟨"lauter.failed", 0x8702, 1, below 16, .num 4, .ro, .volatile, cst 0, 0, 0, .no⟩,
    ⟨"lauter.busy_refusals", 0x8703, 1, below 16, .num 4, .ro, .volatile, cst 0, 0, 0, .no⟩,
    ⟨"lauter.discarded", 0x8704, 1, below 16, .num 4, .ro, .volatile, cst 0, 0, 0, .no⟩,
    ⟨"lauter.open_blocks", 0x8705, 1, below 16, .num 4, .ro, .volatile, cst 0, 0, 0, .no⟩,
    ⟨"lauter.free_frames", 0x8706, 1, below 16, .num 4, .ro, .volatile, cst 16384, 0, 0, .no⟩ ]

/-- The whole dictionary. -/
def dictTable : List Entry :=
  tabIdentity ++ tabAudit ++ tabClocks ++ tabMemory ++ tabPartitions ++ tabFabric ++ tabHost ++ tabResilience
    ++ tabKiln ++ tabTrust ++ tabCores ++ tabGates ++ tabPour ++ tabLauter

/-- The entry that covers an index and sub-index (R445). -/
def findEntry (index sub : Nat) : Option Entry :=
  dictTable.find? fun e => decide (e.base ≤ index) && decide (index < e.base + e.span) && e.subs sub

/-- The default of an entry (R444); 0 where no chapter defines one. -/
def dictDefault (key : Nat) : Nat :=
  match findEntry (key / 256) (key % 256) with
  | some e => e.dflt (key / 256 - e.base) (key % 256)
  | none => 0

/-- The persistence class of a key. -/
def dictPers (key : Nat) : Pers :=
  match findEntry (key / 256) (key % 256) with
  | some e => e.pers
  | none => .none

/-- The compute die that an entry belongs to (R445). -/
def Entry.dieOf (e : Entry) (index sub : Nat) : Option Nat :=
  match e.die with
  | .no => none
  | .byIndex => some (index - e.base)
  | .bySub => some sub

/-- A value fits its entry: its length, its range, its assigned bits and codes (R442). -/
def Entry.fits (e : Entry) (value : Bytes) : Bool :=
  let v := leNat value
  decide (value.length = e.ty.len) && decide (e.lo ≤ v) && decide (v ≤ e.hi) &&
  match e.ty with
  | .bits _ mask => v &&& mask == v
  | .enum top => decide (v ≤ top)
  | .f32 => !(decide (fld v 30 23 = 255) && decide (fld v 22 0 ≠ 0))
  | _ => true

end Sys2Proof.Machine
end

