-- ==== Sys2Proof/Machine/State.lean ====
section
/-! DEFINITION. The state of the block: plain data. Every entry of the Caddy dictionary has its home in `dict`,
keyed by index and sub-index; byte memory is one list in canonical form; the rest is the state of the engines that
no dictionary entry shows. -/

namespace Sys2Proof.Machine

/-- Why the block stops for good. -/
inductive Fault where
  /-- The 48 V input is reversed below the withstand limit: the module may be damaged (R468, R470) and the spec
  gives it no further behaviour. Raised by INPUT_SAMPLE only. Safe: the run stops. -/
  | moduleDamaged
  deriving DecidableEq, Repr

/-- Why a command has no meaning. -/
inductive Refusal where
  /-- A command whose meaning is not written. Raised by no arm of `exec` that calls a meaning. Safe: the run stops. -/
  | notModelled (mnemonic : String)
  deriving DecidableEq, Repr

/-! ### Streams and rings (chapter 05) -/

/-- The registers of a stream (R103), with the index of the next instruction and the return index of each loop
level. They are what a checkpoint saves (R111, R113). The spec gives AR, IR and LC no value at the start of a stream: they
start at 0 (DESIGN CHOICE, log entry 63). -/
structure SRegs where
  pc     : Nat
  ar     : Vector (BitVec 48) 4 := Vector.replicate 4 0
  ir     : Vector (BitVec 32) 8 := Vector.replicate 8 0
  lc     : Vector (BitVec 24) 4 := Vector.replicate 4 0
  ret    : Vector Nat 4 := Vector.replicate 4 0
  cursor : Nat := 0
  slotNo : Nat := 0          -- ordinal of the current slot in the stream's slot sequence
  arr    : Nat := 0          -- arrivals passed so far in program order
  done   : Nat := 0          -- bytes or rows of the current transfer already issued
  deriving DecidableEq, Repr

/-- What a fill stream keeps for a slot (R111): its checkpoint, its generation records, whether it has more than
32 granules, and the local time of its first read. -/
structure SlotRec where
  ckpt       : SRegs
  gens       : List (Nat × Nat) := []
  unrecorded : Bool := false
  firstRead  : Option Nat := none
  deriving DecidableEq, Repr

/-- One outstanding request of a stream: it holds a stream tag (R107). A request that reads a whole sealed block keeps the
piece of it that the transfer asked for (R357). -/
structure Req where
  write   : Bool
  gaddr   : Nat          -- global address
  va      : Nat          -- virtual address
  len     : Nat
  off     : Nat          -- byte offset in the slot
  tries   : Nat := 0     -- read attempts failed by link ECC (R262)
  ready   : Bool         -- the memory has answered
  remote  : Bool := false
  txn     : Nat := 0     -- fabric transaction of a remote request
  owner   : Option Nat := none  -- MX die whose generation increment the write awaits (R264)
  data    : List (BitVec 8) := []
  status  : Status := .ok
  acc     : Bool := false        -- an accumulate: it waits until an engine accepts it (R248)
  want    : Option (Nat × Nat) := none   -- address and length of the piece of a sealed block that is asked for (R357)
  dead    : Bool := false        -- a suspension has dropped its response: it only frees its tag when it arrives (R113)
  deriving DecidableEq, Repr

/-- What a stream does. -/
inductive SPhase where
  | running
  | atEnd                                 -- a rewound role's fill stream waits at END (R157)
  | walking (va : Nat) (write : Bool)     -- a page walk is in progress (R277)
  | waitBar (die bar target : Nat)        -- WAIT MODE 1 on a barrier (R119)
  | suspended                             -- a translation fault is pending (R113)
  deriving DecidableEq, Repr

/-- A pending translation fault (R279): its record number, address and cause. -/
structure PFault where
  seq    : Nat
  va     : Nat
  detail : Nat
  resume : Option Bool := none    -- a resume request accepted while PREEMPTED (R281): true is RETRY
  deriving DecidableEq, Repr

/-- One stream of a core (R94, R95). -/
structure Stream where
  desc     : Nat                 -- the 32 B descriptor, read once at start
  ctx      : Nat
  ring     : Nat
  phase    : SPhase := .running
  regs     : SRegs
  ckpt     : SRegs               -- checkpoint of the current slot (R113)
  ckpts    : SMap SRegs := []    -- checkpoints by slot ordinal, for rewinds (R157)
  taken    : Bool := false       -- a drain stream holds a taken slot
  arrMax   : Nat := 0            -- arrivals the stream has made: none is repeated (R113)
  reqs     : List Req := []
  rec_     : Option SlotRec := none   -- the record of the slot being filled
  checked  : List Nat := []      -- sealed blocks already checked for this slot (R357)
  fault    : Option PFault := none
  passed   : Bool := false       -- the translate-only pass of the slot has succeeded (R114)
  resolved : SMap Nat := []      -- what the pass resolved: the page's global base, plus 1 on a lo-plane page, by
                                 -- 2 * virtual page, plus 1 for a write
  accSeals : SMap Nat := []      -- the seals that the pass computed for the slot's contributions, by slot offset (R238)
  accSent  : Bool := false       -- an accumulate of the taken slot has left
  fetched  : List (Nat × List (BitVec 8)) := []   -- bytes of other devices or hosts that a pass or a seal check asked for
  twice    : List Nat := []      -- sealed blocks whose seal differed at the first reading (R357)
  suppress : Bool := false       -- a shadow's OUT0 drain writes nothing (R368)
  idx      : Option (Nat × List (BitVec 8)) := none   -- the group of eight indices last read (R108)
  aborted  : Bool := false       -- it finishes its slot and ends (R116)
  resident : Bool := false       -- the resident descriptor has still to be read (R92)
  op       : Nat := 0            -- opcode of the command that started it
  ended    : Bool := false       -- a fill stream past END whose slots are not all released (R111)
  deriving DecidableEq, Repr

/-- One end of a ring. -/
inductive REnd where
  | none
  | stream (n : Nat)
  | role (r : Nat)
  deriving DecidableEq, Repr

/-- Validation of the head slot (R112). -/
inductive Head where
  | unseen
  | probing (result : Option (List Nat))
  | again                        -- an acquire completed after the probe: it is sent again
  | refetching                   -- the stream re-fetches the slot; pieces of it have still to arrive
  | delivered
  deriving DecidableEq, Repr

/-- A slot ring (R97 to R102). The slot bytes lie in the scratchpad. -/
structure Ring where
  ctx     : Nat
  units   : Nat                  -- slot size in units of 256 B
  slots   : Nat                  -- S
  baseRow : Nat
  mask    : Nat
  tail    : Nat := 0             -- C, modulo 2^16
  head    : Nat := 0             -- F, modulo 2^16
  prodPos : Nat := 0
  consPos : Nat := 0
  seals   : SMap Nat := []       -- by slot position
  stamps  : SMap Nat := []       -- order of the commit, by slot position (R174)
  recs    : SMap SlotRec := []   -- by slot position
  prod    : REnd := .none
  cons    : REnd := .none
  hd      : Head := .unseen
  fetched : List (Nat × List (BitVec 8)) := []   -- bytes of other devices or hosts that have arrived for a re-fetch (R112)
  twice   : List Nat := []       -- sealed blocks whose seal differed at the first reading of a re-fetch (R357)
  ord     : Nat := 0             -- ordinal of the slot at the consumer position (R157)
  busy    : Bool := false        -- the consumer has begun to read the head slot
  kept    : Nat := 0             -- slots from the consumer position on that a held role has read (R156)
  deriving DecidableEq, Repr

/-! ### Contexts and commands (chapters 06 to 08) -/

/-- Context states (R138). -/
inductive CtxState where
  | empty | loading | ready | running | waiting | faultHeld | preempted | done
  deriving DecidableEq, Repr

/-- The state code (R138). -/
def CtxState.code : CtxState → Nat
  | .empty => 0 | .loading => 1 | .ready => 2 | .running => 3
  | .waiting => 4 | .faultHeld => 5 | .preempted => 6 | .done => 7

/-- How the die controller classified a run of a mash recipe (R188). -/
inductive RunKind where
  | plain | forward | resteep | third | shadow
  deriving DecidableEq, Repr

/-- Where a command stands. -/
inductive CmdPhase where
  | gate        -- a gated update waits at its step gate (R176), before its rings open
  | run         -- rings and streams are up; iterations run
  | last        -- the last iteration has finished; streams drain
  | held        -- CHECK_SEAL has reported and waits for its verdict (R193)
  deriving DecidableEq, Repr

/-- The command a context executes (R131 to R136). -/
structure CmdRun where
  index   : Nat                  -- entry of the command in the region
  word    : Nat                  -- its 256 bits
  phase   : CmdPhase := .run
  counts  : List Nat := []       -- loop counts, level 0 first
  iter    : List Nat := []       -- the current iteration vector
  open_   : Bool := false        -- the current iteration has begun (its checks have passed)
  rings   : List Nat := []       -- rings it opened
  streams : List Nat := []       -- streams it started
  lease   : Nat := 0             -- banks that a FILL or COPY holds in exclusive mode (R76)
  verdict : Option Status := none    -- what a held CHECK_SEAL completes with, once decided (R193)
  inBuf   : SMap (List (BitVec 8)) := []  -- bytes read in this iteration, by role
  inSlots : SMap Nat := []       -- slots read in this iteration, by role
  outDone : SMap Nat := []       -- bytes written in this iteration, by role
  seals   : List Nat := []       -- slot seals of OUT0, in count order (R368)
  outFill : SMap Nat := []       -- result bytes that the drain has written, by slot of the iteration not yet committed (R34)
  outCount : Nat := 0            -- slots of the iteration's result that have committed (R34)
  stage   : SMap (BitVec 32) := []   -- the drain's staging buffer of MX results, by row * 2^16 + place (R161)
  pos     : Nat := 0             -- progress inside the iteration, by opcode
  aux     : List (BitVec 32) := []   -- values kept between slots, by opcode
  cycles  : Nat := 0             -- stall-free cycles of the iterations and passes done so far (R31, R163)
  failed  : Nat := 0             -- statistics of CHECK_SEAL: differing blocks
  note    : List (Nat × Nat) := []   -- (block, seal) pairs of CHECK_SEAL or SEAL
  deriving DecidableEq, Repr

/-- A load in progress (R125, R126). -/
structure LoadReq where
  srcVa  : Nat
  region : Nat
  start  : Bool
  header : Option Nat := none    -- the header, once fetched
  dieRing : Nat × Nat := (0, 0)  -- the intake ring that carries the request, for its reply
  hostTag : Nat := 0
  got    : SMap (List (BitVec 8)) := []     -- bytes fetched so far, by offset in the image
  due    : List (Nat × Nat) := []           -- pieces not yet requested: offset and length
  out    : List Nat := []                   -- offsets whose data another agent has still to deliver
  bad    : Option Status := none            -- the first failure of a piece
  deriving DecidableEq, Repr

/-- One hardware context (R47, R137 to R141). -/
structure Ctx where
  state   : CtxState := .empty
  part    : Nat := 0
  client  : Nat := 0
  base    : Nat := 0             -- REGION_BASE
  count   : Nat := 0             -- ENTRY_COUNT
  progBase : Nat := 0
  progWords : Nat := 0
  first   : Nat := 0             -- FIRST_CMD
  params  : SMap (BitVec 32) := []   -- P00 to P63; unlisted registers hold 0
  run     : Nat := 0             -- run count, modulo 2^16
  status  : Nat := 0             -- the 64-bit status word
  seed    : Nat := 0             -- latched job seed
  next    : Nat := 0             -- entry of the next command
  lastTag : Nat := 0             -- tag of the last command the run started
  lastIdx : Nat := 0
  cmd     : Option CmdRun := none
  load    : Option LoadReq := none
  preempt : Bool := false        -- a pre-emption has been requested
  layers  : List Nat := []       -- layers for which LAYER_DONE has completed in this run
  kind    : RunKind := .plain
  mashCmd : Nat := 0             -- entry of the command that identifies the run's mash
  step    : Nat := 0
  mash    : Nat := 0
  startPos : Nat := 0            -- physical position of the core at the start of the run (R366)
  halted  : Bool := false        -- debug halt (R437)
  haltReq : Bool := false
  bounded : Option Nat := none   -- a shadow executes only this entry (R368)
  noMatch : Bool := false        -- released by RESUME or STEP: the next start matches no breakpoint (R437)
  stepOne : Bool := false        -- STEP: halt again after one command (R437)
  startParams : SMap (BitVec 32) := []   -- P00 to P63 as they stood at the start of the run (R195)
  deriving DecidableEq, Repr

/-- An EMPTY context: only a recorded halt stays with it (R437). -/
def Ctx.vacate (x : Ctx) : Ctx := { haltReq := x.haltReq }

/-- A TLB entry (R277): tagged by context; the list is kept most recently used first. -/
structure TlbE where
  ctx   : Nat
  vpn   : Nat          -- virtual page base
  big   : Bool         -- 2 MiB page
  leaf  : Nat          -- the 64-bit leaf
  deriving DecidableEq, Repr

/-- The held array (R23 to R28, R40, R41): the pass in progress. -/
structure ArrayRun where
  ctx   : Nat
  mTile : Nat
  nTile : Nat
  step  : Nat := 0
  acc   : List (BitVec 32)       -- 32 rows of W accumulators, row-major
  skip  : Bool := false          -- no element of the pass is trained (R162)
  hold  : Bool := false          -- held for want of an output slot (R41)
  drained : Nat := 0             -- drain position: accumulators handed to the drain, row-major (R41)
  deriving DecidableEq, Repr

/-- One presented core. -/
structure Core where
  ctxs    : SMap Ctx := []
  streams : SMap Stream := []
  rings   : SMap Ring := []
  prog    : SMap (BitVec 32) := []    -- program memory, 1,024 words; unlisted words hold 0
  recipe  : SMap (BitVec 256) := []   -- recipe memory, 1,024 entries; unlisted entries hold 0
  issued  : Nat := 3                  -- context that issued the last command (R48); before the first one h3, so that the
                                      -- scan begins at h0 (DESIGN CHOICE, log entry 60)
  exec_   : Option Nat := none        -- context whose command the core executes
  array   : Option ArrayRun := none
  tlb     : List TlbE := []
  faultSeq : Nat := 0                 -- RECORD_SEQ of R148
  scrubRow : Nat := 0                 -- next row of the scratchpad scrubber
  carry   : SMap (List (BitVec 32)) := []   -- attention carry store by row (R210)
  maint   : Bool := false             -- maintenance mode (R82)
  retire  : Option Status := none     -- retirement in service requested (R362)
  kiln    : Bool := false             -- a kiln slice has asked for the core (R351, R377)
  commits : Nat := 0                  -- slots committed so far: the order of R174
  turn    : List (BitVec 32) := []    -- turn registers: the operand tile last turned, k-step by k-step (R38)
  deriving DecidableEq, Repr

/-- A barrier object (R117): no owner when `owner` is none. -/
structure Barrier where
  owner   : Option Nat := none
  expect  : Nat := 0
  arrived : Nat := 0
  phase   : Nat := 0
  deriving DecidableEq, Repr

/-- A saved context (R345): what a save area holds for one context of one core. -/
structure Saved where
  part    : Nat
  client  : Nat
  core    : Nat
  ctx     : Nat
  st      : Ctx
  streams : SMap Stream
  rings   : SMap Ring
  bytes   : SMap (BitVec 8)      -- contents of leased banks by scratchpad offset
  poison  : List Nat             -- poisoned word offsets
  recipe  : SMap (BitVec 256)
  prog    : SMap (BitVec 32)
  carry   : SMap (List (BitVec 32))
  kiln    : Bool                 -- saved for a kiln slice or a retirement (R351, R362)
  deriving DecidableEq, Repr

/-! ### The KD die: sessions and what leaves the block -/

/-- A Caddy session (R448 to R458). -/
structure Session where
  id      : Nat
  tuple   : Tuple
  isOpen  : Bool                 -- false while half-open
  nonces  : List (BitVec 8) := []    -- host nonce, then device nonce
  slot    : Nat := 0xFF
  roles   : Nat := 0
  notify  : Bool := false
  key     : List (BitVec 8) := []
  lastSeq : Nat := 0
  reply   : List (BitVec 8) := []    -- the cached reply
  waiting : Bool := false        -- the last request is still executing (R453)
  snap    : Option (Nat × List (BitVec 8)) := none     -- READ_BLOCK snapshot (R456)
  stage   : Option (Nat × List (BitVec 8)) := none     -- WRITE_BLOCK staging (R456)
  nNum    : Nat := 0             -- number of the last NOTIFY
  nOut    : Bool := false        -- a NOTIFY is unacknowledged
  nSends  : Nat := 0
  nMsg    : List (BitVec 8) := []    -- the NOTIFY as it was sent
  nDirty  : Bool := false        -- bits were set while one was unacknowledged
  deriving DecidableEq, Repr

/-- Why a queue pair carries a message. -/
inductive Purpose where
  | record (part client : Nat) (fault : Bool) (count : Nat)  -- a completion or fault record (R333)
  | tail (part client : Nat) (fault : Bool) (count : Nat)  -- a tail count (R333)
  | streamWrite (core stream va : Nat)              -- a stream write to an aperture (R334)
  | streamRead (core stream va : Nat)
  | dma (core ctx off : Nat)                        -- the fetch of a recipe image (R126)
  | copy (part id off : Nat)                        -- a page copy of the mover (R226, R227)
  | pour (part id : Nat)                            -- an access of a construction (R222, R224)
  | debug                                           -- a debug memory operation on a host aperture (R438)
  | other
  deriving DecidableEq, Repr

/-- A message of a queue pair that is not acknowledged (R320). -/
structure Wqe where
  read    : Bool
  va      : Nat
  rkey    : Nat
  len     : Nat
  data    : List (BitVec 8)
  psn     : Nat
  packets : Nat
  sent    : Bool := false        -- false while it waits for a place among the READs outstanding (R320)
  purpose : Purpose
  deriving DecidableEq, Repr

/-- The running state of a queue pair; its context is in the dictionary (R320). -/
structure Qp where
  txPsn   : Nat := 0
  rxPsn   : Nat := 0
  unacked : List Wqe := []
  retries : Nat := 0
  rnrs    : Nat := 0
  rate    : Nat := 400000000000  -- sending rate in bit/s (R318)
  deriving DecidableEq, Repr

/-- The completion and fault rings of one client (R331, R333). -/
structure Post where
  cqCount : Nat := 0             -- records written
  cqAcked : Nat := 0             -- records acknowledged
  cqGot   : List Nat := []       -- acknowledged records beyond the first that is not
  again   : List (Nat × Nat) := []     -- records whose queue pair failed: their count and bits
  cqTail  : Nat := 0             -- last tail count written; 2^32 when its write failed
  cqHead  : Nat := 0             -- consumed count from the host
  cqSeq   : Nat := 0             -- RECORD_SEQ of the next completion record
  fqCount : Nat := 0
  fqAcked : Nat := 0
  fqGot   : List Nat := []
  fqTail  : Nat := 0
  fqHead  : Nat := 0
  backlog : List Nat := []       -- completion records that wait, oldest first
  deriving DecidableEq, Repr

/-! ### Fabric (chapter 13) -/

/-- A Ludjafa transaction (R307, R308). -/
structure Txn where
  op      : Nat
  dest    : Nat
  src     : Nat
  txn     : Nat := 0
  srcLink : Nat := 0
  age     : Nat := 0
  hops    : Nat
  level   : Nat := 1
  owner   : Nat := 0
  addr    : Nat := 0
  len     : Nat := 0
  aux     : Nat := 0
  resv    : Nat := 0             -- reserved bits of the header, as received: [144:141], then [33:0]
  data    : List (BitVec 8) := []
  port    : Nat := 0             -- port on which it arrived
  sub     : Nat := 0             -- sub-channel (R311)
  since   : Nat := 0             -- local time from which its residence here counts (R309)
  vc      : Nat := 0             -- virtual channel on which it arrived
  bufs    : Nat := 0             -- flit buffers of that port and channel that it still holds (R300)
  deriving DecidableEq, Repr

/-- Who waits for a response. -/
inductive Asker where
  | stream (core stream va : Nat)
  | forward (mx block entry : Nat)        -- a lauter engine's forward (R249)
  | vote (part step : Nat)
  | dma (core ctx off : Nat)
  | copy (part id off : Nat)              -- a page copy of the mover (R226, R227)
  | pour (part id : Nat)                  -- an access of a construction (R222, R224)
  | epoch (core ctx : Nat)                -- REDUCE_PUSH waits for an epoch (R314)
  | nobody
  deriving DecidableEq, Repr

/-- An outstanding request of a link die (R308, R309). -/
structure Outst where
  dest  : Nat
  op    : Nat
  len   : Nat
  port  : Nat
  since : Nat                    -- local time of issue
  asker : Asker
  down  : Bool := false          -- its port has entered DETECT or DISABLED since (R312)
  deriving DecidableEq, Repr

/-- A flit in the retry buffer (R299). -/
structure Sent where
  seq     : Nat
  vc      : Nat
  first   : Bool
  last    : Bool
  payload : List (BitVec 8)
  deriving DecidableEq, Repr

/-- One fabric port (R297 to R305); its state code, width, peer and lane map are in the dictionary. -/
structure Port where
  seq     : Nat := 0             -- SEQ of the next KIND 1 flit
  flits   : Nat := 0             -- flits sent since entry into ACTIVE (R299)
  retry   : List Sent := []      -- unacknowledged flits, oldest first
  resends : Nat := 0             -- successive resends without progress
  sent    : SMap Nat := []       -- flits sent per VC since CONFIG, modulo 4,096
  crSeen  : SMap Nat := []       -- latest CR_TOTAL per VC
  rxNext  : Nat := 0             -- next expected SEQ
  rxAny   : Bool := false
  nak     : Bool := false        -- the next flit carries NAK
  gap     : Bool := false        -- a gap has been signalled since the last accepted flit
  freed   : SMap Nat := []       -- buffers freed per VC, modulo 4,096
  crVc    : Nat := 0
  partial_ : SMap (List (BitVec 8)) := []  -- transactions being received, by VC
  outq    : List (Nat × Txn) := []     -- transactions that wait to be sent, with their VC
  accTurn : Bool := false        -- alternation of REQ and ACC
  light   : Nat := 0             -- lanes that receive light
  locked  : Nat := 0             -- lanes on which the receiver is locked
  peerMask : Option (Nat × Bool) := none   -- GOOD_MASK and SPARE_HELD of the peer's latest MAP
  spare   : Bool := false        -- a spare slice is reserved for the port
  paused  : Bool := false        -- the 100 ms pause of MAP at width 0
  repair  : Bool := false        -- the training in progress is a REPAIR
  active  : Nat := 0             -- active lanes
  cfgSent : Bool := false
  cfgGot  : Option Nat := none   -- the peer's first CONFIG frame
  cfgTime : Nat := 0
  doneSent : Bool := false
  doneGot : Bool := false
  oldPeer : Nat := 0             -- port_peer recorded before REPAIR
  deriving DecidableEq, Repr

/-- One link die. -/
structure LinkDie where
  outst   : SMap Outst := []     -- by TXN
  inq     : List Txn := []       -- transactions received for this device, oldest first
  deriving DecidableEq, Repr

/-! ### Lauter engines (chapter 10) -/

/-- Who sent a payload to an engine, and who is told of its outcome. -/
inductive Sender where
  | stream (core stream va : Nat)
  | remote (lx : Nat) (t : Txn)
  | engine                       -- a forward that arrives from this device (loop-back)
  deriving DecidableEq, Repr

/-- A contribution or forwarded partial on its way to an engine (R238). -/
structure Contrib where
  dest    : Nat                  -- destination global address
  payload : List (BitVec 8)
  header  : Nat                  -- the 64-bit contribution header
  part    : Option Nat           -- partition of the sending context, for a local contribution
  sender  : Sender
  deriving DecidableEq, Repr

/-- An open block of an engine (R248). -/
structure Block where
  entry   : Nat                  -- index of the active plan entry
  since   : Nat                  -- local time at which it opened
  frames  : Nat
  locals  : SMap (Nat × List (BitVec 8)) := []   -- by source die: KIND and payload
  forwards : SMap (Nat × List (BitVec 8)) := []  -- by RANK
  leftLocal : Bool := false
  fwdSent : Bool := false        -- its forward to the parent waits for an acknowledgement
  deriving DecidableEq, Repr

/-- One lauter engine. -/
structure Mx where
  queue   : List Contrib := []   -- arrivals that wait to be checked, oldest first
  retry   : List Contrib := []   -- arrivals refused with ST_BUSY, to be sent again (R248)
  blocks  : SMap Block := []     -- by destination block: global address / 4,096
  failed  : List Nat := []       -- FAILED blocks of the current generation
  admits  : List (Nat × Nat) := []     -- admitted dies: plan entry and die (R245)
  left    : List Nat := []       -- blocks that have left the local stage in their entry's current round (R245)
  ended   : List Nat := []       -- blocks that have ended their round in their entry's current round (R249)
  incr    : List (Nat × Nat × Nat × Nat) := []  -- generation increments that wait: granule, core, stream, va
  deriving DecidableEq, Repr

/-! ### Intake rings (R322 to R328) -/

/-- A readable word of an intake ring: 64 bytes and its tag, [7] LAST, [6] ABORT, [3:0] VALID_Q (R325). -/
structure IntakeWord where
  data : List (BitVec 8)
  tag  : Nat
  deriving DecidableEq, Repr

/-- One intake ring. -/
structure Intake where
  fifo    : List IntakeWord := []      -- readable words, oldest first
  cur     : List (BitVec 8) := []      -- bytes received that do not fill a word yet
  got     : Nat := 0                   -- bytes received since the last commit
  curVoid : Bool := false              -- the packet being received is void until its commit
  skip    : Bool := false              -- the packet being received has been sparged: its words are dropped (R328)
  busy    : Bool := false              -- the reader executes a LOAD that is in progress
  deriving DecidableEq, Repr

/-! ### Mashes and gates (chapter 08) -/

/-- A report of a CHECK_SEAL (R193): its context, the unit it ran on, and the blocks that differ. -/
structure Report where
  core  : Nat
  ctx   : Nat
  client : Nat := 0
  pos   : Nat                          -- physical position of the core during the run
  diffs : List (Nat × Nat) := []       -- block index and recomputed seal, at most 4,096
  overflow : Bool := false
  deriving DecidableEq, Repr

/-- A key that holds a place in the verdict collector (R194). -/
structure MashKey where
  step    : Nat
  mash    : Nat
  count   : Nat                        -- C
  reports : List Report := []          -- of the re-steep run, in order of arrival
  arb     : List (Nat × Nat) := []     -- target core of each report, with the report's place in `reports`
  third   : List (Nat × Report) := []  -- of the third run, by the place of the re-steep report
  stage   : Nat := 0                   -- 0 collecting, 1 arbitration due, 2 third run, 3 verdict formed
  status  : Status := .ok              -- what its CHECK_SEAL commands complete with
  deriving DecidableEq, Repr

/-- The record of R191: the core that sealed blocks 0 to `blocks` − 1 of one context of a key, and its physical position. -/
structure Forward where
  step   : Nat
  mash   : Nat
  core   : Nat
  ctx    : Nat
  pos    : Nat
  blocks : Nat
  deriving DecidableEq, Repr

/-- The step gate and the verdict collector of a partition; the entries of R206 are in the dictionary. -/
structure Gate where
  ready     : List (Nat × Nat) := []   -- READY votes for the current step: device and partition
  bankPass  : Nat := 0                 -- passes banked for the next step (R201)
  bankReady : List (Nat × Nat) := []
  bankOpen  : Bool := false
  bankFail  : Bool := false
  opened    : Bool := false            -- an OPEN vote of the current step has come (R200 item 5)
  keys      : List MashKey := []
  forwards  : List Forward := []
  bars      : List (Nat × Nat × List (Nat × Nat × Nat)) := []  -- by key: object, ARRIVED, PHASE (R196)
  outbox    : List (Nat × Nat × Nat × Nat) := []  -- votes that wait for a transaction number: device, partition, step, kind
  deriving DecidableEq, Repr

/-! ### Pages and the pour table (chapter 09) -/

/-- A flushed page and its frame, as its page-table entry names them (R215). -/
structure Page where
  entry  : Nat                   -- pour-table entry
  page   : Nat
  lg     : Nat                   -- layer-group
  client : Nat
  tier   : Nat
  frame  : Nat
  serial : Nat
  moving : Bool := false
  deriving DecidableEq, Repr

/-- What a copy does. -/
inductive CopyKind where
  | flush | spill | prefetch
  deriving DecidableEq, Repr

/-- A copy of a page in progress: a flush from its staging frame, or a move between pools (R226, R227). -/
structure Copy where
  id     : Nat
  kind   : CopyKind
  entry  : Nat
  page   : Nat
  lg     : Nat
  client : Nat
  src    : Nat                   -- source virtual address
  seals  : Option Nat            -- virtual address of the seals to check, for a move
  tier   : Nat                   -- destination pool and frame
  frame  : Nat
  got    : SMap (List (BitVec 8)) := []   -- bytes read, by offset; seals follow the data
  due    : List (Nat × Nat) := []         -- pieces not yet requested
  out    : List Nat := []                 -- pieces that another agent has still to answer
  stage  : Nat := 0              -- 0 reading, 1 writing, 2 every write is acknowledged
  bad    : Option Status := none
  deriving DecidableEq, Repr

/-- The walk of a construction (R224): what it has still to do. -/
structure Walk where
  todo   : List Nat                          -- granted entries not yet walked whole, in selection order
  blocks : Option (List (Nat × Nat)) := none -- layer-groups and blocks of the first that are still due, once it has begun
  recs   : List (Nat × Nat) := []            -- work-list records formed, with their entries
  deriving DecidableEq, Repr

/-- The pour engine of a partition. -/
structure Pour where
  pages   : List Page := []
  copies  : List Copy := []
  owed    : List (Nat × Nat × Nat) := []  -- flushes that failed, to be tried again: entry, page, layer-group
  serials : SMap Nat := []                -- flush counter by client
  walk    : Option Walk := none           -- the walk of the construction in progress
  due     : List (Nat × Nat × List (BitVec 8)) := []   -- writes that have still to leave: client, address, bytes
  sent    : List Nat := []                -- accesses that another agent has still to answer
  asked   : Option Nat := none            -- the one among them that reads a page-table entry
  got     : Option (List (BitVec 8)) := none   -- the page-table entry it has brought
  bad     : Option Status := none         -- the first failure among them
  nextId  : Nat := 0
  deriving DecidableEq, Repr

/-! ### Partitions (chapter 15) -/

/-- A slice switch in progress (R348, R349). -/
structure Switch where
  dest  : Nat                    -- the incoming client
  since : Nat                    -- T, in local time
  overruns : List (Nat × Nat)       -- contexts that were executing a commit-class command at T and have not completed it
  wasOver : Bool                 -- the switch is an overrun
  tag   : Nat := 0               -- tag of the last such command to complete
  deriving DecidableEq, Repr

/-- The scheduler of a partition (R347, R348) and its dissolve (R342). -/
structure Part where
  charge  : SMap Nat := []       -- pending charge by client, in nanoseconds
  switch  : Option Switch := none
  closing : Bool := false        -- a dissolve is in progress
  freed   : Option (List Nat) := none    -- the segments that step 4 of a dissolve has freed
  deriving DecidableEq, Repr

/-! ### Power, clocks and start-up (chapters 18 and 21) -/

/-- A request that the governor has queued (R406): the wake of a core group, or a raise of the operating point by one
point. -/
structure GovReq where
  die   : Nat
  group : Option Nat             -- none for a raise by one point
  since : Nat                    -- local time of arrival
  deriving DecidableEq, Repr

/-- A transition of a die's operating point (R401). -/
structure OpMove where
  src     : Nat
  dst     : Nat
  owed    : Nat := 0             -- one-point raises that the governor has not yet granted
  locked  : Bool := false        -- the standby PLL is stable at the new frequency
  settled : Bool := false        -- the core voltage has settled at the new point
  deriving DecidableEq, Repr

/-- The thermal ceiling of a die and what it is timed by (R404), in 1 ms samples. -/
structure Therm where
  ceiling : Nat := 3
  hot     : Nat := 0             -- samples at 100 °C or above since the last fall
  cool    : Nat := 0             -- samples at or below 95 °C in a row
  crit    : Nat := 0             -- samples at 105 °C or above in a row
  deriving DecidableEq, Repr

/-- Power, clocks and start-up; dies are numbered as units of R460. -/
structure Power where
  standby   : Bool := true       -- 12 V standby is present
  stbyEn    : Bool := true       -- STBY_EN is high
  modResetN : Bool := true       -- MOD_RESET_N is high
  volts     : List Int := []     -- samples of the 48 V input since the last whole average, in mV
  amps      : List Int := []     -- samples of its current, in mA
  inRange   : Bool := false      -- the input is in range (R416)
  goodMs    : Nat := 0           -- averages in a row at or above 46.0 V (R469)
  over400   : Nat := 0           -- samples in a row above 400 A (R470)
  ramped    : List Nat := []     -- dies that have reached regulation in P3
  fenced    : List Nat := []     -- dies fenced until module reset (R384, R411)
  relock    : List Nat := []     -- dies whose PLL is not stable (R394)
  suspect   : List Nat := []     -- dies whose first PLL or monitor check failed (R384)
  port      : Option Nat := none -- the candidate that the PLLs relock to (R397 step 3)
  counting  : Option Nat := none -- the candidate being counted for clk.ref_ctl (R398)
  tried     : List Nat := []     -- candidates rejected in this holdover
  started   : Bool := false      -- the local time counter has started (R395)
  moves     : SMap OpMove := []  -- transitions in progress, by die
  therm     : SMap Therm := []   -- by die
  spent     : Nat := 0           -- mA granted in the governor's window (R406)
  beatAt    : Nat := 0           -- local time of the last heartbeat that the standby die received (R409)
  phaseAt   : Nat := 0           -- local time at which the phase began
  trained   : Bool := false      -- P4: the channels are trained and the map is built
  tested    : SMap Nat := []     -- P5: results so far, by test item: 0 passed, 1 failed
  deriving DecidableEq, Repr

/-! ### Firmware and debug (chapter 19) -/

/-- The boot of one KD die in P2 (R424). -/
structure KdBoot where
  tried : List Nat := []         -- banks that have failed
  done  : Bool := false
  deriving DecidableEq, Repr

/-- The firmware store and what runs from it (R424 to R426). -/
structure Firmware where
  preferred : Nat := 0           -- the boot record: preferred bank
  trial     : Bool := false      -- the boot record: trial flag
  banks     : SMap (BitVec 8) := []   -- by bank * 2^26 + offset; bytes never written hold factory values
  entry     : Nat := 0           -- the bank that was preferred on entry to P2
  onTrial   : Bool := false      -- the trial flag stood on entry to P2
  kds       : SMap KdBoot := []  -- by KD die
  measures  : List (BitVec 256) := []  -- SM3 of bytes 0 to 255 of the running KD, DC and LX images
  svns      : List Nat := []     -- SVN of the running images
  body      : BitVec 256 := 0    -- digest of the body of the running KD image
  forming   : Option (BitVec 256) := none   -- nonce of the attestation report being formed
  deriving DecidableEq, Repr

/-- What a debug request waits for before its response is formed (R434, R437). -/
inductive DbgWait where
  | halt (core ctx : Nat)
  | step (core ctx : Nat)
  | write (index sub : Nat)      -- a dictionary write whose reply follows later
  | mem (write : Bool) (a data : Nat)   -- a memory operation that waits for its access or for a host (R438)
  deriving DecidableEq, Repr

/-- Debug reads that merge into one audit record (R439). -/
structure Merge where
  op    : Nat
  first : Nat                    -- ARG of the first
  next  : Nat                    -- ARG that continues the run
  count : Nat
  status : Status
  deriving DecidableEq, Repr

/-- The debug port (R433 to R439). -/
structure Debug where
  ir      : Nat := 1             -- TAP instruction: Test-Logic-Reset selects IDCODE
  nonce   : List (BitVec 8) := []
  sig     : SMap (BitVec 64) := []    -- RESPOND words received, by word
  blocked : Nat := 0             -- local time until which CHALLENGE returns ST_BUSY
  busy    : Option (Nat × DbgWait) := none   -- the outstanding request: SEQ, and what it waits for
  resp    : BitVec 128 := 0      -- the response that Capture-DR loads
  stage   : SMap (BitVec 64) := []    -- DICT_STAGE chunks
  merge   : Option Merge := none
  deriving DecidableEq, Repr

/-! ### Writes whose reply follows later, shadows, kiln, host ports -/

/-- What a write waits for. -/
inductive WaitOn where
  | invalidate (part client : Nat)    -- R278, R293
  | window (w : Nat)                  -- R287
  | dissolve (part : Nat)             -- R342
  | reference                         -- R398
  deriving DecidableEq, Repr

/-- Who gets the reply. -/
inductive Replier where
  | nobody
  | session (id seq : Nat) (done : List (BitVec 8)) (rest : List (BitVec 8))  -- WRITE: items answered, items to come
  | block (id seq : Nat)         -- WRITE_BLOCK with LAST
  | tap (seq : Nat)
  | fabric (t : Txn)
  deriving DecidableEq, Repr

/-- A write that has been accepted and waits for its effect to be complete. -/
structure Waiting where
  what    : WaitOn
  origin  : Origin
  index   : Nat
  sub     : Nat
  old     : Nat
  value   : List (BitVec 8)
  replier : Replier
  left    : List (Nat × Nat × Nat × Nat) := []   -- requests an invalidation waits for: core, stream, address, offset
  deriving DecidableEq, Repr

/-- A shadow check of a gated update (R367 to R370). -/
structure Shadow where
  client  : Nat
  core    : Nat                  -- the primary
  ctx     : Nat
  pos     : Nat                  -- physical position of the primary at the start of its run
  entry   : Nat                  -- its command
  tag     : Nat
  step    : Nat
  digest  : Nat
  run     : Nat
  seed    : Nat
  params  : SMap (BitVec 32)
  recipe  : SMap (BitVec 256)    -- the image and the grist words, by place in the region
  prog    : SMap (BitVec 32)
  base    : Nat
  progBase : Nat
  count   : Nat
  progWords : Nat
  tie     : Bool := false        -- the tie run is due or runs
  target  : Nat := 0             -- core of the shadow or tie run, once it has started
  since   : Nat                  -- local time from which its start limit runs
  running : Bool := false
  place   : Nat := 0             -- physical position of the target at the start of its run
  result  : Option (Option Nat) := none   -- its run has ended: the digest, none when it did not complete with ST_OK
  own     : Option Nat := none   -- digest of the shadow run, once the tie run is due
  otherAt : Nat × Nat := (0, 0)  -- core and position of the shadow run
  deriving DecidableEq, Repr

/-- What array BIST marks on one physical position (R32, R33, R38): bit x of a mask is physical column or row x, set when
it failed; and its two transpose buffers. -/
structure ArrayMap where
  badCols   : BitVec 34 := 0
  badRows   : BitVec 33 := 0
  wXposeOk  : Bool := true
  nXposeOk  : Bool := true
  deriving DecidableEq, Repr

/-- A core slice or a segment test in progress, and what is due (R380 to R386). -/
structure Kiln where
  due     : List (Nat × Nat × Nat) := []   -- die, unit kind (0 core position, 1 segment), unit
  forced  : List (Nat × Nat) := []         -- die and position whose test is forced
  slices  : List (Nat × Nat) := []         -- die and position isolated for a slice
  late    : List (Nat × Nat × Status) := []  -- fault events on a core during its slice, applied after step 7 (R387)
  badSlices : List (Nat × Nat) := []       -- optical slices marked failed: link die and slice (R384)
  badLanes : List Nat := []                -- host ports with a failed lane (R384)
  maps     : SMap ArrayMap := []           -- by die * 512 + position: the marks of the last array BIST (R32, R33, R36)
  spans    : List (Nat × Nat) := []        -- die and segment whose test waits for a holding segment (R383)
  deriving DecidableEq, Repr

/-- What a RoCE packet of a host port carries below its transport header (R316): link and network addresses, an IPv4 one in
IPv4-mapped form, the 802.1Q tag (0 for none), DSCP, ECN and the peer's queue pair. -/
structure RoceHdr where
  dstMac  : Nat
  srcMac  : Nat
  vlan    : Nat
  srcGid  : Nat
  dstGid  : Nat
  dscp    : Nat
  ecn     : Nat
  destQpn : Nat
  deriving DecidableEq, Repr

/-- A RoCE message (R316). -/
inductive RoceMsg where
  | write (psn va rkey : Nat) (data : List (BitVec 8))
  | read (psn va rkey len : Nat)
  | ack (psn : Nat)
  | nak (psn syndrome : Nat)
  | data (psn : Nat) (bytes : List (BitVec 8))   -- the response to an RDMA READ
  | rnrNak (delayUs : Nat)
  | cnp
  deriving DecidableEq, Repr

/-- What leaves the block. -/
inductive Output where
  | caddy (t : Tuple) (msg : List (BitVec 8))
  | roce (port qp : Nat) (hdr : RoceHdr) (m : RoceMsg)
  | frame (port : Nat) (data : List (BitVec 8))
  | packet (port : Nat) (data : List (BitVec 8))   -- a network packet, to the link address that its request came from
  | pfc (port prio quanta : Nat)
  | fabric (port lane : Nat) (flit : Nat)   -- on the wavelength that carries it
  | tap (bits : List Bool)
  deriving DecidableEq, Repr

/-- A request that waits in a host port's receive buffer. -/
inductive RxMsg where
  | write (va rkey : Nat) (data : Bytes)
  | read (va rkey len : Nat)
  | send (data : Bytes)
  deriving DecidableEq, Repr

/-- A host port beyond its dictionary entries (R317, R318). -/
structure HPort where
  inq    : List (Nat × RxMsg) := []  -- the receive buffer: requests that wait, by queue pair, oldest first (R317, R263)
  paused : Bool := false         -- the peer pauses the priority
  xoff   : Bool := false         -- the port has paused its peer: XOFF has gone out, XON has not
  held   : List Output := []     -- what waits for the pause to end, oldest first
  cnpAt  : SMap Nat := []        -- local time of the last CNP sent, by queue pair
  deriving DecidableEq, Repr

/-- A run has ended: the engines that follow runs (verdict collector, shadow checks) learn of it within the step. -/
inductive Event where
  | runEnded (core ctx : Nat) (x : Ctx) (st : Status)
  | vote (src part step kind : Nat)    -- a gate vote between partitions of this device
  | gateFailed (part : Nat)            -- a gate has become FAILED for want of a delivered vote: it tells its neighbours (R200)
  | retire (core : Nat)                -- a core is to be retired in service (R362)
  | resume (core : Nat)                -- leases on a core have been released: a saved context may resume (R79)
  | reread (core : Nat)                -- streams of a core have still to read their resident descriptor (R92)
  | answer (w : WaitOn) (st : Status)  -- a write that has waited is complete
  | sched (part : Nat)                 -- the runnable work of a client of a partition may have changed (R347)
  deriving DecidableEq, Repr

/-- The state of the block. -/
structure State where
  dict     : SMap Nat := []            -- dictionary entries by key; unlisted entries hold their default
  mem      : SMap (BitVec 8) := []     -- local byte memory; unlisted bytes read 0
  poison   : List Nat := []            -- poisoned words, by address (R74, R261), ascending
  flaws    : SMap Nat := []            -- by word: the bits of its stored code word that are flipped, data then check bits (R73, R260)
  linkErrs : SMap (Nat × Nat) := []    -- the model's own: link errors that wait for the next read of a channel, by
                                       -- package * 8 + channel: failed reads and corrections (R262, log entry 68)
  gens     : SMap Nat := []            -- write generation counters by granule address / 64 KiB (R87)
  cores    : SMap Core := []           -- by device core number
  barriers : SMap Barrier := []        -- by die * 256 + object
  saved    : List Saved := []
  sessions : List Session := []
  sessIds  : List Nat := []            -- session identifiers given since module reset (R451)
  openFails : SMap (List Nat × Nat) := []  -- by principal slot: times of the failed OPENs in a row, and the time until which OPEN is refused (R452)
  qps      : SMap Qp := []             -- by port * 1024 + queue pair
  posts    : SMap Post := []           -- by partition * 8 + client
  ports    : SMap Port := []           -- by global port number
  lxs      : SMap LinkDie := []
  mxs      : SMap Mx := []
  intakes  : SMap Intake := []         -- by die * 16 + ring
  gates    : SMap Gate := []           -- by partition
  pours    : SMap Pour := []           -- by partition
  pourOff  : Bool := false             -- the pour table was disabled at P4 (R217, R476)
  latched  : SMap Nat := []            -- host halves latched at ACTIVATE, by pour-table entry (R219)
  parts    : SMap Part := []           -- by partition
  filling  : List Nat := []            -- freed tun segments whose zero-fill is not complete: die * 256 + segment (R340)
  govQueue : List GovReq := []         -- the governor's queue, in order (R406)
  power    : Power := {}
  fw       : Firmware := {}
  dbg      : Debug := {}
  waits    : List Waiting := []        -- writes whose reply follows later
  winShut  : SMap Nat := []            -- local time at which a window's last close completed (R288)
  winClose : SMap (Nat × Nat) := []    -- closes in progress: local time of the close, and the free value of its close points
  shadows  : SMap (List Shadow) := []  -- by partition
  faultWords : List Nat := []          -- uncorrectable tun words that named a segment of the watch list or under test (R365)
  kiln     : Kiln := {}
  hports   : SMap HPort := []          -- by host port
  tunRows  : SMap Nat := []            -- next row of the scrubber, by tun bank: die * 16 + bank (R75)
  lpWords  : SMap Nat := []            -- next word of the scrubber, by channel: package * 8 + channel (R261)
  maintOut : Option (Status × List (BitVec 8)) := none   -- answer to the last maintenance read (R82)
  holds    : List Nat := []            -- devices in the 1,000 µs re-route hold (R312)
  epochs   : List (Nat × Nat) := []    -- epoch cache, most recently used first: device and epoch (R314)
  plan     : List Nat := []            -- the active reduction plan (R235, R236)
  events   : List Event := []          -- the model's own: run ends that other engines have still to learn of
  walkQ    : List (Nat × Nat) := []    -- streams that wait for a page walk, in order of arrival: core and stream (R277)
  chEvents : SMap (List Nat) := []     -- times of uncorrectable events by package * 8 + channel (R266)
  out      : List Output := []         -- what has left the block, oldest first
  free     : Nat := 0                  -- the model's own: next free value (R451)
  time     : Nat := 0                  -- REF cycles counted by the local time counter (R395)
  pending  : List Instr := []          -- commands that wait, first in first out
  deriving DecidableEq, Repr

/-- The module right after reset (R410, R414, R417): phase P0, every entry at its default, nothing in memory, every
context EMPTY, 12 V standby present and both reset pins high, no host port signalling. -/
def State.reset : State := {}

end Sys2Proof.Machine
end

