-- ==== Sys2Proof/Machine/Ops.lean ====
section
/-! DEFINITION. The named operations over the state: dictionary entries, the local time counter, audit records and
sticky bits, the core accessors, the local address map, byte memory with ECC and generations, and the watch list. -/

namespace Sys2Proof.Machine

/-- The outcome type of every meaning. -/
abbrev Out := Host.Outcome State Fault Refusal

/-! ### Dictionary entries -/

/-- The value an entry holds; its default where nothing has written it (R444). -/
def State.reg (s : State) (index sub : Nat) : Nat := (SMap.find? (rk index sub) s.dict).getD (dictDefault (rk index sub))

/-- Set the value of an entry. A value equal to the default is not listed, so equal dictionaries are equal data. -/
def State.setReg (s : State) (index sub v : Nat) : State :=
  { s with dict := SMap.putD (dictDefault (rk index sub)) (rk index sub) v s.dict }

/-- Advance a counter entry of w bits by k, saturating (R93, R293, R378). -/
def State.bump (s : State) (w index sub k : Nat) : State := s.setReg index sub (satAdd w (s.reg index sub) k)

/-- Advance a counter entry of w bits by k, modulo 2^w (R121). -/
def State.bumpWrap (s : State) (w index sub k : Nat) : State :=
  s.setReg index sub ((s.reg index sub + k) % 2 ^ w)

/-- The local time counter in nanoseconds: the whole part of 6.4 ns per REF cycle (R395). -/
def State.localNs (s : State) : Nat := (s.time * Config.refPicosPerCycle / 1000) % 2 ^ 64

/-- The next value of the KD random source (R451). -/
def State.draw (s : State) : BitVec 256 × State := (Config.randomSource s.free, { s with free := s.free + 1 })

/-- Append to what has left the block. -/
def State.emit (s : State) (o : Output) : State := { s with out := s.out ++ [o] }

/-- The device runs in P7 (R410, R443). -/
def State.inP7 (s : State) : Bool := fld (s.reg 0x2030 0) 2 0 == 7

/-- The device quiesces (R415). -/
def State.quiescing (s : State) : Bool := s.reg 0x2000 1 == 3

/-! ### Dies, cores, contexts -/

/-- Compute die d is fused off (R5). -/
def State.fused (s : State) (d : Nat) : Bool := bit (s.reg 0x1000 6) d

/-- A die is fenced until module reset (R384, R411). -/
def State.fencedDie (s : State) (u : Nat) : Bool := s.power.fenced.contains u

/-- Physical position of a presented core; 0xFFFF when none (R50). -/
def State.physPos (s : State) (n : Nat) : Nat :=
  if s.fused (n / 256) || s.fencedDie (n / 256) then 0xFFFF else s.reg (0x9800 + n / 256) (n % 256)

/-- The presented core maps to a physical position (R22). -/
def State.presented (s : State) (n : Nat) : Bool := s.physPos n != 0xFFFF

/-- Presented array width (R32, R50). -/
def State.width (s : State) (n : Nat) : Nat := s.reg (0x9840 + n / 256) (n % 256)

/-- The state of core n. -/
def State.core (s : State) (n : Nat) : Core := SMap.get {} s.cores n

/-- Write the state of core n. A core in its initial state is not listed. -/
def State.setCore (s : State) (n : Nat) (c : Core) : State := { s with cores := SMap.putD {} n c s.cores }

/-- Change the state of core n. -/
def State.modCore (s : State) (n : Nat) (f : Core → Core) : State := s.setCore n (f (s.core n))

/-- Context h of a core. -/
def Core.ctx (c : Core) (h : Nat) : Ctx := SMap.get {} c.ctxs h

/-- Write context h. -/
def Core.setCtx (c : Core) (h : Nat) (x : Ctx) : Core := { c with ctxs := SMap.putD {} h x c.ctxs }

/-- Context h of core n. -/
def State.ctx (s : State) (n h : Nat) : Ctx := (s.core n).ctx h

/-- Write context h of core n. -/
def State.setCtx (s : State) (n h : Nat) (x : Ctx) : State := s.modCore n fun c => c.setCtx h x

/-- Change context h of core n. -/
def State.modCtx (s : State) (n h : Nat) (f : Ctx → Ctx) : State := s.setCtx n h (f (s.ctx n h))

/-- Context h of core n becomes EMPTY: the TLB entries tagged with it leave with it (R274, R277). -/
def State.vacateCtx (s : State) (n h : Nat) : State :=
  s.modCore n fun c => { c with tlb := c.tlb.filter fun e => e.ctx != h }.setCtx h (c.ctx h).vacate

/-- Stream k of core n, when it exists. -/
def State.stream (s : State) (n k : Nat) : Option Stream := SMap.find? k (s.core n).streams

/-- Write stream k of core n. -/
def State.setStream (s : State) (n k : Nat) (x : Stream) : State :=
  s.modCore n fun c => { c with streams := SMap.put k x c.streams }

/-- Ring r of core n, when it is open. -/
def State.ring (s : State) (n r : Nat) : Option Ring := SMap.find? r (s.core n).rings

/-- Write ring r of core n. -/
def State.setRing (s : State) (n r : Nat) (x : Ring) : State :=
  s.modCore n fun c => { c with rings := SMap.put r x c.rings }

/-- Parameter register P of a context (R137). -/
def Ctx.param (x : Ctx) (p : Nat) : Nat := (SMap.get 0#32 x.params p).toNat

/-- Write a parameter register (R137). -/
def Ctx.setParam (x : Ctx) (p v : Nat) : Ctx := { x with params := SMap.putD 0#32 p (BitVec.ofNat 32 v) x.params }

/-- Entry e of a context's region (R122). -/
def State.entry (s : State) (n : Nat) (x : Ctx) (e : Nat) : Nat :=
  (SMap.get 0#256 (s.core n).recipe (x.base + e)).toNat

/-- Barrier object b of die d. -/
def State.barrier (s : State) (d b : Nat) : Barrier := SMap.get {} s.barriers (d * 256 + b)

/-- Write a barrier object. -/
def State.setBarrier (s : State) (d b : Nat) (x : Barrier) : State :=
  { s with barriers := SMap.putD {} (d * 256 + b) x s.barriers }

/-- One arrival at a barrier object (R118). -/
def Barrier.arrive (b : Barrier) : Barrier :=
  if b.arrived + 1 = b.expect then { b with arrived := 0, phase := (b.phase + 1) % 65536 }
  else { b with arrived := b.arrived + 1 }

/-- One arrival at object b of die d (R118). -/
def State.arriveAt (s : State) (d b : Nat) : State := s.setBarrier d b (s.barrier d b).arrive

/-- The condition of WAIT MODE 1 (R119). -/
def Barrier.reached (b : Barrier) (target : Nat) : Bool := decide ((b.phase + 65536 - target % 65536) % 65536 < 32768)

/-! ### Partitions (chapter 15) -/

/-- Partition p is BUILT (R353). -/
def State.built (s : State) (p : Nat) : Bool := s.reg (0x4000 + p) 0 == 1

/-- The units of a partition, ascending: position k is the partition's unit k (R337). -/
def State.units (s : State) (p : Nat) : List Nat := bitList (s.reg (0x4000 + p) 1) 256

/-- The unit of a core (R336). -/
def unitOfCore (n : Nat) : Nat := 4 * (n / 256) + (n % 256) / 64

/-- The BUILT partition that holds a unit, when there is one (R337). -/
def State.partOfUnit (s : State) (u : Nat) : Option Nat :=
  (List.range 256).find? fun p => s.built p && bit (s.reg (0x4000 + p) 1) u

/-- Core n lies in BUILT partition p. -/
def State.coreIn (s : State) (p n : Nat) : Bool := s.built p && bit (s.reg (0x4000 + p) 1) (unitOfCore n)

/-- Number of cores of a partition (R337). -/
def State.partCores (s : State) (p : Nat) : Nat := 64 * (s.units p).length

/-- Partition core index of a core (R337). -/
def State.partIndex (s : State) (p n : Nat) : Nat :=
  64 * ((s.units p).filter fun u => decide (u < unitOfCore n)).length + n % 64

/-- The device core number of a partition core index (R337). -/
def State.coreAt (s : State) (p i : Nat) : Nat :=
  let u := ((s.units p)[i / 64]?).getD 0
  64 * u + i % 64

/-- The cores of a partition. -/
def State.coresOf (s : State) (p : Nat) : List Nat := (s.units p).flatMap fun u => (List.range 64).map fun i => 64 * u + i

/-! ### The local address map (R271) -/

/-- Where a local address lies. -/
inductive Place where
  | lpddr
  | tun (d off : Nat)
  | sp (core off : Nat)
  | lauter
  | arrival (d b off : Nat)
  | doorbell (off : Nat)
  | aperture (port off : Nat)
  | nowhere
  deriving DecidableEq, Repr

/-- The row of the local map that covers an address (R271). -/
def place (a : Nat) : Place :=
  if a < 0x10000000000 then .lpddr
  else if a < 0x11000000000 then .tun ((a - 0x10000000000) / 0x40000000) (a % 0x40000000)
  else if a < 0x11200000000 then .sp ((a - 0x11000000000) / 0x80000) (a % 0x80000)
  else if a < 0x12000000000 then .nowhere
  else if a < 0x12040000000 then .lauter
  else if a < 0x13000000000 then .nowhere
  else if a < 0x13001000000 then
    if (a - 0x13000000000) / 0x10000 < 64 then
      .arrival ((a - 0x13000000000) / 0x10000) (a / 0x100 % 256) (a % 0x100)
    else .nowhere
  else if a < 0x13100000000 then .doorbell (a - 0x13001000000)
  else if a < 0x13800000000 then .nowhere
  else if a < 0x14000000000 then .aperture ((a - 0x13800000000) / 0x200000000) (a % 0x200000000)
  else .nowhere

/-- The base address of a scratchpad aperture (R70). -/
def spBase (n : Nat) : Nat := 0x11000000000 + n * 0x80000
/-- The base address of a tun aperture (R83). -/
def tunBase (d : Nat) : Nat := 0x10000000000 + d * 0x40000000
/-- The populated length of a scratchpad: 384 KiB (R70). -/
def spLen : Nat := 0x60000
/-- The populated length of a tun: 704 MiB (R83). -/
def tunLen : Nat := 0x2C000000

/-- Data bytes of one LPDDR5X channel (R258). -/
def chBytes : Nat := 0x1E0000000

/-- Where a channel keeps the check bits of the data word at a channel address (R260). -/
def checkAddr (ca : Nat) : Nat := chBytes + ca / 32 * 2

/-- The last 32 MiB of a channel's check area: the poison map and the write generation counters (R260). -/
def checkTail : Nat := chBytes + 0x20000000 - 0x2000000

/-- What the code makes of a code word with the flipped bits `v` (R73, R74, R260): 0 it is whole, 1 it is corrected (one bit),
2 it is uncorrectable (two bits, one 16-bit lane of a beat, and every wider pattern: DEDUCED, log entry 8). -/
def errClass (v : Nat) : Nat := if v = 0 then 0 else if 2 ^ Nat.log2 v = v then 1 else 2

/-- The channels of package p that the map of P4 holds: not retired, or retired in service only (R266, R267). -/
def State.goodChannels (s : State) (p : Nat) : List Nat :=
  (List.range 8).filter fun c => !(bit (s.reg 0x3010 p) c && !bit (s.reg 0x3020 p) c)

/-- The packages of layer j, ascending (R258). -/
def State.layer (s : State) (j : Nat) : List Nat :=
  (List.range 16).filter fun p => decide (j < (s.goodChannels p).length)

/-- Package, channel and channel address of a usable LPDDR5X address, from layer j on (R258). -/
def State.lpDecodeFrom (s : State) : Nat → Nat → Nat → Nat × Nat × Nat
  | 0, _, _ => (0, 0, 0)
  | fuel + 1, j, a =>
    let l := s.layer j
    if l.length * chBytes ≤ a then
      if l.length = 0 then (0, 0, 0) else s.lpDecodeFrom fuel (j + 1) (a - l.length * chBytes)
    else
      let b := a / 4096
      let pkg := (l[b % l.length]?).getD 0
      let inn := j * chBytes + (b / l.length) * 4096 + a % 4096
      let good := s.goodChannels pkg
      let k := inn / 256
      (pkg, (good[k % good.length]?).getD 0, (k / good.length) * 256 + a % 256)

/-- The decode of R258. -/
def State.lpDecode (s : State) (a : Nat) : Nat × Nat × Nat := s.lpDecodeFrom 8 0 a

/-- The usable capacity of the map (R258). -/
def State.lpUsable (s : State) : Nat := ((List.range 8).map fun j => (s.layer j).length * chBytes).sum

/-- A request touches a fenced channel (R267). -/
def State.lpFenced (s : State) (a len : Nat) : Bool :=
  (List.range ((a % 256 + len + 255) / 256)).any fun i =>
    let d := s.lpDecode (a / 256 * 256 + 256 * i)
    bit (s.reg 0x3020 d.1) d.2.1

/-- The word size of ECC and poison: 32 B in LPDDR5X, 8 B in SRAM (R73, R260). -/
def wordSize (a : Nat) : Nat := match place a with | .lpddr => 32 | _ => 8

/-- The structural outcome of an access to local addresses [a, a + len): none when every byte exists and is in
service (R70, R83, R86, R259, R267, R271, R381). The range must lie in one row of the map. -/
def State.popStatus (s : State) (a len : Nat) : Option Status :=
  match place a with
  | .lpddr =>
    if 0xF000000000 < a + len then some .accessDenied
    else if s.reg 0x3000 0 < a + len then some .unitRetired
    else if s.lpFenced a len then some .unitRetired
    else none
  | .tun d off =>
    if s.fused d then some .engineAbsent
    else if s.fencedDie d then some .unitRetired
    else if tunLen < off + len then some .accessDenied
    else if (List.range ((off % 0x400000 + len + 0x3FFFFF) / 0x400000)).any fun i =>
        s.reg (0x3180 + d) (off / 0x400000 + i) == 2 then some .unitRetired
    else none
  | .sp n off =>
    if s.fused (n / 256) then some .engineAbsent
    else if !s.presented n then some .unitRetired
    else if spLen < off + len then some .accessDenied
    else none
  | .lauter => if 0x12040000000 < a + len then some .accessDenied else none
  | .arrival d _ off =>
    if s.fused d then some .engineAbsent else if off ≠ 0 then some .accessDenied else none
  | .doorbell _ => none
  | .aperture _ _ => none
  | .nowhere => some .accessDenied

/-- Granule and current generation of every tun or LPDDR5X granule that a range touches (R87, R89). -/
def State.gensOf (s : State) (a len : Nat) : List (Nat × Nat) :=
  match place a with
  | .lpddr | .tun .. =>
    (List.range ((a % 65536 + len + 65535) / 65536)).map fun i =>
      (a / 65536 + i, SMap.get 0 s.gens (a / 65536 + i))
  | _ => []

/-- Advance the generation of one granule, modulo 2^32 (R88). -/
def State.bumpGen (s : State) (g : Nat) : State :=
  { s with gens := SMap.putD 0 g ((SMap.get 0 s.gens g + 1) % 2 ^ 32) s.gens }

/-- Advance every granule that a write request touches (R88). -/
def State.bumpGens (s : State) (a len : Nat) : State := ((s.gensOf a len).map (·.1)).foldl State.bumpGen s

/-! ### Byte memory -/

/-- The byte stored at a local address; a byte nothing has written reads 0 (R257, R389). -/
def State.byte (s : State) (a : Nat) : BitVec 8 := SMap.get 0#8 s.mem a

/-- The stored bytes of a range. -/
def State.bytes (s : State) (a len : Nat) : Bytes := (List.range len).map fun i => s.byte (a + i)

/-- Store bytes from an address on, in byte memory. -/
def putBytes : Nat → Bytes → SMap (BitVec 8) → SMap (BitVec 8)
  | _, [], m => m
  | a, b :: t, m => putBytes (a + 1) t (SMap.putD 0#8 a b m)

/-- The canonical form of byte memory: addresses strictly rising, no entry equal to the unlisted value. -/
def Memory.wf : SMap (BitVec 8) → Bool
  | [] => true
  | [(_, v)] => v != 0#8
  | (a, v) :: (b, w) :: t => decide (a < b) && (v != 0#8) && Memory.wf ((b, w) :: t)

/-- The ECC words that a range touches, by address. -/
def wordsOf (a len : Nat) : List Nat :=
  let w := wordSize a
  if len = 0 then [] else (List.range ((a + len - 1) / w - a / w + 1)).map fun i => (a / w + i) * w

/-- A word is poisoned. -/
def State.poisoned (s : State) (w : Nat) : Bool := s.poison.contains w

/-- Insert into an ascending list without repeats. -/
def insertAsc (x : Nat) : List Nat → List Nat
  | [] => [x]
  | y :: t => if x < y then x :: y :: t else if x = y then y :: t else y :: insertAsc x t

/-- The counters of corrected and of uncorrectable words of the memory that holds a word (R93, R269). -/
def State.eccCounters (s : State) (w : Nat) : (Nat × Nat) × (Nat × Nat) :=
  match place w with
  | .tun d off => ((0x8180 + d, off / 4096 % 16), (0x81C0 + d, off / 4096 % 16))
  | .sp n _ => ((0x8100 + n / 256, n % 256), (0x8140 + n / 256, n % 256))
  | _ => let d := s.lpDecode w; ((0x8800 + d.1, d.2.1), (0x8810 + d.1, d.2.1))

/-- Store the bytes of a write request: whole words lose their poison, and every granule touched advances before the
acknowledgement (R88), unless `gen` leaves that to a GENERATION_INCREMENT (R264). -/
def State.store (s : State) (a : Nat) (bs : Bytes) (gen : Bool) : State :=
  let whole := (wordsOf a bs.length).filter fun w =>
    decide (a ≤ w) && decide (w + wordSize a ≤ a + bs.length)
  let s := { s with
    mem := putBytes a bs s.mem
    poison := s.poison.filter fun w => !whole.contains w
    flaws := SMap.delIf (fun w => whole.contains w) s.flaws }
  if gen then s.bumpGens a bs.length else s

/-! ### Who may write where -/

/-- The kind of a writer, for the cask, the mirror and the pour table (R217, R268, R462). -/
inductive Writer where
  | stream (checkpoint : Bool)
  | engine
  | host
  | debug
  | kd
  | pour        -- the pour engine, the one writer of device halves (R217)
  deriving DecidableEq, Repr

/-- Two ranges overlap. -/
def overlap (a la b lb : Nat) : Bool := decide (a < b + lb) && decide (b < a + la)

/-- The cask in force covers part of a range (R268). -/
def State.inCask (s : State) (a len : Nat) : Bool :=
  s.reg 0x3040 2 == 1 && overlap a len (s.reg 0x3040 0) (s.reg 0x3040 1)

/-- The audit mirror in force covers part of a range (R462). -/
def State.inMirror (s : State) (a len : Nat) : Bool :=
  s.reg 0x1100 3 == 1 && overlap a len (s.reg 0x1100 2) (64 * Config.auditSlots)

/-- The pour table in force has a device half in part of a range (R217): bytes 32 to 63 of an entry. -/
def State.inDevHalves (s : State) (a len : Nat) : Bool :=
  let b := s.reg 0x9000 0
  let lo := max a b
  let hi := min (a + len) (b + 262144)
  b != 0 && !s.pourOff && decide (lo < hi) && decide (32 < (lo - b) % 64 + (hi - lo))

/-- A write is forbidden by the cask, the mirror or the pour table, whose device halves the device alone writes (R217, R268,
R462; log entry 68). -/
def State.guarded (s : State) (w : Writer) (a len : Nat) : Bool :=
  (match w with
    | .stream true | .host | .debug => false
    | _ => s.inCask a len) ||
  (match w with
    | .kd => false
    | _ => s.inMirror a len) ||
  (match w with
    | .pour => false
    | _ => s.inDevHalves a len)

/-- The audit mirror receives the record of a slot while it is enabled: 64 bytes in whole words, unless they lie in the cask
or memory refuses them (R267, R268, R462). -/
def State.mirror (s : State) (slot w : Nat) : State :=
  let a := s.reg 0x1100 2 + 64 * slot
  if s.reg 0x1100 3 = 1 ∧ s.popStatus a 64 = none ∧ s.inCask a 64 = false then s.store a (natLe 64 w) true else s

/-! ### Origins, audit records and sticky bits -/

/-- An internal unit as origin (R460): 0 to 63 compute dies, 64 to 79 MX, 80 to 95 LX, 96 and 97 KD. -/
def unitOrigin (u : Nat) : Origin := ⟨0, 0xFF, BitVec.ofNat 8 u, 0, 0⟩

/-- The active KD die as origin. -/
def State.kdOrigin (s : State) : Origin := unitOrigin (96 + s.reg 0x2040 0)

/-- The fields of an audit record that its cause decides (R460). -/
structure AuditRec where
  kind   : Nat := 1
  origin : Origin
  status : Status := .ok
  tag    : Nat := 0
  index  : Nat := 0
  sub    : Nat := 0
  trunc  : Bool := false
  count  : Nat := 1
  detail : Nat := 0
  old    : Nat := 0
  new    : Nat := 0
  deriving DecidableEq, Repr

/-- The 512 bits of an audit record (R460). -/
def AuditRec.word (r : AuditRec) (time seq : Nat) : Nat :=
  (time % 2 ^ 64) <<< 448 + (seq % 2 ^ 32) <<< 416 + (r.kind % 16) <<< 412 + r.origin.kind.val <<< 408
    + r.status.code <<< 400 + r.origin.principal.toNat <<< 392 + r.origin.originId.toNat <<< 384
    + (r.tag % 2 ^ 16) <<< 368 + (r.index % 2 ^ 16) <<< 352 + (r.sub % 256) <<< 344 + b2n r.trunc <<< 343
    + (r.count % 2 ^ 16) <<< 320 + (r.detail % 2 ^ 64) <<< 256 + (r.old % 2 ^ 128) <<< 128 + r.new % 2 ^ 128

/-- The DETAIL of a KIND 1 record (R461): partition, client, device core number, subject. -/
def detail1 (part client core subject : Nat) : Nat :=
  (part % 256) <<< 56 + (client % 256) <<< 48 + (core % 65536) <<< 32 + subject % 2 ^ 32

/-- No partition, client or core. -/
def noDetail : Nat := detail1 0xFF 0xFF 0xFFFF 0

/-- The header of a Caddy message (R449), in network byte order. -/
def caddyHeader (ty : Nat) (response : Bool) (status session seq len : Nat) : Bytes :=
  natBe 2 0xCADD ++ natBe 1 1 ++ natBe 1 ty ++ natBe 1 (b2n response <<< 7) ++ natBe 1 status ++ natBe 4 session
    ++ natBe 4 seq ++ natBe 2 len

/-- A message with its MAC under a session key (R448). -/
def caddyMacd (key hdr payload : Bytes) : Bytes := hdr ++ payload ++ hmacSm3 key (hdr ++ payload)

/-- The NOTIFY of a session, as the sticky bits stand (R458). -/
def State.notifyMsg (s : State) (x : Session) : Bytes :=
  let payload := natLe 32 (s.reg 0x1100 0x10) ++ natLe 4 ((s.reg 0x1100 0 + 2 ^ 32 - 1) % 2 ^ 32) ++ natLe 4 0
  caddyMacd x.key (caddyHeader 0x20 false 0 x.id x.nNum payload.length) payload

/-- What host port p lets out: nothing while its link is down (R319). -/
def State.portOut (s : State) (p : Nat) (o : List Output) : List Output := if s.reg (0x5800 + p) 7 = 1 then o else []

/-- Send a Caddy message to a session's tuple (R319, R448). -/
def State.sendCaddy (s : State) (t : Tuple) (m : Bytes) : State := { s with out := s.out ++ s.portOut t.port.val [.caddy t m] }

/-- Send or hold back the NOTIFY of one session when a sticky bit has changed to 1 (R458). -/
def State.notifyOne (s : State) (x : Session) : Session × List Output :=
  if !(x.isOpen && x.notify) then (x, [])
  else if x.nOut then ({ x with nDirty := true }, [])
  else
    let x' := { x with nNum := x.nNum + 1, nOut := true, nSends := 1, nDirty := false }
    let m := s.notifyMsg x'
    ({ x' with nMsg := m }, s.portOut x'.tuple.port.val [.caddy x'.tuple m])

/-- Every session with NOTIFY learns of a bit that changed to 1. -/
def State.notifyAll (s : State) : State :=
  let rs := s.sessions.map s.notifyOne
  { s with sessions := rs.map (·.1), out := s.out ++ rs.flatMap (·.2) }

/-- Set the sticky bit of a status reported by the record numbered seq (R373, R464). -/
def State.setSticky (s : State) (st : Status) (seq : Nat) : State :=
  if !st.sticky then s
  else if bit (s.reg 0x1100 0x10) st.code then s
  else
    let s := s.setReg 0x1100 0x10 (s.reg 0x1100 0x10 + 2 ^ st.code)
    let s := s.setReg 0x1110 st.code seq
    s.notifyAll

/-- Write one audit record (R460, R462) and set the sticky bit of its status (R373). The mirror receives the
record while it is enabled. -/
def State.record (s : State) (r : AuditRec) : State :=
  let seq := s.reg 0x1100 0
  let w := r.word s.localNs seq
  let slot := seq % Config.auditSlots
  let s := s.setReg (0x1200 + slot / 256) (slot % 256) w
  ((s.setReg 0x1100 0 ((seq + 1) % 2 ^ 32)).mirror slot w).setSticky r.status seq

/-- A condition that a chapter says is audited (KIND 1, R461). -/
def State.condition (s : State) (st : Status) (origin : Origin) (detail : Nat := noDetail) (tag : Nat := 0) : State :=
  s.record { kind := 1, origin := origin, status := st, detail := detail, tag := tag }

/-- The conditions that a check point detects beside the one it reports: each sets its sticky bit, with a KIND 1 record of its
own (R16, R373). -/
def State.beside (s : State) (l : List Status) (origin : Origin) (detail : Nat := noDetail) : State :=
  (l.eraseDups.filter fun st => st != lowest l && st.sticky).foldl (fun s st => s.condition st origin detail) s

/-- An entry holds more than the 16 B of `OLD` and `NEW` (R460). -/
def longEntry (index sub : Nat) : Bool :=
  match findEntry index sub with
  | some e => decide (16 < e.ty.len)
  | none => false

/-- The device's own change of a RW, RWL or persistent entry: the value and its KIND 0 record (R461), with the tag of the
command that caused it, if one did (R130). -/
def State.ownChange (s : State) (origin : Origin) (index sub v : Nat) (tag : Nat := 0) : State :=
  let old := s.reg index sub
  if old = v then s
  else (s.setReg index sub v).record { kind := 0, origin := origin, index := index, sub := sub, old := old, new := v,
                                       trunc := longEntry index sub, tag := tag }

/-- A change of a persistent entry by the active KD die. -/
def State.kdChange (s : State) (index sub v : Nat) (tag : Nat := 0) : State := s.ownChange s.kdOrigin index sub v tag

/-! ### The watch list (R364 to R366) -/

/-- Watch entry i, 128 bits. -/
def State.watch (s : State) (i : Nat) : Nat := s.reg (0x6010 + i / 256) (i % 256)

/-- The index of the entry that holds a unit (R366). -/
def State.watchFind (s : State) (kind d pos : Nat) : Option Nat :=
  (List.range 512).find? fun i =>
    let w := s.watch i
    bit w 37 && fld w 39 38 == kind && fld w 36 31 == d && fld w 30 22 == pos

/-- Remove a unit from the list. -/
def State.watchDrop (s : State) (i : Nat) (tag : Nat := 0) : State :=
  (s.kdChange (0x6010 + i / 256) (i % 256) 0 tag).kdChange 0x6000 2 (s.reg 0x6000 2 - 1) tag

/-- A unit that is retired leaves the list (R365). -/
def State.watchForget (s : State) (kind d pos : Nat) (tag : Nat := 0) : State :=
  match s.watchFind kind d pos with
  | some i => s.watchDrop i tag
  | none => s

/-- The physical position x of die d is retired (R366). -/
def State.posRetired (s : State) (d x : Nat) : Bool := bit (s.reg (0x6020 + d) 0) x

/-- The presented core that occupies a physical position. -/
def State.coreAtPos (s : State) (d x : Nat) : Option Nat :=
  ((List.range 256).find? fun c => s.physPos (d * 256 + c) == x).map (d * 256 + ·)

/-- A second fault: a core is to be retired in service (R362); a segment is isolated for memory BIST (R365). -/
def State.secondFault (s : State) (kind d pos : Nat) (cause : Status) (tag : Nat := 0) : State :=
  let s := s.watchForget kind d pos tag
  if kind = 0 then
    match s.coreAtPos d pos with
    | some n => { (s.modCore n fun c => { c with retire := some cause }) with events := s.events ++ [.retire n] }
    | none => s
  else s.setReg (0x3180 + d) pos 1

/-- A fault event names a unit (R364, R365, R366): a core by its physical position, or a tun segment. On a core in a
kiln slice it is applied once the slice has its result (R387). Its records carry the tag of the command that met the fault
(R130). -/
def State.watchEvent (s : State) (kind d pos : Nat) (cause : Status) (tag : Nat := 0) : State :=
  if kind = 0 ∧ s.kiln.slices.contains (d, pos) then
    { s with kiln := { s.kiln with late := s.kiln.late ++ [(d, pos, cause)] } }
  else
  let retiring := kind == 0 &&
    (s.posRetired d pos || match s.coreAtPos d pos with
      | some n => (s.core n).retire.isSome
      | none => true)
  let gone := kind == 1 && (s.reg (0x3180 + d) pos == 2)
  if retiring || gone then s.condition cause (unitOrigin d) (detail1 0xFF 0xFF 0xFFFF pos) tag
  else match s.watchFind kind d pos with
    | some _ => s.secondFault kind d pos cause tag
    | none =>
      match (List.range 512).find? fun i => !bit (s.watch i) 37 with
      | none => s.secondFault kind d pos cause tag
      | some i =>
        let w := s.localNs <<< 64 + cause.code <<< 40 + kind <<< 38 + 1 <<< 37 + d <<< 31 + pos <<< 22
        (s.kdChange (0x6010 + i / 256) (i % 256) w tag).kdChange 0x6000 2 (s.reg 0x6000 2 + 1) tag

/-- The fault event of an uncorrectable word (R364): the core of a scratchpad, the segment of a tun word. The word of a tun
event is kept: a second fault replaces its row (R365). -/
def State.eccEvent (s : State) (w : Nat) (tag : Nat := 0) : State :=
  match place w with
  | .tun d off =>
    ({ s with faultWords := insertAsc w s.faultWords } : State).watchEvent 1 d (off / 0x400000) .eccUncorrectable tag
  | .sp n _ => s.watchEvent 0 (n / 256) (s.physPos n) .eccUncorrectable tag
  | _ => s

/-- The error of a stored word. -/
def State.flawOf (s : State) (w : Nat) : Nat := errClass (SMap.get 0 s.flaws w)

/-- Poison a word (R74, R261). -/
def State.setPoison (s : State) (w : Nat) : State :=
  { s with poison := insertAsc w s.poison, flaws := SMap.del w s.flaws }

/-- Retire a channel in service: its record, its fence, the audit record and the sticky bit (R266, R267). -/
def State.retireChannel (s : State) (p c : Nat) (fence : Bool) (tag : Nat := 0) : State :=
  let s := s.kdChange 0x3010 p (setFld (s.reg 0x3010 p) c c 1) tag
  let s := if fence then s.setReg 0x3020 p (setFld (s.reg 0x3020 p) c c 1) else s
  s.condition .unitRetired (unitOrigin (64 + p)) (detail1 0xFF 0xFF 0xFFFF (p * 8 + c)) tag

/-- An uncorrectable event of a channel; the threshold within 3,600 s retires it (R266). -/
def State.channelEvent (s : State) (p c : Nat) (tag : Nat := 0) : State :=
  let now := s.localNs
  let es := now :: ((SMap.get [] s.chEvents (p * 8 + c)).filter fun t => decide (now - t < 3600000000000))
  let s := { s with chEvents := SMap.put (p * 8 + c) es s.chEvents }
  if s.reg 0x3000 1 ≤ es.length && !bit (s.reg 0x3010 p) c then s.retireChannel p c true tag else s

/-- An uncorrectable word is found (R74, R75): counted, poisoned, and its unit named to the watch list or its
channel charged. The operation that read it, or the scrubber, reports it; `tag` is its command's, where it has one. -/
def State.foundBad (s : State) (w : Nat) (tag : Nat := 0) : State :=
  let k := (s.eccCounters w).2
  let s := s.bump 32 k.1 k.2 1
  let s := s.setPoison w
  match place w with
  | .lpddr => let d := s.lpDecode w; s.channelEvent d.1 d.2.1 tag
  | _ => s.eccEvent w tag

/-- Read one ECC word: a correctable word is corrected, written back and counted; an uncorrectable or poisoned one
is not delivered (R74, R261). The Bool says whether it is delivered. -/
def State.readWord (s : State) (w : Nat) (tag : Nat := 0) : State × Bool :=
  if s.poisoned w then (s, false)
  else match s.flawOf w with
    | 0 => (s, true)
    | 1 =>
      let k := (s.eccCounters w).1
      ({ (s.bump 32 k.1 k.2 1) with flaws := SMap.del w s.flaws }, true)
    | _ => (s.foundBad w tag, false)

/-- Read the ECC words of a list, stopping at the first that is not delivered. -/
def State.readWords (s : State) (tag : Nat := 0) : List Nat → State × Bool
  | [] => (s, true)
  | w :: t =>
    let r := s.readWord w tag
    if r.2 then r.1.readWords tag t else r

/-- What link ECC made of a read on a channel (R262, R269): corrections, reissues at most twice, and after a third failure an
uncorrectable event of the channel. The Bool says whether the data came. -/
def State.linkOutcome (s : State) (p c fails corrected : Nat) (tag : Nat := 0) : State × Bool :=
  let s := (s.bump 32 (0x8820 + p) c corrected).bump 32 (0x8830 + p) c (min fails 2)
  if 3 ≤ fails then (s.channelEvent p c tag, false) else (s, true)

/-- The channels of a range of LPDDR5X, as package * 8 + channel. -/
def State.lpChannels (s : State) (a len : Nat) : List Nat :=
  ((List.range ((a % 256 + len + 255) / 256)).map fun i =>
    let d := s.lpDecode (a / 256 * 256 + 256 * i); d.1 * 8 + d.2.1).eraseDups

/-- The link of a read of LPDDR5X: the link errors that wait for its channels strike it (R262). -/
def State.linkRead (s : State) (a len : Nat) (tag : Nat := 0) : State × Bool :=
  if s.linkErrs.isEmpty || place a != .lpddr then (s, true)
  else (s.lpChannels a len).foldl (fun (r : State × Bool) k =>
    match SMap.find? k r.1.linkErrs with
    | none => r
    | some e =>
      let o := ({ r.1 with linkErrs := SMap.del k r.1.linkErrs } : State).linkOutcome (k / 8) (k % 8) e.1 e.2 tag
      (o.1, r.2 && o.2)) (s, true)

/-- Read the array over a populated range: its bytes, or ST_ECC_UNCORRECTABLE (R74, R261). -/
def State.readArray (s : State) (a len : Nat) (tag : Nat := 0) : State × Status × Bytes :=
  let r := s.readWords tag (wordsOf a len)
  if r.2 then (r.1, .ok, r.1.bytes a len) else (r.1, .eccUncorrectable, [])

/-- Read a populated range, over the link where it is LPDDR5X: a read whose link fails three times completes with
ST_ECC_UNCORRECTABLE and poisons nothing (R74, R262). -/
def State.readMem (s : State) (a len : Nat) (tag : Nat := 0) : State × Status × Bytes :=
  match s.linkRead a len tag with
  | (s, true) => s.readArray a len tag
  | (s, false) => (s, .eccUncorrectable, [])

/-- The bytes of a range as a read would deliver them, without its side effects: none where memory refuses it or a word is
not delivered. -/
def State.peek (s : State) (a len : Nat) : Option Bytes :=
  if (s.popStatus a len).isSome || (wordsOf a len).any fun w => s.poisoned w || s.flawOf w == 2 then none
  else some (s.bytes a len)

/-- The words that a write request covers only in part: the rest of each is read and merged (R73, R74, R261). -/
def partWords (a len : Nat) : List Nat :=
  (wordsOf a len).filter fun w => decide (w < a) || decide (a + len < w + wordSize a)

/-- Write a populated range whole, or not at all: not at all when a word to be merged is not delivered (R73, R74,
R261, R291). -/
def State.writeMem (s : State) (a : Nat) (bs : Bytes) (gen : Bool := true) (tag : Nat := 0) : State × Status :=
  let ws := partWords a bs.length
  let l := if ws.isEmpty then (s, true) else s.linkRead a bs.length tag
  if l.2 then
    let r := l.1.readWords tag ws
    if r.2 then (r.1.store a bs gen, .ok) else (r.1, .eccUncorrectable)
  else (l.1, .eccUncorrectable)

/-- Write local memory as a given writer: structure, guards, poison (R259, R268, R271, R462). -/
def State.writeLocal (s : State) (w : Writer) (a : Nat) (bs : Bytes) (gen : Bool := true) (tag : Nat := 0) :
    State × Status :=
  match s.popStatus a bs.length with
  | some st => (s, st)
  | none => if s.guarded w a bs.length then (s, .accessDenied) else s.writeMem a bs gen tag

/-- Read local memory: structure, then ECC. -/
def State.readLocal (s : State) (a len : Nat) (tag : Nat := 0) : State × Status × Bytes :=
  match s.popStatus a len with
  | some st => (s, st, [])
  | none => s.readMem a len tag

end Sys2Proof.Machine
end

