-- ==== Sys2Proof/Machine/HostOut.lean ====
section
/-! DEFINITION. What the block sends to the hosts: queue-pair messages, completion records (R332) and fault records
(R148), the two rings of each client and their tails (R333). -/

namespace Sys2Proof.Machine

/-- The context of a queue pair (R320). -/
def State.qpCtx (s : State) (port q : Nat) : Nat := s.reg (0x5810 + 4 * port + q / 256) (q % 256)

/-- The running state of a queue pair. -/
def State.qp (s : State) (port q : Nat) : Qp := SMap.get {} s.qps (port * 1024 + q)

/-- Write the running state of a queue pair. -/
def State.setQp (s : State) (port q : Nat) (x : Qp) : State := { s with qps := SMap.putD {} (port * 1024 + q) x s.qps }

/-- STATE of a queue pair: 0 RESET, 1 READY, 2 ERROR (R320). -/
def State.qpState (s : State) (port q : Nat) : Nat := fld (s.qpCtx port q) 228 226

/-- Set STATE. -/
def State.setQpState (s : State) (port q st : Nat) : State :=
  s.setReg (0x5810 + 4 * port + q / 256) (q % 256) (setFld (s.qpCtx port q) 228 226 st)

/-- The path MTU in bytes (R320). -/
def State.qpMtu (s : State) (port q : Nat) : Nat := 128 * 2 ^ fld (s.qpCtx port q) 257 255

/-- Packets of a message: at least one (R316). -/
def State.packets (s : State) (port q len : Nat) : Nat := max 1 (ceilDiv len (s.qpMtu port q))

/-- Host port p is up (R319). -/
def State.linkUp (s : State) (p : Nat) : Bool := s.reg (0x5800 + p) 7 == 1

/-- Port p of the host ports. -/
def State.hport (s : State) (p : Nat) : HPort := SMap.get {} s.hports p
/-- Write it. -/
def State.setHport (s : State) (p : Nat) (x : HPort) : State := { s with hports := SMap.putD {} p x s.hports }

/-- The addresses, tag and marks of a RoCE packet of queue pair q (R316, R320, R335): ECT(0), and the queue pair's DSCP. -/
def State.roceHdr (s : State) (p q : Nat) : RoceHdr :=
  let w := s.qpCtx p q
  let gid := fld w 511 384
  let v4 := gid / 2 ^ 32 == 0xFFFF
  { dstMac := fld w 383 336, srcMac := s.reg (0x5800 + p) 0 % 2 ^ 48, vlan := s.reg (0x5800 + p) 3,
    srcGid := if v4 then 0xFFFF * 2 ^ 32 + s.reg (0x5800 + p) 1 else leNat (natLe 16 (s.reg (0x5800 + p) 2)).reverse,
    dstGid := gid, dscp := fld w 263 258, ecn := 2, destQpn := fld w 335 312 }

/-- Send on the RoCE priority of a host port: nothing leaves while the link is down, and what is sent while the peer
pauses the priority waits (R317, R319). -/
def State.sendRoce (s : State) (p q : Nat) (m : RoceMsg) : State :=
  let o := Output.roce p q (s.roceHdr p q) m
  if !s.linkUp p then s
  else if (s.hport p).paused then s.setHport p { s.hport p with held := (s.hport p).held ++ [o] }
  else s.emit o

/-- What a message puts on the link. -/
def Wqe.msg (w : Wqe) : RoceMsg :=
  if w.read then .read w.psn w.va w.rkey w.len else .write w.psn w.va w.rkey w.data

/-- RDMA READs that a queue pair may have outstanding in each direction (R320). -/
def State.maxReads (s : State) (port q : Nat) : Nat := fld (s.qpCtx port q) 243 240 + 1

/-- Split what a queue pair has to send at the first READ beyond the limit: what goes out now, and the list after it.
`k` READs are outstanding. -/
def sendNow (limit : Nat) : Nat → List Wqe → List Wqe × List Wqe
  | _, [] => ([], [])
  | k, w :: t =>
    if w.sent then let r := sendNow limit (if w.read then k + 1 else k) t; (r.1, w :: r.2)
    else if w.read && decide (limit ≤ k) then ([], w :: t)
    else let r := sendNow limit (if w.read then k + 1 else k) t; (w :: r.1, { w with sent := true } :: r.2)

/-- Send the messages of a queue pair that may go now, in order (R320). -/
def State.qpPump (s : State) (port q : Nat) : State :=
  let x := s.qp port q
  let r := sendNow (s.maxReads port q) 0 x.unacked
  r.1.foldl (fun (s : State) w => s.sendRoce port q w.msg) (s.setQp port q { x with unacked := r.2 })

/-- Send one message on a queue pair: it takes its sequence numbers and stays unacknowledged (R320). -/
def State.qpSend (s : State) (port q : Nat) (read : Bool) (va rkey len : Nat) (data : Bytes) (why : Purpose) : State :=
  let x := s.qp port q
  let n := s.packets port q len
  let w : Wqe := { read := read, va := va, rkey := rkey, len := len, data := data, psn := x.txPsn, packets := n, purpose := why }
  (s.setQp port q { x with txPsn := (x.txPsn + n) % 2 ^ 24, unacked := x.unacked ++ [w] }).qpPump port q

/-- The host aperture segment that holds a local address: port, and its 128 bits (R334). -/
def State.apertureSeg (s : State) (a : Nat) : Option (Nat × Nat × Nat) :=
  match place a with
  | .aperture port off =>
    let w := s.reg (0x5820 + port) (off / 0x40000000)
    if bit w 11 then some (port, w, off % 0x40000000) else none
  | _ => none

/-- A record can leave now through the segment of an address: a valid segment whose queue pair is READY (R333). -/
def State.canPost (s : State) (a : Nat) : Bool :=
  match s.apertureSeg a with
  | some (port, w, _) => s.qpState port (fld w 31 22) == 1
  | none => false

/-- Write bytes to host memory through an aperture address (R334). -/
def State.postWrite (s : State) (a : Nat) (data : Bytes) (why : Purpose) : State :=
  match s.apertureSeg a with
  | some (port, w, off) => s.qpSend port (fld w 31 22) false ((fld w 127 64 + off) % 2 ^ 64) (fld w 63 32) data.length data why
  | none => s

/-- The rings of a client (R331). -/
def State.hostRings (s : State) (p c : Nat) : Nat := s.reg (0x5900 + p) c

/-- The posting state of a client. -/
def State.post (s : State) (p c : Nat) : Post := SMap.get {} s.posts (p * 8 + c)

/-- Completion records of a client that wait (R333). -/
def Post.waiting (x : Post) : Nat := x.again.length + x.backlog.length

/-- Write the posting state of a client. -/
def State.setPost (s : State) (p c : Nat) (x : Post) : State := { s with posts := SMap.putD {} (p * 8 + c) x s.posts }

/-- Entries of the completion ring (R331). -/
def cqEntries (w : Nat) : Nat := 2 ^ (6 + fld w 63 60)
/-- Entries of the fault ring (R331). -/
def fqEntries (w : Nat) : Nat := 2 ^ (6 + fld w 59 56)

/-- The completion ring can take a record now (R333). -/
def State.cqOpen (s : State) (p c : Nat) : Bool :=
  let w := s.hostRings p c
  let x := s.post p c
  bit w 0 && decide ((x.cqCount + 2 ^ 32 - x.cqHead) % 2 ^ 32 < cqEntries w) &&
    s.canPost (fld w 255 208 + 32 * (x.cqCount % cqEntries w))

/-- Write one completion record into its ring. -/
def State.cqWrite (s : State) (p c rec : Nat) : State :=
  let w := s.hostRings p c
  let x := s.post p c
  let s := s.setPost p c { x with cqCount := (x.cqCount + 1) % 2 ^ 32 }
  s.postWrite (fld w 255 208 + 32 * (x.cqCount % cqEntries w)) (natLe 32 rec) (.record p c false x.cqCount)

/-- Move records to the ring while it takes them, those whose queue pair failed first; fuel bounds the moves (R333). -/
def State.cqPump (s : State) (p c : Nat) : Nat → State
  | 0 => s
  | fuel + 1 =>
    let x := s.post p c
    let w := s.hostRings p c
    match x.again, x.backlog with
    | (n, r) :: t, _ =>
      let a := fld w 255 208 + 32 * (n % cqEntries w)
      if bit w 0 && s.canPost a then
        ((s.setPost p c { x with again := t }).postWrite a (natLe 32 r) (.record p c false n)).cqPump p c fuel
      else s
    | [], r :: t =>
      if s.cqOpen p c then (((s.setPost p c { x with backlog := t }).cqWrite p c r).cqPump p c fuel)
      else s
    | [], [] => s

/-- Move every record of a client that its ring can take. -/
def State.pumpClient (s : State) (p c : Nat) : State :=
  s.cqPump p c ((s.post p c).again.length + (s.post p c).backlog.length)

/-! ### Answers of the debug port (R434, R439) -/

/-- The TAP as origin: the principal of the unlock, or none (R439, R460). -/
def State.tapOrigin (s : State) : Origin :=
  let w := s.reg 0x7030 2
  ⟨2, if bit w 15 then BitVec.ofNat 8 (fld w 7 4) else 0xFF, 0, 0, 0⟩

/-- The record of merged debug reads is written (R439). -/
def State.flushMerge (s : State) : State :=
  match s.dbg.merge with
  | none => s
  | some m =>
    let s : State := { s with dbg := { s.dbg with merge := none } }
    s.record { kind := 2, origin := s.tapOrigin, status := m.status, count := m.count,
               detail := m.op <<< 56 + m.first % 2 ^ 48 }

/-- The KIND 2 record of a debug request; merged reads before it are written first (R439). `tag` is that of the command that
a halt, step or breakpoint match concerns (R130). -/
def State.dbgNote (s : State) (op arg : Nat) (st : Status) (old new : Nat) (tag : Nat := 0) : State :=
  s.flushMerge.record { kind := 2, origin := s.tapOrigin, status := st, old := old, new := new, tag := tag,
                        detail := (op % 256) <<< 56 + arg % 2 ^ 48 }

/-- The record of a debug read, which joins the reads before it while they follow one another by `step` (R439). -/
def State.dbgMerge (s : State) (op arg step : Nat) (st : Status) : State :=
  match s.dbg.merge with
  | some m =>
    if m.op = op ∧ m.next = arg ∧ m.status = st ∧ m.count < 65535 then
      { s with dbg := { s.dbg with merge := some { m with next := arg + step, count := m.count + 1 } } }
    else { s.flushMerge with dbg := { s.flushMerge.dbg with merge := some ⟨op, arg, arg + step, 1, st⟩ } }
  | none => { s with dbg := { s.dbg with merge := some ⟨op, arg, arg + step, 1, st⟩ } }

/-- A debug response (R434). -/
def dbgWord (st : Nat) (seq : Nat) (done : Bool) (data : Nat) : BitVec 128 :=
  BitVec.ofNat 128 ((st % 256) <<< 120 + (seq % 256) <<< 112 + b2n done <<< 111 + data % 2 ^ 64)

/-- The response to the last request is formed; no request is outstanding. -/
def State.dbgReply (s : State) (seq : Nat) (st : Status) (data : Nat) : State :=
  { s with dbg := { s.dbg with resp := dbgWord st.code seq true data, busy := none } }

/-- A memory operation of the debug port ends: its response and its record (R438, R439). -/
def State.memEnds (s : State) (seq : Nat) (write : Bool) (a data old : Nat) (st : Status) (got : Nat) : State :=
  let s := s.dbgReply seq st (if st = .ok then got else 0)
  if write then s.dbgNote 0x21 a st old data else s.dbgMerge 0x20 a 8 st

/-- The memory operation that waits for a host has its answer (R334, R438). -/
def State.dbgHost (s : State) (st : Status) (data : Bytes) : State :=
  match s.dbg.busy with
  | some (seq, .mem w a d) => s.memEnds seq w a d 0 st (leNat data)
  | _ => s

/-- The run of a context has been aborted: a debug request that waited for its halt is answered. -/
def State.dbgAborted (s : State) (n h : Nat) (tag : Nat) : State :=
  match s.dbg.busy with
  | some (seq, .halt n' h') => if n = n' ∧ h = h' then (s.dbgReply seq .aborted 0).dbgNote 0x10 (h <<< 14 + n) .aborted 0 0 tag else s
  | some (seq, .step n' h') => if n = n' ∧ h = h' then (s.dbgReply seq .aborted 0).dbgNote 0x12 (h <<< 14 + n) .aborted 0 0 tag else s
  | _ => s

/-! ### Completion records (R332, R333) -/

/-- The fields of a completion record (R332). -/
structure Completion where
  kind    : Nat
  status  : Status
  part    : Nat
  client  : Nat
  core    : Nat := 0
  ctx     : Nat := 0
  hostTag : Nat := 0
  ring    : Nat := 0xFF
  data    : Nat := 0

/-- The 256 bits of a completion record (R332). -/
def Completion.word (r : Completion) (time seq : Nat) : Nat :=
  (time % 2 ^ 64) <<< 192 + (r.data % 2 ^ 64) <<< 128 + (r.hostTag % 65536) <<< 112 + (r.core % 16384) <<< 98
    + (r.ctx % 4) <<< 96 + (r.part % 256) <<< 88 + (r.client % 8) <<< 85 + (r.ring % 256) <<< 40
    + r.status.code <<< 32 + (r.kind % 16) <<< 20 + seq % 65536

/-- Post a completion record: into the ring, or behind the backlog; none is lost (R333). -/
def State.complete (s : State) (r : Completion) : State :=
  let x := s.post r.part r.client
  let w := r.word s.localNs x.cqSeq
  let s := s.setPost r.part r.client { x with cqSeq := (x.cqSeq + 1) % 65536, backlog := x.backlog ++ [w] }
  s.pumpClient r.part r.client

/-- The fields of a fault record (R148). -/
structure FaultRec where
  kind    : Nat
  status  : Status
  detail  : Nat := 0
  va      : Nat := 0
  stream  : Option (Nat × Nat × Nat) := none   -- stream, ring, slot count
  tag     : Nat
  index   : Nat
  part    : Nat
  client  : Nat
  core    : Nat
  ctx     : Nat

/-- The 256 bits of a fault record (R148). -/
def FaultRec.word (r : FaultRec) (time seq : Nat) : Nat :=
  let (k, g, n, v) := match r.stream with
    | some (k, g, n) => (k, g, n, 1)
    | none => (0, 0, 0, 0)
  (r.va % 2 ^ 48) <<< 192 + (time % 2 ^ 64) <<< 128 + (n % 65536) <<< 112 + (g % 32) <<< 107 + (k % 16) <<< 103
    + v <<< 102 + (r.tag % 65536) <<< 80 + (r.index % 1024) <<< 70 + (r.client % 8) <<< 67 + (r.part % 256) <<< 59
    + (r.ctx % 4) <<< 57 + (r.core % 16384) <<< 43 + (r.kind % 8) <<< 40 + (r.detail % 256) <<< 32
    + r.status.code <<< 24 + seq % 65536

/-- Post a fault record, or drop it when the ring cannot take it (R148, R333). The core's RECORD_SEQ advances either
way. -/
def State.postFault (s : State) (r : FaultRec) : State :=
  let seq := (s.core r.core).faultSeq
  let w := r.word s.localNs seq
  let s := s.modCore r.core fun k => { k with faultSeq := (k.faultSeq + 1) % 65536 }
  let h := s.hostRings r.part r.client
  let x := s.post r.part r.client
  let a := fld h 159 112 + 32 * (x.fqCount % fqEntries h)
  if bit h 0 && decide ((x.fqCount + 2 ^ 32 - x.fqHead) % 2 ^ 32 < fqEntries h) && s.canPost a then
    (s.setPost r.part r.client { x with fqCount := (x.fqCount + 1) % 2 ^ 32 }).postWrite a (natLe 32 w)
      (.record r.part r.client true x.fqCount)
  else s.bump 32 (0x8B90 + r.client) r.part 1

/-- A detected condition reported for a context of a core: its KIND 1 record and sticky bit (R373, R461). Codes
without a sticky bit leave the record alone. -/
def State.report (s : State) (st : Status) (n h tag : Nat) (subject : Nat := 0) : State :=
  let x := s.ctx n h
  if st.sticky then s.condition st (unitOrigin (n / 256)) (detail1 x.part x.client n subject) tag else s

end Sys2Proof.Machine
end

