-- ==== Sys2Proof/Machine/Xlate.lean ====
section
/-! DEFINITION. Translation of client virtual addresses (R274 to R279): the TLB, the page walk and its faults; and
the checks that a local access of a client's stream meets (R273, R80). -/

namespace Sys2Proof.Machine

/-- What translating an address gives. -/
inductive Xl where
  | ok (gaddr : Nat) (loPlane : Bool)
  | miss                                  -- the TLB does not hold the page
  | fault (cause level : Nat)             -- a translation fault (R279)
  | stop (st : Status)                    -- a walk read error (R277)
  deriving DecidableEq, Repr

/-- The global address of a leaf and a virtual address (R275, R276). -/
def leafAddr (leaf : Nat) (big : Bool) (va : Nat) : Nat :=
  let k := if big then 21 else 16
  (fld leaf 63 47) <<< 47 + (fld leaf 46 8) <<< 8 + va % 2 ^ k

/-- What a valid leaf gives for an access: WRITE_PROTECT on a write to a leaf that is not writable (R279). -/
def leafUse (leaf : Nat) (big write : Bool) (va : Nat) : Xl :=
  if write && !bit leaf 3 then .fault 2 (if big then 2 else 3) else .ok (leafAddr leaf big va) (bit leaf 4)

/-- The index of a virtual address at a level (R275). -/
def walkIndex (level va : Nat) : Nat :=
  match level with
  | 0 => fld va 47 39
  | 1 => fld va 38 30
  | 2 => fld va 29 21
  | _ => fld va 20 16

/-- A table pointer is well formed: no reserved or must-be-zero bit, aligned for the next level, and the table
wholly below the usable capacity (R276, R279). -/
def State.pointerOk (s : State) (level e : Nat) : Bool :=
  let t := (fld e 46 8) <<< 8
  let size := if level = 2 then 256 else 4096
  fld e 63 47 == 0 && fld e 7 3 == 0 && !bit e 1 && decide (t % size = 0) && decide (t + size ≤ s.reg 0x3000 0)

/-- A leaf is well formed at its level (R276, R279). -/
def leafOk (level e : Nat) : Bool :=
  (level == 2 || level == 3) && fld e 7 5 == 0 && !bit e 1 &&
    (if level = 2 then fld e 20 8 == 0 else fld e 15 8 == 0)

/-- The page walk from a table at a level (R275 to R279); fuel is the number of levels. It answers the leaf and
whether it is a 2 MiB page. -/
def State.walkFrom (s : State) (va : Nat) : Nat → Nat → Nat → State × (Xl ⊕ (Nat × Bool))
  | 0, _, _ => (s, .inl (.fault 3 3))
  | fuel + 1, level, table =>
    let r := s.readLocal (table + 8 * walkIndex level va) 8
    if r.2.1 ≠ .ok then (r.1, .inl (.stop r.2.1))
    else
      let e := leNat r.2.2
      if !bit e 0 then (r.1, .inl (.fault 1 level))
      else if bit e 2 then
        if leafOk level e then (r.1, .inr (e, level == 2)) else (r.1, .inl (.fault 3 level))
      else if level = 3 || !r.1.pointerOk level e then (r.1, .inl (.fault 3 level))
      else r.1.walkFrom va fuel (level + 1) ((fld e 46 8) <<< 8)

/-- A page walk of a client (R274, R275). -/
def State.walk (s : State) (p c va : Nat) : State × (Xl ⊕ (Nat × Bool)) :=
  let root := s.reg (0x3800 + p) c
  if root = 0 then (s, .inl (.fault 4 0)) else s.walkFrom va 4 0 root

/-- The TLB entry of a context for an address. -/
def Core.tlbFind (c : Core) (h va : Nat) : Option TlbE :=
  c.tlb.find? fun e => e.ctx == h && (if e.big then e.vpn == va / 2 ^ 21 else e.vpn == va / 2 ^ 16)

/-- Use an entry: it becomes the most recently used. -/
def Core.tlbTouch (c : Core) (e : TlbE) : Core := { c with tlb := e :: c.tlb.filter fun x => x != e }

/-- Fill the TLB: the least recently used of 128 entries is replaced (R20, R277). -/
def Core.tlbFill (c : Core) (e : TlbE) : Core := { c with tlb := (e :: c.tlb).take 128 }

/-- Translate through the TLB only. -/
def State.translate (s : State) (n h va : Nat) (write : Bool) : State × Xl :=
  match (s.core n).tlbFind h va with
  | none => (s, .miss)
  | some e => (s.modCore n fun c => c.tlbTouch e, leafUse e.leaf e.big write va)

/-- Walk for a context and fill its core's TLB; `xlate.walks` counts completed walks (R277, R293). -/
def State.walkFill (s : State) (n h p c va : Nat) (write : Bool) : State × Xl :=
  let r := s.walk p c va
  match r.2 with
  | .inl x => (r.1, x)
  | .inr (leaf, big) =>
    let e : TlbE := ⟨h, if big then va / 2 ^ 21 else va / 2 ^ 16, big, leaf⟩
    ((r.1.modCore n fun k => k.tlbFill e).bump 64 0x8900 (n / 256) 1, leafUse leaf big write va)

/-- Translate, walking on a miss: for passes that run inside one step (R112, R114) and for DMA (R126). -/
def State.translateNow (s : State) (n h p c va : Nat) (write : Bool) : State × Xl :=
  match s.translate n h va write with
  | (s', .miss) => s'.walkFill n h p c va write
  | r => r

/-- The device's own ID; an unset ID stands for 0 (R270). -/
def State.ownId (s : State) : Nat := if s.reg 0x5000 0 = 0xFFFFFFFF then 0 else s.reg 0x5000 0

/-- The device of a global address. -/
def devOf (g : Nat) : Nat := fld g 63 47
/-- The local address of a global address. -/
def locOf (g : Nat) : Nat := g % 2 ^ 47

/-! ### Tags, walks and places (R107, R263, R265, R277) -/

/-- A stream may take another tag: its own limit and the core's 64. -/
def State.tagFree (s : State) (n : Nat) (y : Stream) : Bool :=
  decide (y.reqs.length < fld y.desc 26 21 + 1) &&
    decide (((s.core n).streams.map fun e => e.2.reqs.length).sum < 64)

/-- The streams that wait for a page walk on core n's die, in order of arrival (R277). -/
def State.walkers (s : State) (d : Nat) : List (Nat × Nat) := s.walkQ.filter fun e => decide (e.1 / 256 = d) &&
  (s.stream e.1 e.2).any fun y => match y.phase with | .walking .. => true | _ => false

/-- The walks that the translation unit of a die runs now: the first 16 (R277). -/
def State.walks (s : State) (d : Nat) : List (Nat × Nat) := (s.walkers d).take 16

/-- The entry of the root table that a walk of a stream reads (R275). -/
def State.walkEntryOf (s : State) (n : Nat) (y : Stream) (va : Nat) : Nat :=
  let x := s.ctx n y.ctx
  s.reg (0x3800 + x.part) x.client + 8 * walkIndex 0 va

/-- A request of a stream that holds a place of package p: a plain write until it is acknowledged, a read until its data
has left (R263). -/
def State.holdsPlace (s : State) (p : Nat) (q : Req) : Bool :=
  devOf q.gaddr == s.ownId && !q.acc && place (locOf q.gaddr) == .lpddr && (s.lpDecode (locOf q.gaddr)).1 == p &&
    (q.write || !q.ready)

/-- Places of package p in use: those of stream requests, and one for each walk in progress whose entry read lies there
(R263, R277). A walk is one step here, and its root entry stands for its four reads. -/
def State.lpPlaces (s : State) (p : Nat) : Nat :=
  ((s.cores.flatMap fun c => c.2.streams.flatMap fun e => e.2.reqs).filter (s.holdsPlace p)).length +
  ((List.range 64).flatMap s.walks |>.filter fun e =>
    match s.stream e.1 e.2 with
    | some y => match y.phase with
      | .walking va _ => place (s.walkEntryOf e.1 y va) == .lpddr && (s.lpDecode (s.walkEntryOf e.1 y va)).1 == p
      | _ => false
    | none => false).length

/-- The start-up phase. -/
def State.phase (s : State) : Nat := fld (s.reg 0x2030 0) 2 0

/-- A package accepts no further request: its places are taken (R263, R265), or the zero-fill of P4 has not ended (R257). -/
def State.lpFull (s : State) (a : Nat) : Bool :=
  match place a with
  | .lpddr =>
    let p := (s.lpDecode a).1
    decide (s.phase < 5) || decide ((if s.reg 0x3030 p = 5 then 256 else 512) ≤ s.lpPlaces p)
  | _ => false

/-- An access waits: its tun segment is isolated, or its scratchpad's core is in maintenance (R381, R383). -/
def State.heldAccess (s : State) (a len : Nat) : Bool :=
  match place a with
  | .tun d off => (List.range ((off % 0x400000 + len + 0x3FFFFF) / 0x400000)).any fun i =>
      s.reg (0x3180 + d) (off / 0x400000 + i) == 1
  | .sp n _ => (s.core n).maint
  | _ => false

/-- An access waits: for its segment or core, or for its package to accept it (R257, R263, R265, R381, R383). Whoever asks holds the
request until then. -/
def State.accessWaits (s : State) (a len : Nat) : Bool := s.heldAccess a len || s.lpFull a

/-! ### Leases (R76 to R80) -/

/-- A lease held on a core: mask, exclusive or read, and the ring end it belongs to. -/
structure Lease where
  mask : Nat
  excl : Bool
  deriving DecidableEq, Repr

/-- The ring a stream serves. -/
def Core.ringOf (c : Core) (x : Stream) : Option Ring := SMap.find? x.ring c.rings

/-- The leases of a stream: its declared banks outside its ring in its own mode; the ring's banks exclusive (R95). -/
def Core.streamLeases (c : Core) (x : Stream) : List Lease :=
  if x.ended then [] else
  let ringMask := match c.ringOf x with | some r => r.mask | none => 0
  let m := fld x.desc 63 32
  let rest := m &&& (2 ^ 32 - 1 - ringMask)
  (if rest = 0 then [] else [⟨rest, bit x.desc 15⟩]) ++ (if ringMask = 0 then [] else [⟨ringMask, true⟩])

/-- The lease that a context's FILL or COPY holds, as a mask (R76). -/
def Ctx.fillLease (x : Ctx) : Nat := match x.cmd with | some k => k.lease | none => 0

/-- Every lease active on a core: those of its streams, of the open rings, and of FILL and COPY (R76). -/
def Core.leases (c : Core) : List Lease :=
  c.streams.flatMap (fun e => c.streamLeases e.2) ++ c.rings.map (fun e => ⟨e.2.mask, true⟩) ++
    (c.ctxs.filter fun e => e.2.fillLease != 0).map fun e => ⟨e.2.fillLease, true⟩

/-- The banks that a scratchpad range touches, as a mask (R70). -/
def bankMask (off len : Nat) : Nat :=
  ((List.range 32).filter fun b => overlap off len (b * 0x3000) 0x3000).foldl (fun m b => m + 2 ^ b) 0

/-- An access from another core is refused by the leases active on the target (R80). -/
def Core.leaseRefuses (c : Core) (off len : Nat) (write : Bool) : Bool :=
  c.leases.any fun l => (l.mask &&& bankMask off len) != 0 && (l.excl || write)

/-- Owner word of a tun segment (R340). -/
def State.segOwner (s : State) (d g : Nat) : Nat := s.reg (0x4300 + d) g

/-- Every segment of a tun range is a data segment of the partition (R85, R345). -/
def State.segsOwned (s : State) (p d off len : Nat) : Bool :=
  (List.range ((off % 0x400000 + len + 0x3FFFFF) / 0x400000)).all fun i =>
    let w := s.segOwner d (off / 0x400000 + i)
    fld w 15 14 == 1 && fld w 7 0 == p

/-- A save-area segment holds an address (R345). -/
def State.inSaveArea (s : State) (a : Nat) : Bool :=
  match place a with
  | .tun d off => decide (off < tunLen) && fld (s.segOwner d (off / 0x400000)) 15 14 == 2
  | _ => false

/-! ### Admission through windows (R204, R284, R286) -/

/-- Descriptor of window w. -/
def State.win (s : State) (w : Nat) : Nat := s.reg (0x3B00 + w / 256) (w % 256)
/-- STATE: 0 CLOSED, 1 OPEN, 2 CLOSING. -/
def winState (d : Nat) : Nat := fld d 225 224
/-- INCARNATION. -/
def winInc (d : Nat) : Nat := fld d 223 208
/-- First local address. -/
def winBase (d : Nat) : Nat := fld d 130 96 * 4096
/-- Length in bytes. -/
def winLen (d : Nat) : Nat := fld d 158 131 * 4096
def winPart (d : Nat) : Nat := fld d 166 159
def winClient (d : Nat) : Nat := fld d 169 167

/-- The number of the descriptors. -/
def windows : List Nat := List.range 4096

/-- A sender at a window: a device, or a host port (R284). -/
inductive WinSrc where
  | device (d : Nat)
  | host (port : Nat)
  deriving DecidableEq, Repr

/-- The source set of a descriptor holds a sender. -/
def winHolds (d : Nat) : WinSrc → Bool
  | .device x => !bit d 173 && decide (fld d 190 174 ≤ x) && decide (x ≤ fld d 207 191)
  | .host p => bit d 173 && fld d 190 174 == p

/-- What a remote request needs: a read, a write, or a barrier arrival. -/
inductive WinRight where
  | read | write | arrive
  deriving DecidableEq, Repr

/-- The bit of a right. -/
def WinRight.bit : WinRight → Nat
  | .read => 170
  | .write => 171
  | .arrive => 172

/-- The range of a descriptor holds an address. -/
def winCovers (d a : Nat) : Bool := decide (winBase d ≤ a) && decide (a < winBase d + winLen d)

/-- The window that R286 selects for a sender and an address. -/
def State.winSelect (s : State) (src : WinSrc) (a : Nat) : Option Nat :=
  windows.find? fun w => let d := s.win w; winState d != 0 && winHolds d src && winCovers d a

/-- Link die x has fixed its close point of a window by local time `at_` (R287): at once where no close is in progress, and
otherwise within 5 µs of the close, at a time that the spec leaves open (log entry 49). A request that comes from a host
port or from this device meets no link die: its close point is the close itself. -/
def State.closeFixed (s : State) (w : Nat) (x : Option Nat) (at_ : Nat) : Bool :=
  match x, SMap.find? w s.winClose with
  | some x, some (t, i) => decide (t + min 5000 (Config.closeDelay i x) < at_)
  | _, _ => true

/-- The admission of R286, without its counts. -/
def State.admission (s : State) (src : WinSrc) (x : Option Nat) (at_ a len : Nat) (r : WinRight) : Status :=
  match s.winSelect src a with
  | some w =>
    let d := s.win w
    if winState d = 2 ∧ s.closeFixed w x at_ then .windowClosed
    else if winBase d + winLen d < a + len ∨ !bit d r.bit then .accessDenied
    else .ok
  | none =>
    if windows.any fun w => let d := s.win w; winState d == 0 && winInc d != 0 && winHolds d src && winCovers d a then
      .windowClosed
    else .accessDenied

/-- An access of a client's stream to a tun segment or a barrier object of another partition of this device: it is permitted
through a window that the receiving partition has opened for this device (R204), and denied outside any (R85, R273, R286;
log entry 66). -/
def State.crossing (s : State) (a len : Nat) (r : WinRight) : Option Status :=
  match s.admission (.device s.ownId) none 0 a len r with
  | .ok => if s.inSaveArea a then some .accessDenied else none
  | st => some st

/-- The checks of a local access by stream x of core n, partition p (R80, R85, R204, R271, R272, R273, R334): none when
it is permitted. -/
def State.streamCheck (s : State) (n p : Nat) (x : Stream) (a len : Nat) (write accum : Bool) : Option Status :=
  match s.popStatus a len with
  | some st => some st
  | none =>
    match place a with
    | .tun d off =>
      if s.segsOwned p d off len then none
      else if accum then some .accessDenied else s.crossing a len (if write then .write else .read)
    | .sp m off =>
      if !s.coreIn p m || accum then some .accessDenied
      else if m = n then
        let bm := bankMask off len
        let held := (((s.core n).streamLeases x).filter fun l => l.excl || !write).foldl (fun m l => m ||| l.mask) 0
        if bm &&& held = bm then none else some .accessDenied
      else if (s.core m).leaseRefuses off len write then some .accessDenied else none
    | .arrival d b _ =>
      if accum || !write || len ≠ 32 then some .accessDenied
      else if (s.barrier d b).owner = some p then none else s.crossing a len .arrive
    | .doorbell _ => some .accessDenied
    | .aperture _ _ =>
      match s.apertureSeg a with
      | some (_, w, off) =>
        if accum || fld w 21 14 ≠ p || !(if write then bit w 13 else bit w 12) || 0x40000000 < off + len then some .accessDenied
        else none
      | none => some .accessDenied
    | _ => none

end Sys2Proof.Machine
end

