-- ==== Sys2Proof/Machine/Rings.lean ====
section
/-! DEFINITION. Slot rings (R97 to R102, R112): geometry and striping, reading and writing slots, commit with the slot
seal, visibility of the head slot, and release. -/

namespace Sys2Proof.Machine

/-- The banks of a ring, ascending (R72). -/
def Ring.banks (r : Ring) : List Nat := bitList r.mask 32

/-- Slot size in bytes (R97). -/
def Ring.slotBytes (r : Ring) : Nat := r.units * 256

/-- The aperture offset of 32 B word w of the ring's structure (R72). -/
def Ring.wordOff (r : Ring) (w : Nat) : Nat :=
  let bs := r.banks
  ((bs[w % bs.length]?).getD 0) * 0x3000 + (r.baseRow + w / bs.length) * 32

/-- The aperture offsets of the 32 B words of slot k from byte `off`, `len` bytes (both multiples of 32). -/
def Ring.slotWords (r : Ring) (k off len : Nat) : List Nat :=
  (List.range (len / 32)).map fun i => r.wordOff (k * r.units * 8 + off / 32 + i)

/-- Slots committed and not released: C - F (R99). -/
def Ring.held (r : Ring) : Nat := (r.tail + 65536 - r.head) % 65536

/-- The slot that the consumer reads next: the head slot, or the first after those that a held role keeps. -/
def Ring.cur (r : Ring) : Nat := (r.consPos + r.kept) % r.slots

/-- The ordinal of that slot in its sequence. -/
def Ring.curOrd (r : Ring) : Nat := r.ord + r.kept

/-- The geometry rules of R98 on a ring descriptor. -/
def ringGeometry (d : Nat) : Bool :=
  let nb := popCount (fld d 31 0) 32
  let s := fld d 51 48
  let u := fld d 72 64
  fld d 255 85 == 0 && fld d 79 73 == 0 && fld d 63 52 == 0 && fld d 47 41 == 0 &&
    decide (3 ≤ s) && decide (s ≤ 8) && decide (1 ≤ u) && decide (u ≤ 256) && decide (1 ≤ nb) &&
    decide (fld d 40 32 + ceilDiv (s * u * 8) nb - 1 ≤ 383)

/-- The ring that a descriptor opens for a context (R97, R99). -/
def ringOfDesc (d h : Nat) : Ring :=
  { ctx := h, units := fld d 72 64, slots := fld d 51 48, baseRow := fld d 40 32, mask := fld d 31 0 }

/-- Write whole 32 B words of slot k of ring r of core n. -/
def State.writeSlot (s : State) (n : Nat) (r : Ring) (k off : Nat) (bs : Bytes) : State :=
  ((r.slotWords k off bs.length).zip (chunks 32 bs)).foldl (fun s p => (s.writeMem (spBase n + p.1) p.2).1) s

/-- Read whole 32 B words of slot k through ECC (R74). -/
def State.readSlot (s : State) (n : Nat) (r : Ring) (k off len : Nat) : State × Status × Bytes :=
  (r.slotWords k off len).foldl (fun acc w =>
    match acc with
    | (s, .ok, bs) =>
      let q := s.readMem (spBase n + w) 32 (s.ctx n r.ctx).lastTag
      (q.1, q.2.1, bs ++ q.2.2)
    | other => other) (s, .ok, [])

/-- The slot seal: CRC-32C over the slot's bytes in ascending word order (R101). -/
def State.slotSeal (s : State) (n : Nat) (r : Ring) (k : Nat) : Nat :=
  (crc32c ((r.slotWords k 0 r.slotBytes).flatMap fun w => s.bytes (spBase n + w) 32)).toNat

/-- The producer end commits the slot at its position: seal and tail in one step (R99, R101). -/
def State.commitSlot (s : State) (n rn : Nat) (rec_ : Option SlotRec) : State :=
  match s.ring n rn with
  | none => s
  | some r =>
    let sl := s.slotSeal n r r.prodPos
    let r' := { r with
      tail := (r.tail + 1) % 65536, prodPos := (r.prodPos + 1) % r.slots,
      seals := SMap.put r.prodPos sl r.seals,
      stamps := SMap.put r.prodPos (s.core n).commits r.stamps,
      recs := match rec_ with
        | some x => SMap.put r.prodPos x r.recs
        | none => SMap.del r.prodPos r.recs }
    (s.setRing n rn r').modCore n fun c => { c with commits := c.commits + 1 }

/-- The consumer end releases the slot at its position (R99, R102). -/
def State.releaseSlot (s : State) (n rn : Nat) : State :=
  match s.ring n rn with
  | none => s
  | some r =>
    let keep := decide (0 < r.kept)
    s.setRing n rn { r with
      head := (r.head + 1) % 65536, consPos := (r.consPos + 1) % r.slots, kept := r.kept - 1,
      hd := if keep then r.hd else .unseen, busy := keep && r.busy,
      ord := r.ord + 1, seals := SMap.del r.consPos r.seals, stamps := SMap.del r.consPos r.stamps,
      recs := SMap.del r.consPos r.recs, fetched := if keep then r.fetched else [], twice := if keep then r.twice else [] }

/-- A recorded slot is fresh: its first read is at most 100 ms old (R112). -/
def State.fresh (s : State) (x : SlotRec) : Bool :=
  match x.firstRead with
  | some t => decide (s.localNs ≤ t + 100000000)
  | none => true

/-- The head slot is committed and its validation has completed (R100, R112). A slot of a command, and a fresh slot
that recorded no granule, needs no probe. -/
def State.headVisible (s : State) (r : Ring) : Bool :=
  decide (r.kept < r.held) &&
  match SMap.find? r.cur r.recs with
  | none => true
  | some x => r.busy || r.hd == .delivered ||
      (r.hd != .refetching && x.gens.isEmpty && !x.unrecorded && s.fresh x)

/-- The producer end has a free slot (R100). -/
def Ring.free (r : Ring) : Bool := decide (r.held < r.slots)

/-- An acquire of a context makes the probes of its rings' unread head slots be sent again (R112); a slot that is being
re-fetched is read anew anyway, and is delivered without a further probe. -/
def State.acquire (s : State) (n h : Nat) : State :=
  s.modCore n fun c => { c with rings := c.rings.map fun e =>
    if e.2.ctx == h && !e.2.busy && e.2.hd != .unseen && e.2.hd != .refetching then (e.1, { e.2 with hd := .again }) else e }

end Sys2Proof.Machine
end

