-- ==== Sys2Proof/Machine/Operands.lean ====
section
/-! DEFINITION. Operand forms: the fields of the command word (R128), loop counts and iteration vectors (R131), the
effective values of the operands (R132), the dimension word (R158), and the ranges of virtual addresses. -/

namespace Sys2Proof.Machine

/-- OPCODE. -/
def cOp (w : Nat) : Nat := fld w 7 0
/-- TAG. -/
def cTag (w : Nat) : Nat := fld w 23 8
/-- RMODE. -/
def cMode (w : Nat) : Nat := fld w 31 30
/-- OPC_FLAGS, bit [32] lowest. -/
def cFlags (w : Nat) : Nat := fld w 35 32
/-- One bit of OPC_FLAGS, numbered as in the command word. -/
def cFlag (w b : Nat) : Bool := bit w b
/-- IN_MASH. -/
def cMash (w : Nat) : Bool := bit w 37
/-- RESTARTABLE. -/
def cRest (w : Nat) : Bool := bit w 38
/-- END. -/
def cEnd (w : Nat) : Bool := bit w 39
/-- DEPTH. -/
def cDepth (w : Nat) : Nat := fld w 42 40
/-- LOOPl: the 13-bit count field of level l. -/
def cLoop (w l : Nat) : Nat := fld w (56 + 13 * l) (44 + 13 * l)
/-- INC_BASE. -/
def cIncBase (w : Nat) : Nat := fld w 101 96
/-- INC_MASK. -/
def cIncMask (w : Nat) : Nat := fld w 117 102
/-- OPRk. -/
def cOpr (w k : Nat) : Nat := fld w (125 + 6 * k) (120 + 6 * k)
/-- Operand k is used. -/
def cUses (w k : Nat) : Bool := bit w (144 + k)
/-- FMT_A. -/
def cFmtA (w : Nat) : Nat := fld w 151 148
/-- FMT_B. -/
def cFmtB (w : Nat) : Nat := fld w 155 152
/-- FMT_OUT. -/
def cFmtOut (w : Nat) : Nat := fld w 159 156
/-- STREAM_DESC. -/
def cStreamDesc (w : Nat) : Nat := fld w 169 160
/-- STREAM_CNT. -/
def cStreamCnt (w : Nat) : Nat := fld w 173 170
/-- RING_DESC. -/
def cRingDesc (w : Nat) : Nat := fld w 183 174
/-- RING_CNT. -/
def cRingCnt (w : Nat) : Nat := fld w 187 184
/-- Ring number of role r: IN0, IN1, IN2, OUT0, OUT1, OUT2. -/
def cRole (w r : Nat) : Nat := fld w (192 + 5 * r) (188 + 5 * r)
/-- Role r is used. -/
def cHasRole (w r : Nat) : Bool := bit w (218 + r)
/-- IMM32. -/
def cImm (w : Nat) : Nat := fld w 255 224

/-- The commit class (R143). -/
def commitClass (op : Nat) : Bool := op == 0x38 || op == 0x3A || op == 0x40

/-- The loop counts of a command; a register count is read when the command starts (R128, R131). -/
def loopCounts (x : Ctx) (w : Nat) : List Nat :=
  (List.range (cDepth w)).map fun l =>
    let f := cLoop w l
    if bit f 12 then x.param (f % 64) % 2 ^ 24 else f % 4096 + 1

/-- The number of iterations. -/
def iterCount (counts : List Nat) : Nat := counts.foldl (· * ·) 1

/-- The iteration vector after a given one: the innermost level varies fastest; none after the last (R131). Both
lists are innermost first. -/
def nextIterRev : List Nat → List Nat → Option (List Nat)
  | [], _ => none
  | _, [] => none
  | c :: cs, i :: is =>
    if i + 1 < c then some ((i + 1) :: is)
    else match nextIterRev cs is with
      | some is' => some (0 :: is')
      | none => none

/-- The next iteration vector, outermost level first (R131). -/
def nextIter (counts iter : List Nat) : Option (List Nat) :=
  (nextIterRev counts.reverse iter.reverse).map List.reverse

/-- Iteration vector number i in execution order, innermost level first. -/
def iterAtRev : List Nat → Nat → List Nat
  | [], _ => []
  | c :: cs, i => i % c :: iterAtRev cs (i / c)

/-- Iteration vector number i in execution order, outermost level first (R131). -/
def iterAt (counts : List Nat) (i : Nat) : List Nat := (iterAtRev counts.reverse i).reverse

/-- The effective value of operand k in an iteration (R132); an operand that is not used is 0 (R154). -/
def opValue (x : Ctx) (w : Nat) (iter : List Nat) (k : Nat) : Nat :=
  if cUses w k then
    ((iter.zip (List.range 4)).foldl (fun v p =>
      if bit (cIncMask w) (4 * p.2 + k) then v + p.1 * x.param (cIncBase w + 4 * p.2 + k) else v)
      (x.param (cOpr w k))) % 2 ^ 32
  else 0

/-- The four effective values of an iteration. -/
def opValues (x : Ctx) (w : Nat) (iter : List Nat) : List Nat := (List.range 4).map (opValue x w iter)

/-- Operand k of a list of effective values. -/
def opnd (ops : List Nat) (k : Nat) : Nat := (ops[k]?).getD 0

/-- The dimension word of a matrix product (R158): IMM32, or operand 0 when it is used. -/
def dimWord (w : Nat) (ops : List Nat) : Nat := if cUses w 0 then opnd ops 0 else cImm w

/-- M of a dimension word. -/
def dimM (d : Nat) : Nat := fld d 9 0 + 1
/-- N of a dimension word. -/
def dimN (d : Nat) : Nat := fld d 19 10 + 1
/-- K of a dimension word. -/
def dimK (d : Nat) : Nat := 32 * fld d 31 20

end Sys2Proof.Machine
end

