-- ==== Sys2Proof/Machine/Contexts.lean ====
section
/-! DEFINITION. Contexts (R137 to R142): run end and status word, failing and completing a command, stopping streams
as on abort (R116), and saving and restoring a context (R79, R115, R345). -/

namespace Sys2Proof.Machine

/-- A run is in progress (R341, R346). -/
def CtxState.inRun : CtxState → Bool
  | .running | .waiting | .faultHeld | .preempted => true
  | _ => false

/-- The status word of a run that ends (R141). -/
def statusWord (x : Ctx) (st : Status) : Nat :=
  (x.run % 65536) <<< 48 + (x.lastTag % 65536) <<< 32 + (x.lastIdx % 1024) <<< 22 + 1 <<< 21 + st.code

/-- The run of a context ends: status word, DONE, the KIND 0 completion record, and a KIND 3 fault record unless it
ended with ST_OK or ST_ABORTED (R136, R141, R148). The engines that follow runs are told. -/
def State.runEnds (s : State) (n h : Nat) (x : Ctx) (st : Status) : State × Ctx :=
  let w := statusWord x st
  let x' := { x with state := .done, status := w, cmd := none, preempt := false, bounded := none,
                     halted := x.halted && st != .aborted, haltReq := x.haltReq && st != .aborted }
  let s :=
    if x.kind == .third || x.kind == .shadow then s
    else s.complete { kind := 0, status := st, part := x.part, client := x.client, core := n, ctx := h, data := w }
  let s :=
    if st == .ok || st == .aborted then s
    else s.postFault { kind := 3, status := st, tag := x.lastTag, index := x.lastIdx, part := x.part,
                       client := x.client, core := n, ctx := h }
  let s := if st == .aborted then s.dbgAborted n h x.lastTag else s
  ({ s with events := s.events ++ [.runEnded n h x st] }, x')

/-- Leases on core n have been released: a saved context that they kept from resuming may resume now (R79). -/
def State.leaseFreed (s : State) (n : Nat) : State :=
  if s.saved.any fun v => v.core == n then { s with events := s.events ++ [.resume n] } else s

/-- Stop the streams of a context as on abort (R116): a drain stream that holds a slot and is not suspended finishes
it; every other stream ends. A suspended drain is named in a KIND 1 fault record (R148). -/
def State.abortStreams (s : State) (n h : Nat) : State :=
  let c := s.core n
  let mine := c.streams.filter fun e => e.2.ctx == h
  let keep (x : Stream) : Bool := bit x.desc 14 && x.taken && x.phase != .suspended
  let streams := (c.streams.filter fun e => e.2.ctx != h || keep e.2).map fun e =>
    if e.2.ctx == h then (e.1, { e.2 with aborted := true }) else e
  let rings := c.rings.filter fun e => e.2.ctx != h || streams.any fun t => t.2.ctx == h && t.2.ring == e.1
  let x := c.ctx h
  let s := (s.modCore n fun c => { c with streams := streams, rings := rings }).leaseFreed n
  mine.foldl (fun s e =>
    if bit e.2.desc 14 && e.2.phase == .suspended then
      let cnt := match SMap.find? e.2.ring c.rings with | some r => r.head | none => 0
      s.postFault { kind := 1, status := .aborted, stream := some (e.1, e.2.ring, cnt), tag := x.lastTag,
                    index := x.lastIdx, part := x.part, client := x.client, core := n, ctx := h,
                    va := match e.2.fault with | some f => f.va | none => 0 }
    else s) s

/-- The core lets go of a context's command: its array state and its place in the execution order (R48). -/
def Core.letGo (c : Core) (h : Nat) : Core :=
  { c with exec_ := if c.exec_ == some h then none else c.exec_,
           array := match c.array with
             | some a => if a.ctx = h then none else some a
             | none => none,
           carry := if c.exec_ == some h then [] else c.carry }

/-- The run of a live context ends (R136). -/
def State.endRun (s : State) (n h : Nat) (st : Status) : State :=
  let s := s.abortStreams n h
  let r := s.runEnds n h (s.ctx n h) st
  (r.1.setCtx n h r.2).modCore n fun c => c.letGo h

/-- The command of a context completes with a failing status, which is reported; the run ends with it (R136). -/
def State.failCommand (s : State) (n h : Nat) (st : Status) (subject : Nat := 0) : State :=
  (s.report st n h (s.ctx n h).lastTag subject).endRun n h st

/-- An aborted drain of a context still finishes a slot of a ring (R116). -/
def Core.finishes (c : Core) (h rn : Nat) : Bool := c.streams.any fun e => e.2.aborted && e.2.ctx == h && e.2.ring == rn

/-- A command completes with ST_OK: its rings close, but for those of which an aborted drain of an earlier run finishes a
slot; the run ends after the command that carries END, and otherwise goes on with the next entry (R116, R124, R135, R136). -/
def State.completeCommand (s : State) (n h w : Nat) : State :=
  let s := s.modCore n fun c =>
    ({ c with rings := c.rings.filter (fun e => e.2.ctx != h || c.finishes h e.1),
              streams := c.streams.filter fun e => !(e.2.ctx == h && e.2.ended) }).letGo h
  let s := s.leaseFreed n
  if cEnd w || (s.ctx n h).bounded == some (s.ctx n h).next then s.endRun n h .ok
  else s.modCtx n h fun x => { x with cmd := none, next := x.next + 1 }

/-- The key under which a fill stream past END is kept while its ring holds slots of it (R111). -/
def endedKey (ring : Nat) : Nat := 16 + ring

/-- A ring end has not ended: a stream that still serves the ring, or a role of a command. -/
def Core.endLives (c : Core) (rn h : Nat) : REnd → Bool
  | .stream k => (SMap.find? k c.streams).any fun y => y.ring == rn && y.ctx == h && !y.ended
  | .role _ => true
  | .none => false

/-- Ring rn closes when both of its ends have ended, or with the aborted drain that it served (R97, R116). Its slots, and
what a fill stream past END keeps for them, go with it. -/
def Core.closeEnded (c : Core) (rn : Nat) (aborted : Bool) : Core :=
  match SMap.find? rn c.rings with
  | none => c
  | some r =>
    if aborted || (!c.endLives rn r.ctx r.prod && !c.endLives rn r.ctx r.cons) then
      { c with rings := SMap.del rn c.rings, streams := SMap.del (endedKey rn) c.streams }
    else c

/-- The KIND 2 fault record of an uncorrectable word met at virtual address va by stream k of core n, or by the command
itself (R74, R148). -/
def State.postBadWord (s : State) (n h va : Nat) (k : Option (Nat × Nat × Nat)) : State :=
  let x := s.ctx n h
  s.postFault { kind := 2, status := .eccUncorrectable, va := va, stream := k, tag := x.lastTag, index := x.lastIdx,
                part := x.part, client := x.client, core := n, ctx := h }

/-- Stream, ring and slot count as a fault record names them (R148): F for a drain stream, C for a fill stream. -/
def State.faultPlace (s : State) (n k : Nat) (y : Stream) : Nat × Nat × Nat :=
  (k, y.ring, match s.ring n y.ring with
    | some r => if bit y.desc 14 then r.head else r.tail
    | none => 0)

/-- A stream of a core stops with a status (R106) at an access to virtual address va: the status is reported, an
uncorrectable word also posts a KIND 2 fault record (R74), and the command that owns the stream completes with it. An
aborted drain only ends, and its ring closes. -/
def State.stopStream (s : State) (n k : Nat) (st : Status) (va : Nat := 0) : State :=
  match s.stream n k with
  | none => s
  | some y =>
    let h := y.ctx
    let s := if st == .eccUncorrectable then s.postBadWord n h va (some (s.faultPlace n k y)) else s
    let s := (s.modCore n fun c => { c with streams := SMap.del k c.streams }).leaseFreed n
    if y.aborted then (s.modCore n fun c => c.closeEnded y.ring true).report st n h (s.ctx n h).lastTag
    else s.failCommand n h st

/-- A stream ends (R105 END): its lease is released, and its ring closes when the other end has ended too (R97). A fill
stream whose ring still holds slots keeps what their re-fetch needs (R111, R112). -/
def State.endStream (s : State) (n k : Nat) : State :=
  match s.stream n k with
  | none => s
  | some y => (s.modCore n fun c =>
      let rest := SMap.del k c.streams
      ({ c with streams := if bit y.desc 14 then rest
                           else SMap.put (endedKey y.ring) { y with ended := true, reqs := [] } rest }).closeEnded
        y.ring y.aborted).leaseFreed n

/-- The streams of a context that have not ended. -/
def Core.streamsOf (c : Core) (h : Nat) : SMap Stream := c.streams.filter fun e => e.2.ctx == h && !e.2.aborted && !e.2.ended

/-- The state code of a context as `core.ctx_state` shows it (R138, R149): a context saved for a kiln slice of the
resident client reads PREEMPTED when it has a run in progress. -/
def State.ctxCode (s : State) (n h : Nat) : Nat :=
  match s.saved.find? fun v => v.core == n && v.ctx == h && s.reg (0x4000 + v.part) 3 == v.client with
  | some v => if v.st.state.inRun then 6 else v.st.state.code
  | none => (s.ctx n h).state.code

/-- What the gate of a partition says to an update of step v (R202): none while it waits. -/
def State.gateSays (s : State) (p v : Nat) : Option Status :=
  let cur := s.reg (0x9400 + p) 1
  let st := s.reg (0x9400 + p) 2
  let prev := s.reg (0x9400 + p) 7
  if v = cur then
    match st with
    | 3 => some .ok
    | 4 => some .resteepMismatch
    | _ => none
  else if v = (cur + 1) % 2 ^ 32 then none
  else if v = fld prev 63 32 then (if fld prev 2 0 = 3 then some .ok else some .resteepMismatch)
  else some .recipeInvalid

/-- A context can take the core at a command boundary (R48): it has a next command to start, or its gated update has been
told by its gate to go on (R176). -/
def State.mayRun (s : State) (x : Ctx) : Bool :=
  x.state == .running && !x.halted && !x.preempt &&
  match x.cmd with
  | none => true
  | some k => k.phase == .gate && (s.gateSays x.part (opnd (opValues x k.word k.iter) 3)).isSome

/-- The runnable context that the rotation of R48 takes next: from the one after the last that issued. -/
def State.scan (s : State) (n : Nat) : Option Nat :=
  let c := s.core n
  ((List.range 4).map fun i => (c.issued + 1 + i) % 4).find? fun h => s.mayRun (c.ctx h)

/-- The command of a context keeps its core from the others: not while it waits at its step gate, nor at BARRIER or WAIT
(R48, R176). -/
def CmdRun.holdsCore (k : CmdRun) : Bool :=
  match k.phase with
  | .run => true
  | .last => cOp k.word != 0x48 && cOp k.word != 0x49
  | _ => false

/-! ### Saving and restoring (R79, R115, R142, R345) -/

/-- The stream back at the checkpoint of its slot: what it kept for the slot is dropped (R113). -/
def Stream.rewound (y : Stream) : Stream :=
  { y with regs := y.ckpt, rec_ := none, checked := [], idx := none, passed := false, resolved := [], accSeals := [],
           fetched := [], twice := [] }

/-- A stream leaves its slot for an earlier checkpoint: responses to its reads in flight are dropped as they arrive, and its
writes stay outstanding until they are acknowledged (R113). -/
def Stream.dropped (y : Stream) : Stream :=
  { y.rewound with reqs := y.reqs.map fun q => if q.write then q else { q with dead := true } }

/-- A stream stopped at its slot boundary (R113, R115). No write of it is outstanding then: the pre-emption waits for the
acknowledgements (R102); responses to its reads are dropped. -/
def Stream.park (y : Stream) : Stream :=
  match y.phase with
  | .atEnd => { y with reqs := [] }
  | .suspended => { y.rewound with reqs := [] }
  | _ => { y.rewound with phase := .running, reqs := [] }

/-- The banks that a context holds, as a mask (R76, R344). -/
def Core.banksOf (c : Core) (h : Nat) : Nat :=
  let a := ((c.streams.filter fun e => e.2.ctx == h).flatMap fun e => c.streamLeases e.2).map Lease.mask
  let b := (c.rings.filter fun e => e.2.ctx == h).map fun e => e.2.mask
  (a ++ b).foldl (fun m l => m ||| l) (c.ctx h).fillLease

/-- An aperture offset lies in a bank of a mask. -/
def inBanks (mask off : Nat) : Bool := decide (off < spLen) && bit mask (off / 0x3000)

/-- Save a context: its state, streams, rings, leased banks, region and grist words; its leases are released (R345).
A correctable word found on the way is corrected and counted; an uncorrectable one is poisoned, counted, and posted as a
KIND 2 fault record (R74, R79). The Bool says that an uncorrectable word was met. -/
def State.saveCtx (s : State) (n h : Nat) (kiln : Bool) : State × Bool :=
  let c := s.core n
  let x := c.ctx h
  let mask := c.banksOf h
  let base := spBase n
  let mine (a : Nat) : Bool := decide (base ≤ a) && inBanks mask (a - base)
  let hurt := s.flaws.filter fun e => mine e.1
  let bad := (hurt.filter fun e => errClass e.2 == 2).map (·.1)
  let s := (hurt.filter fun e => errClass e.2 == 1).foldl (fun s e => (s.readWord e.1 x.lastTag).1) s
  let s := bad.foldl (fun s w => ((s.foundBad w x.lastTag).report .eccUncorrectable n h x.lastTag).postBadWord n h 0 none) s
  let v : Saved :=
    { part := x.part, client := x.client, core := n, ctx := h,
      st := { x with preempt := false },
      streams := (c.streams.filter fun e => e.2.ctx == h).map fun e => (e.1, e.2.park),
      rings := c.rings.filter fun e => e.2.ctx == h,
      bytes := (s.mem.filter fun e => mine e.1).map fun e => (e.1 - base, e.2),
      poison := (s.poison.filter mine).map (· - base),
      recipe := c.recipe.filter fun e => decide (x.base ≤ e.1) && decide (e.1 < x.base + x.count),
      prog := c.prog.filter fun e => decide (x.progBase ≤ e.1) && decide (e.1 < x.progBase + x.progWords),
      carry := if c.exec_ == some h then c.carry else [], kiln := kiln }
  let s := { s with saved := s.saved ++ [v] }
  (s.modCore n fun c =>
    ({ c with streams := c.streams.filter fun e => e.2.ctx != h,
              rings := c.rings.filter fun e => e.2.ctx != h,
              tlb := c.tlb.filter fun e => e.ctx != h }.setCtx h {}).letGo h, !bad.isEmpty)

/-- The saved context of a core and context number for a client. -/
def State.savedOf (s : State) (n h p c : Nat) : Option Saved :=
  s.saved.find? fun v => v.core == n && v.ctx == h && v.part == p && v.client == c

/-- Remove a saved context. -/
def State.dropSaved (s : State) (n h p c : Nat) : State :=
  { s with saved := s.saved.filter fun v => !(v.core == n && v.ctx == h && v.part == p && v.client == c) }

/-- A recorded resume request takes effect when the context resumes (R281). -/
def resumeFault (y : Stream) : Stream :=
  match y.fault with
  | some f =>
    match f.resume with
    | some true => { y with phase := .running, fault := none }
    | _ => y
  | none => y

/-- A saved context whose verdict was formed meanwhile takes it as it resumes (R193). -/
def State.takeVerdict (s : State) (n h : Nat) : State :=
  let x := s.ctx n h
  match x.cmd with
  | some k =>
    match k.phase, k.verdict with
    | .held, some .ok => s.setCtx n h { x with state := .running, cmd := some { k with phase := .last } }
    | .held, some st => s.failCommand n h st
    | _, _ => s
  | none => s

/-- Restore a saved context to its core and number (R79, R115, R348): banks, leases, region, grist words; every
committed slot of a fill stream is validated again. -/
def State.restoreCtx (s : State) (v : Saved) : State :=
  let base := spBase v.core
  let mask := (({ streams := v.streams, rings := v.rings, ctxs := [(v.ctx, v.st)] } : Core)).banksOf v.ctx
  let mine (a : Nat) : Bool := decide (base ≤ a) && inBanks mask (a - base)
  let s := s.dropSaved v.core v.ctx v.part v.client
  let s := { s with
    mem := v.bytes.foldl (fun m (e : Nat × BitVec 8) => SMap.putD 0#8 (base + e.1) e.2 m) (s.mem.filter fun e => !mine e.1),
    poison := v.poison.foldl (fun l o => insertAsc (base + o) l) (s.poison.filter fun w => !mine w),
    flaws := s.flaws.filter fun e => !mine e.1 }
  let failing := v.streams.filter fun e => match e.2.fault with | some f => f.resume == some false | none => false
  let s := s.modCore v.core fun c =>
    { c with
      streams := v.streams.foldl (fun m (e : Nat × Stream) => SMap.put e.1 (resumeFault e.2) m) c.streams,
      rings := v.rings.foldl (fun m (e : Nat × Ring) => SMap.put e.1 { e.2 with hd := .unseen } m) c.rings,
      recipe := v.recipe.foldl (fun m (e : Nat × BitVec 256) => SMap.putD 0#256 e.1 e.2 m) c.recipe,
      prog := v.prog.foldl (fun m (e : Nat × BitVec 32) => SMap.putD 0#32 e.1 e.2 m) c.prog,
      carry := if v.carry.isEmpty then c.carry else v.carry,
      exec_ := if v.st.state != CtxState.waiting && v.st.cmd.any CmdRun.holdsCore then some v.ctx else c.exec_ }
  let s := s.setCtx v.core v.ctx v.st
  let s : State := { s with events := if v.streams.any (fun e => e.2.resident) then s.events ++ [.reread v.core] else s.events }
  (failing.foldl (fun s e => s.stopStream v.core e.1 .accessDenied) s).takeVerdict v.core v.ctx

end Sys2Proof.Machine
end

