-- ==== Sys2Proof/Machine/Fabric.lean ====
section
/-! DEFINITION. The sending side of the Ludjafa fabric: transaction headers (R307), flits (R297, R298), credits and the
retry buffer (R299, R300), routing and failover (R311, R312), and the issue of requests and responses (R308, R309). -/

namespace Sys2Proof.Machine

/-- Port g. -/
def State.port (s : State) (g : Nat) : Port := SMap.get {} s.ports g
/-- Write port g. -/
def State.setPort (s : State) (g : Nat) (x : Port) : State := { s with ports := SMap.putD {} g x s.ports }
/-- Link die x. -/
def State.lx (s : State) (x : Nat) : LinkDie := SMap.get {} s.lxs x
/-- Write link die x. -/
def State.setLx (s : State) (x : Nat) (l : LinkDie) : State := { s with lxs := SMap.putD {} x l s.lxs }
/-- Engine m. -/
def State.mx (s : State) (m : Nat) : Mx := SMap.get {} s.mxs m
/-- Write engine m. -/
def State.setMx (s : State) (m : Nat) (x : Mx) : State := { s with mxs := SMap.putD {} m x s.mxs }

/-- State code of a port (R302). -/
def State.portState (s : State) (g : Nat) : Nat := s.reg 0x5020 g
/-- A port is in service in ACTIVE and REPAIR (R311). -/
def State.inService (s : State) (g : Nat) : Bool := s.portState g == 5 || s.portState g == 6
/-- The link level of a port (R304, R315). -/
def State.linkLevel (s : State) (g : Nat) : Nat := fld (s.reg 0x5050 g) 15 8

/-- The 256-bit transaction header (R307). -/
def Txn.header (t : Txn) : Nat :=
  (t.aux % 2 ^ 64) <<< 192 + (t.addr % 2 ^ 47) <<< 145 + (t.len % 2 ^ 13) <<< 128 + (t.dest % 2 ^ 17) <<< 111
    + (t.src % 2 ^ 17) <<< 94 + (t.txn % 4096) <<< 82 + (t.srcLink % 16) <<< 78 + (min t.age 1023) <<< 68
    + (t.hops % 32) <<< 63 + (t.level % 256) <<< 55 + (t.op % 16) <<< 51 + (t.owner % 2 ^ 17) <<< 34
    + (t.resv / 2 ^ 34 % 16) <<< 141 + t.resv % 2 ^ 34

/-- The bytes of a transaction: header, then data (R307). -/
def Txn.bytes (t : Txn) : Bytes := natLe 32 t.header ++ t.data

/-- Read a transaction from its bytes, received in `bufs` flits of a port's virtual channel. Reserved header bits and every
byte of data are kept: a target checks them (R308), and a transit device carries them unchanged (R313). -/
def txnOfBytes (bs : Bytes) (port vc bufs : Nat) : Txn :=
  let h := leNat (sliceZ bs 0 32)
  { op := fld h 54 51, dest := fld h 127 111, src := fld h 110 94, txn := fld h 93 82, srcLink := fld h 81 78,
    age := fld h 77 68, hops := fld h 67 63, level := fld h 62 55, owner := fld h 50 34, addr := fld h 191 145,
    len := fld h 140 128, aux := fld h 255 192, resv := fld h 144 141 * 2 ^ 34 + fld h 33 0, data := bs.drop 32,
    port := port, sub := vc % 2, vc := vc, bufs := bufs }

/-- Traffic class of an opcode (R300). -/
def classOf (op : Nat) : Nat :=
  match op with
  | 3 => 1
  | 4 | 5 | 8 => 2
  | 9 | 0xA => 3
  | _ => 0

/-- Responses (R308). -/
def isResp (op : Nat) : Bool := op == 9 || op == 0xA

/-- The flit header (R297). -/
def flitHeader (seq ack : Nat) (ackValid nak : Bool) (vc : Nat) (first last : Bool) (kind len crVc cr : Nat) : Nat :=
  (seq % 4096) <<< 52 + (ack % 4096) <<< 40 + b2n ackValid <<< 39 + b2n nak <<< 38 + (vc % 8) <<< 35
    + b2n first <<< 34 + b2n last <<< 33 + (kind % 4) <<< 31 + (len % 256) <<< 23 + (crVc % 8) <<< 20 + (cr % 4096) <<< 8

/-- The 256 bytes of a flit, closed with its CRC, as one number (R297, R298). -/
def flitOf (hdr : Nat) (payload : Bytes) : Nat :=
  let body := natLe 8 hdr ++ sliceZ payload 0 244
  leNat (body ++ natLe 4 (crc32 body).toNat)

/-- The wavelength on which a logical lane of port g travels: λ8 for the lane that it replaces (R303). -/
def State.waveOf (s : State) (g lane : Nat) : Nat := if fld (s.reg 0x5060 g) 12 9 = lane then 8 else lane

/-- The wavelength of flit number n of port g: the active lanes in turn (R299). -/
def State.flitLane (s : State) (g n : Nat) : Nat :=
  let lanes := bitList (s.port g).active 9
  s.waveOf g ((lanes[n % max 1 lanes.length]?).getD 0)

/-- Send one flit on port g: its acknowledgement and credit fields are current (R299, R300). -/
def State.sendFlit (s : State) (g : Nat) (f : Option Sent) : State :=
  let x := s.port g
  let ack := (x.rxNext + 4095) % 4096
  let cr := SMap.get 0 x.freed x.crVc
  let hdr := match f with
    | some t => flitHeader t.seq ack x.rxAny x.nak t.vc t.first t.last 1 t.payload.length x.crVc cr
    | none => flitHeader x.seq ack x.rxAny x.nak 0 false false 0 0 x.crVc cr
  let lane := s.flitLane g x.flits
  let s := s.setPort g { x with crVc := (x.crVc + 1) % 8, nak := false, flits := x.flits + 1 }
  s.emit (.fabric g lane (flitOf hdr (match f with | some t => t.payload | none => [])))

/-- Credits available on a VC (R300). -/
def Port.credits (x : Port) (vc : Nat) : Nat := 256 - (SMap.get 0 x.sent vc + 4096 - SMap.get 0 x.crSeen vc) % 4096

/-- Flits of a transaction (R307). -/
def Txn.flits (t : Txn) : Nat := ceilDiv (32 + t.data.length) 244

/-- The rank of a waiting transaction in the sending order of R300: lower goes first. -/
def vcRank (accTurn : Bool) (vc : Nat) : Nat :=
  let sub := 1 - vc % 2
  match vc / 2 with
  | 3 => sub
  | 2 => 2 + sub
  | 1 => (if accTurn then 4 else 6) + sub
  | _ => (if accTurn then 6 else 4) + sub

/-- A waiting transaction may leave now: it is the first of its VC, and credits and retry buffer cover it. -/
def Port.sendable (x : Port) (e : Nat × Txn) : Bool :=
  decide (e.2.flits ≤ x.credits e.1) && decide (x.retry.length + e.2.flits ≤ 2047) &&
    ((x.outq.find? fun q => q.1 == e.1) == some e)

/-- The next transaction that port x sends (R300). -/
def Port.pick (x : Port) : Option (Nat × Txn) :=
  (x.outq.filter x.sendable).foldl (fun best e =>
    match best with
    | none => some e
    | some b => if vcRank x.accTurn e.1 < vcRank x.accTurn b.1 then some e else some b) none

/-- A transaction with its residence here added to its age, rounded up to whole microseconds (R309). -/
def Txn.aged (t : Txn) (now : Nat) : Txn := { t with age := min 1023 (t.age + ceilDiv (now - t.since) 1000), since := now }

/-- A received transaction leaves this device's flit buffers, and the sender may learn of it (R300). -/
def State.freeBufs (s : State) (t : Txn) : State :=
  if t.bufs = 0 then s
  else
    let x := s.port t.port
    s.setPort t.port { x with freed := SMap.put t.vc ((SMap.get 0 x.freed t.vc + t.bufs) % 4096) x.freed }

/-- Put the flits of one transaction on port g (R299, R300). -/
def State.launch (s : State) (g : Nat) (e : Nat × Txn) : State :=
  let x := s.port g
  let cs := chunks 244 (e.2.aged s.localNs).bytes
  let n := cs.length
  let fl : List Sent := (cs.zip (List.range n)).map fun p =>
    ⟨(x.seq + p.2) % 4096, e.1, p.2 == 0, p.2 + 1 == n, p.1⟩
  let s := s.setPort g { x with
    seq := (x.seq + n) % 4096, retry := x.retry ++ fl, outq := x.outq.erase e,
    sent := SMap.put e.1 ((SMap.get 0 x.sent e.1 + n) % 4096) x.sent,
    accTurn := if e.1 / 2 = 0 then true else if e.1 / 2 = 1 then false else x.accTurn }
  (fl.foldl (fun s f => s.sendFlit g (some f)) s).freeBufs e.2

/-- Send what an ACTIVE port can send; fuel bounds the transactions. -/
def State.pumpPort (s : State) (g : Nat) : Nat → State
  | 0 => s
  | fuel + 1 =>
    if s.portState g = 5 then
      match (s.port g).pick with
      | some e => (s.launch g e).pumpPort g fuel
      | none => s
    else s

/-- Queue a transaction on a port and send what can be sent. It leaves on sub-channel 1 when the port's dateline bit is set
or it has moved there before (R311). -/
def State.enqueue (s : State) (g : Nat) (date : Bool) (t : Txn) : State :=
  let x := s.port g
  let vc := 2 * classOf t.op + (if date then 1 else t.sub)
  let s := s.setPort g { x with outq := x.outq ++ [(vc, { t with since := s.localNs })] }
  s.pumpPort g (x.outq.length + 1)

/-- The route entry of a device (R310). -/
def State.routeOf (s : State) (dev : Nat) : Nat := s.reg (0x5100 + dev / 256) (dev % 256)

/-- The port in use of a route entry (R311). -/
def portInUse (e : Nat) : Nat := if bit e 27 then fld e 14 8 else fld e 6 0

/-- The port for a device, with its dateline bit (R311): none when there is no route. `from_` is the port of arrival. A
failover has set USING_ALT before (`State.failover`). -/
def State.route (s : State) (dev level : Nat) (from_ : Option Nat) : Option (Nat × Bool) :=
  let e := s.routeOf dev
  let g := portInUse e
  if !bit e 31 || !s.inService g || from_ == some g || decide (s.linkLevel g < level) then none
  else some (g, if bit e 27 then bit e 28 else bit e 29)

/-- What issuing a request gives. -/
inductive Issue where
  | sent (x txn : Nat)
  | wait                 -- no transaction number is free (R107)
  | refused (st : Status)
  deriving DecidableEq, Repr

/-- Issue a request to another device (R270, R308, R309, R312): the egress link die allocates its number. -/
def State.issue (s : State) (t : Txn) (asker : Asker) : State × Issue :=
  if s.reg 0x5000 0 = 0xFFFFFFFF || s.holds.contains t.dest then (s, .refused .remoteUnreachable)
  else
    match s.route t.dest t.level none with
    | none => (s, .refused .remoteUnreachable)
    | some (g, date) =>
      let x := g / 8
      let l := s.lx x
      match (List.range 4096).find? fun k => (SMap.find? k l.outst).isNone with
      | none => (s, .wait)
      | some k =>
        let t := { t with txn := k, srcLink := x, src := s.ownId, hops := s.reg 0x5000 3, age := 0 }
        let s := s.setLx x { l with outst := SMap.put k { dest := t.dest, op := t.op, len := t.len, port := g,
                                                          since := s.localNs, asker := asker } l.outst }
        (s.enqueue g date t, .sent x k)

/-- The cached epoch of a device is dropped (R314). -/
def State.dropEpoch (s : State) (dev : Nat) : State := { s with epochs := s.epochs.filter fun p => p.1 != dev }

/-- The AUX of a response (R308). -/
def respAux (incarnation epoch level : Nat) (st : Status) : Nat :=
  (incarnation % 65536) <<< 32 + (epoch % 256) <<< 24 + (level % 256) <<< 16 + st.code

/-- Answer a request (R308): the response goes to its source with its number and link die. -/
def State.respond (s : State) (q : Txn) (st : Status) (data : Bytes := []) (incarnation : Nat := 0) : State :=
  let op := if q.op = 2 then 0xA else 9
  let t : Txn := { op := op, dest := q.src, src := s.ownId, txn := q.txn, srcLink := q.srcLink, hops := s.reg 0x5000 3,
                   len := data.length, aux := respAux incarnation (s.reg 0x5000 2) (s.reg 0x5000 1) st, data := data }
  match s.route q.src 1 none with
  | some (g, date) => s.enqueue g date t
  | none => s

end Sys2Proof.Machine
end

