-- ==== Sys2Proof/Machine/Streams.lean ====
section
/-! DEFINITION. The stream engine: the register effects of grist instructions (R103, R105), requests and stream tags
(R106, R107), suspension on a translation fault (R113, R279), seal checks (R357), generation records (R111), and the
passes that re-execute a slot: the translate-only pass (R114) and the re-fetch (R112). A pass runs inside one step as far as
local bytes carry it; where it needs bytes of another device or of a host it asks for them and is taken up again. -/

namespace Sys2Proof.Machine

/-! ### Registers -/

/-- Set an address register. -/
def SRegs.setAr (r : SRegs) (a : Nat) (v : BitVec 48) : SRegs := { r with ar := r.ar.setIfInBounds a v }
/-- Address register a. -/
def SRegs.getAr (r : SRegs) (a : Nat) : BitVec 48 := (r.ar[a]?).getD 0
/-- Increment register i, signed. -/
def SRegs.getIr (r : SRegs) (i : Nat) : BitVec 32 := (r.ir[i]?).getD 0
/-- Loop counter l. -/
def SRegs.getLc (r : SRegs) (l : Nat) : BitVec 24 := (r.lc[l]?).getD 0

/-- Sign extension to 48 bits: address arithmetic is modulo 2^48 (R103). -/
def sx48 {w : Nat} (v : BitVec w) : BitVec 48 := v.signExtend 48

/-- SETA: AR ← (P[PY][15:0] << 32) | P[PX] (R105). -/
def setaVal (x : Ctx) (px py : Nat) : BitVec 48 := BitVec.ofNat 48 ((x.param py % 65536) <<< 32 + x.param px)

/-- The index after the ENDL that matches a LOOP, searched from `pc` with `depth` further levels open. -/
def matchEndl (prog : SMap (BitVec 32)) : Nat → Nat → Nat → Nat
  | 0, pc, _ => pc
  | fuel + 1, pc, depth =>
    match decodeGrist (SMap.get 0#32 prog pc).toNat with
    | some (.endl ..) => if depth = 0 then pc + 1 else matchEndl prog fuel (pc + 1) (depth - 1)
    | some (.loopImm ..) | some (.loopReg ..) => matchEndl prog fuel (pc + 1) (depth + 1)
    | _ => matchEndl prog fuel (pc + 1) depth

/-- LOOP with a count (R105): the body is entered, or skipped when the count is 0. -/
def SRegs.loop (r : SRegs) (prog : SMap (BitVec 32)) (lvl count : Nat) : SRegs :=
  if count % 2 ^ 24 = 0 then { r with pc := matchEndl prog 1024 (r.pc + 1) 0, lc := r.lc.setIfInBounds lvl 0 }
  else { r with pc := r.pc + 1, lc := r.lc.setIfInBounds lvl (BitVec.ofNat 24 count),
                ret := r.ret.setIfInBounds lvl (r.pc + 1) }

/-- The increments of ENDL (R105). -/
def SRegs.endlIncs (r : SRegs) (amask : Nat) (sel : List Nat) : SRegs :=
  (List.range 4).foldl (fun r a =>
    if bit amask a then r.setAr a (r.getAr a + sx48 (r.getIr ((sel[a]?).getD 0))) else r) r

/-- ENDL: increments, then the counter falls, and execution returns to the body while it is not 0 (R105). -/
def SRegs.endl (r : SRegs) (lvl amask : Nat) (sel : List Nat) : SRegs :=
  let r := r.endlIncs amask sel
  let lc := r.getLc lvl - 1
  let r := { r with lc := r.lc.setIfInBounds lvl lc }
  if lc = 0 then { r with pc := r.pc + 1 } else { r with pc := (r.ret[lvl]?).getD 0 }

/-- The registers after an instruction that moves no data (R105). -/
def SRegs.plain (r : SRegs) (x : Ctx) (prog : SMap (BitVec 32)) : Grist → SRegs
  | .seta ar px py => { r.setAr ar.val (setaVal x px.val py.val) with pc := r.pc + 1 }
  | .addaImm ar imm => { r.setAr ar.val (r.getAr ar.val + 32 * sx48 (BitVec.ofNat 21 imm.val)) with pc := r.pc + 1 }
  | .addaReg ar ir => { r.setAr ar.val (r.getAr ar.val + sx48 (r.getIr ir.val)) with pc := r.pc + 1 }
  | .setiImm ir imm =>
    { r with ir := r.ir.setIfInBounds ir.val ((BitVec.ofNat 23 imm.val).signExtend 32), pc := r.pc + 1 }
  | .setiReg ir px => { r with ir := r.ir.setIfInBounds ir.val (BitVec.ofNat 32 (x.param px.val)), pc := r.pc + 1 }
  | .loopImm lvl c => r.loop prog lvl.val c.val
  | .loopReg lvl px => r.loop prog lvl.val (x.param px.val)
  | .endl lvl m s3 s2 s1 s0 => r.endl lvl.val m.val [s0.val, s1.val, s2.val, s3.val]
  | .arrive _ _ => { r with pc := r.pc + 1, arr := r.arr + 1 }
  | _ => { r with pc := r.pc + 1 }

/-- The registers after a LOAD or STORE of `total` bytes (R105). -/
def SRegs.moved (r : SRegs) (ar : Nat) (post : Bool) (total : Nat) : SRegs :=
  let r := if post then r.setAr ar (r.getAr ar + BitVec.ofNat 48 total) else r
  { r with pc := r.pc + 1, cursor := r.cursor + total, done := 0 }

/-- The registers after a GATHER or SCATTER of `rows` rows of `len` bytes (R105). -/
def SRegs.gathered (r : SRegs) (ai rows len : Nat) : SRegs :=
  let r := r.setAr ai (r.getAr ai + BitVec.ofNat 48 (4 * rows))
  { r with pc := r.pc + 1, cursor := r.cursor + rows * len, done := 0 }

/-- The address of row j with index x: AR + x × IR (R105). -/
def SRegs.rowAddr (r : SRegs) (ab irs x : Nat) : Nat :=
  (r.getAr ab + BitVec.ofInt 48 ((x : Int) * (r.getIr irs).toInt)).toNat

/-- The registers at the first instruction of the next slot, after EMIT or FREE. -/
def SRegs.nextSlot (r : SRegs) : SRegs := { r with pc := r.pc + 1, cursor := 0, slotNo := r.slotNo + 1, done := 0 }

/-! ### Looking up -/

/-- The instruction at an index of program memory. -/
def Core.gristAt (c : Core) (pc : Nat) : Option Grist :=
  if pc < 1024 then decodeGrist (SMap.get 0#32 c.prog pc).toNat else none

/-- A stream that can execute its next instruction, with that instruction. -/
def State.ready (s : State) (n k : Nat) : Option (Stream × Grist) :=
  match s.stream n k with
  | some y =>
    if y.phase == .running && !y.ended && !y.resident && !(s.core n).maint then
      ((s.core n).gristAt y.regs.pc).map (y, ·)
    else none
  | none => none

/-- The fill stream that serves a ring, running or past END. -/
def Core.fillOf (c : Core) (rn h : Nat) : Option (Nat × Stream) :=
  List.find? (fun e : Nat × Stream => e.2.ring == rn && e.2.ctx == h && !bit e.2.desc 14) c.streams

/-- The slot size of a stream's ring. -/
def State.slotSize (s : State) (n : Nat) (y : Stream) : Nat :=
  match s.ring n y.ring with
  | some r => r.slotBytes
  | none => 0

/-- A drain stream. -/
def Stream.drains (y : Stream) : Bool := bit y.desc 14

/-! ### Tags and limits (R107, R263) -/

/-- A stream misses the TLB: it joins the walks of its die in order of arrival (R277). -/
def State.joinWalks (s : State) (n k : Nat) (y : Stream) (va : Nat) (write : Bool) : State :=
  let s := s.setStream n k { y with phase := .walking va write }
  { s with walkQ := ((s.walkQ.filter fun e => e != (n, k)).filter fun e =>
      (s.stream e.1 e.2).any fun y => match y.phase with | .walking .. => true | _ => false) ++ [(n, k)] }

/-- The MX die that holds a granule's counter, when a write to it is accepted by another MX die (R264). -/
def State.incrOwner (s : State) (a : Nat) : Option Nat :=
  match place a with
  | .lpddr => if (s.lpDecode a).1 = a / 65536 % 16 then none else some (a / 65536 % 16)
  | _ => none

/-! ### Suspension (R113, R279) -/

/-- A translation fault suspends a stream at its slot boundary: registers back at the checkpoint, responses in flight
dropped, a fault record of KIND 0 posted. An aborted drain does not resume: it ends there, its ring closes, and the record
of the abort names its slot (R116). -/
def State.suspend (s : State) (n k va cause level : Nat) : State :=
  match s.stream n k with
  | none => s
  | some y =>
    let x := s.ctx n y.ctx
    let at_ := s.faultPlace n k y
    let d := cause * 16 + level
    let f : PFault := ⟨(s.core n).faultSeq, va, d, none⟩
    let s := s.setStream n k { y.dropped with phase := .suspended, fault := some f }
    let s := s.bump 32 0x8901 (n / 256) 1
    let s := s.report .translationFault n y.ctx x.lastTag
    let s := s.postFault { kind := 0, status := .translationFault, detail := d, va := va, stream := some at_, tag := x.lastTag,
                           index := x.lastIdx, part := x.part, client := x.client, core := n, ctx := y.ctx }
    if y.aborted then
      ((s.modCore n fun c => ({ c with streams := SMap.del k c.streams }).closeEnded y.ring true).leaseFreed n).postFault
        { kind := 1, status := .aborted, va := va, stream := some at_, tag := x.lastTag, index := x.lastIdx,
          part := x.part, client := x.client, core := n, ctx := y.ctx }
    else s

/-! ### Generation records (R111) -/

/-- Add granules to the records of a slot: at most 32; a slot with more is unrecorded. -/
def SlotRec.add (x : SlotRec) (gs : List (Nat × Nat)) : SlotRec :=
  gs.foldl (fun x g =>
    if x.gens.any fun e => e.1 == g.1 then x
    else if x.gens.length < 32 then { x with gens := x.gens ++ [g] } else { x with unrecorded := true }) x

/-- The granules of tun and LPDDR5X that a local read touched join the records of the slot (R89, R111). -/
def State.noteRead (s : State) (x : SlotRec) (a len : Nat) : SlotRec := x.add (s.gensOf a len)

/-- A fill stream issues a read of its slot: the first one sets the time of the slot's first read, whatever device it goes
to (R111, R112). -/
def State.noteFirst (s : State) (n k : Nat) : State :=
  match s.stream n k with
  | some y =>
    if bit y.desc 14 || y.ended then s
    else
      let x := y.rec_.getD { ckpt := y.ckpt }
      s.setStream n k { y with rec_ := some { x with firstRead := some (x.firstRead.getD s.localNs) } }
  | none => s

/-! ### Issuing requests -/

/-- Lo-plane pages are open to streams of OPT_UPDATE and CHECKPOINT only (R69). -/
def Stream.loPlane (y : Stream) : Bool := y.op == 0x30 || y.op == 0x3A

/-- What becomes of a request that a stream presents. -/
inductive Went where
  | left      -- it left
  | denied    -- it is ready and was not granted, or it found no tag (R120)
  | other     -- the stream walks, waits for data, or has stopped or been suspended
  deriving DecidableEq, Repr

/-- Slot offsets that mark a request which fills no slot byte: a group of eight indices (R108), bytes that a pass or a seal
check of the stream needs, and bytes that a re-fetch of its ring needs. -/
def idxMark : Nat := 0x10000
/-- See `idxMark`. -/
def passMark : Nat := 0x20000
/-- See `idxMark`. -/
def refMark : Nat := 0x30000

/-- The key of a resolved translation: virtual page and access. -/
def pageKey (va : Nat) (write : Bool) : Nat := 2 * (va / 65536) + b2n write

/-- Translate for a stream. After the translate-only pass of its slot, what the pass resolved stands (R114). -/
def State.resolve (s : State) (n : Nat) (y : Stream) (va : Nat) (write : Bool) : State × Xl :=
  match if y.passed then SMap.find? (pageKey va write) y.resolved else none with
  | some g => (s, .ok (g / 65536 * 65536 + va % 65536) (bit g 0))
  | none => s.translate n y.ctx va write

/-- The global address of a request of a stream (R106, R107, R277, R69): none when it has to wait for a tag or a walk,
or when it stopped or suspended the stream. A seal check needs no tag of its own: it goes under that of the request that
met the block. -/
def State.locate (s : State) (n k : Nat) (y : Stream) (va len : Nat) (write : Bool) (tag : Bool := true) :
    State × (Nat ⊕ Went) :=
  if va % 32 ≠ 0 || len % 32 ≠ 0 then (s.stopStream n k .accessDenied, .inr .other)
  else if tag && !s.tagFree n y then (s, .inr .denied)
  else match s.resolve n y va write with
    | (s, .miss) => (s.joinWalks n k y va write, .inr .other)
    | (s, .fault c l) => (s.suspend n k va c l, .inr .other)
    | (s, .stop st) => (s.stopStream n k st va, .inr .other)
    | (s, .ok g lo) =>
      if lo && !y.loPlane then (s.stopStream n k .accessDenied, .inr .other) else (s, .inl g)

/-- Add an outstanding request. -/
def State.addReq (s : State) (n k : Nat) (q : Req) : State :=
  match s.stream n k with
  | some y => s.setStream n k { y with reqs := y.reqs ++ [q] }
  | none => s

/-- Issue one request to another device (R270): what became of it. -/
def State.issueRemote (s : State) (n k op : Nat) (q : Req) (data : Bytes) : State × Went :=
  let t : Txn := { op := op, dest := devOf q.gaddr, src := 0, hops := 0, addr := locOf q.gaddr,
                   len := if op = 4 then 0 else q.len, data := data }
  match s.issue t (.stream n k q.va) with
  | (s, .sent x txn) =>
    (s.addReq n k { q with write := op != 2, ready := false, remote := true, txn := x * 4096 + txn }, .left)
  | (s, .wait) => (s, .denied)
  | (s, .refused st) => (s.stopStream n k st, .other)

/-- The valid seal region of a client that holds a virtual block address: base block number and seal array. -/
def State.sealRegion (s : State) (p c va : Nat) : Option (Nat × Nat) :=
  (List.range 32).findSome? fun i =>
    let w := s.reg (0x6100 + p) (32 * c + i)
    let b := fld w 55 20
    if bit w 0 && decide (b ≤ va / 4096) && decide (va / 4096 < b + fld w 79 56) then some (b, fld w 127 80) else none

/-- The read lies in a sealed block that the slot has not checked: its whole block is read (R357). -/
def State.readsBlock (s : State) (n : Nat) (y : Stream) (va : Nat) : Bool :=
  let x := s.ctx n y.ctx
  !y.drains && !y.checked.contains (va / 4096) && (s.sealRegion x.part x.client va).isSome

/-- Issue one read request of a stream, for byte `off` of its slot or for the purpose that `off` marks. -/
def State.readFor (s : State) (n k va len off : Nat) (want : Option (Nat × Nat)) (tag : Bool) : State × Went :=
  match s.stream n k with
  | none => (s, .other)
  | some y =>
    match s.locate n k y va len false tag with
    | (s, .inr w) => (s, w)
    | (s, .inl g) =>
      let p := (s.ctx n y.ctx).part
      let a := locOf g
      let q : Req := { write := false, gaddr := g, va := va, len := len, off := off, ready := false, want := want }
      let s' := if off = passMark || off = refMark then s else s.noteFirst n k
      if devOf g = s.ownId then
        match s.streamCheck n p { y with ended := false } a len false false with
        | some st => (s.stopStream n k st va, .other)
        | none =>
          if s.accessWaits a len then (s, .denied)
          else match place a, s.apertureSeg a with
            | .aperture .., some (port, w, o) =>
              if s.qpState port (fld w 31 22) = 1 then
                ((s'.qpSend port (fld w 31 22) true ((fld w 127 64 + o) % 2 ^ 64) (fld w 63 32) len []
                  (.streamRead n k va)).addReq n k q, .left)
              else (s.stopStream n k .remoteUnreachable, .other)
            | .lpddr, _ => (s'.addReq n k q, .left)
            | _, _ => (s'.addReq n k { q with ready := true }, .left)
      else s'.issueRemote n k 2 q []

/-- Issue one read request of a transfer into byte `off` of its slot; in a sealed block it reads the whole block (R357). -/
def State.issueRead (s : State) (n k va len off : Nat) : State × Went :=
  match s.stream n k with
  | none => (s, .other)
  | some y =>
    if s.readsBlock n y va then s.readFor n k (va / 4096 * 4096) 4096 off (some (va, len)) true
    else s.readFor n k va len off none true

/-- The stream writes for CHECKPOINT (R268). -/
def Stream.checkpoints (y : Stream) : Bool := y.op == 0x3A

/-- Record one arrival of a stream: the registers pass it, and it is never repeated (R113). -/
def Stream.arrived (y : Stream) : Stream :=
  { y with regs := { y.regs with arr := y.regs.arr + 1 }, arrMax := max y.arrMax (y.regs.arr + 1) }

/-- A qualifying write to the barrier arrival range of this device or another (R272). -/
def isArrival (a len : Nat) : Bool :=
  match place a with
  | .arrival _ _ off => off == 0 && len == 32
  | _ => false

/-- Issue one plain write request of a stream (R73, R88, R272). -/
def State.issueWrite (s : State) (n k va off : Nat) (bs : Bytes) : State × Went :=
  match s.stream n k with
  | none => (s, .other)
  | some y =>
    match s.locate n k y va bs.length true with
    | (s, .inr w) => (s, w)
    | (s, .inl g) =>
      let x := s.ctx n y.ctx
      let a := locOf g
      let len := bs.length
      let q : Req := { write := true, gaddr := g, va := va, len := len, off := off, ready := true }
      let arr := isArrival a len
      if arr && decide (y.regs.arr < y.arrMax) then
        (s.setStream n k { y with regs := { y.regs with arr := y.regs.arr + 1 } }, .left)
      else if arr && !(y.reqs.filter fun r => r.write).isEmpty then (s, .other)
      else if devOf g = s.ownId then
        match s.streamCheck n x.part y a len true false with
        | some st => (s.stopStream n k st, .other)
        | none =>
          if s.accessWaits a len then (s, .denied)
          else match place a, s.apertureSeg a with
            | .aperture .., some (port, w, o) =>
              if s.qpState port (fld w 31 22) = 1 then
                ((s.qpSend port (fld w 31 22) false ((fld w 127 64 + o) % 2 ^ 64) (fld w 63 32) len bs
                  (.streamWrite n k va)).addReq n k { q with ready := false }, .left)
              else (s.stopStream n k .remoteUnreachable, .other)
            | .arrival d b _, _ =>
              let s := s.arriveAt d b
              (match s.stream n k with
                | some y => s.setStream n k { y.arrived with reqs := y.reqs ++ [q] }
                | none => s, .left)
            | _, _ =>
              let own := s.incrOwner a
              match s.writeLocal (.stream y.checkpoints) a bs own.isNone x.lastTag with
              | (s, .ok) =>
                let s := match own with
                  | some m => let e := s.mx m
                    s.setMx m { e with incr := e.incr ++ [(a / 65536, n, k, va)] }
                  | none => s
                (s.addReq n k { q with ready := own.isNone, owner := own }, .left)
              | (s, st) => (s.stopStream n k st va, .other)
      else
        let r := s.issueRemote n k (if arr then 4 else 1) q (if arr then [] else bs)
        if r.2 = .left && arr then
          (match r.1.stream n k with
            | some y => r.1.setStream n k y.arrived
            | none => r.1, .left)
        else r

/-- The status with which a barrier access of a partition is refused (R117). An object that no partition owns is refused as
another partition's (DESIGN CHOICE, log entry 63: R117 names no status for it; R273 refuses an object that the partition
does not own). -/
def State.barRefusal (s : State) (p d b : Nat) : Option Status :=
  if s.fused d then some .engineAbsent
  else if (s.barrier d b).owner = some p then none else some .accessDenied

/-- The engine of a destination block (R233): that of its lauter buffer, or of the package that holds it. -/
def State.homeEngine (s : State) (a : Nat) : Option Nat :=
  match place a with
  | .lauter => some ((a - 0x12000000000) / 0x4000000)
  | .lpddr => some (s.lpDecode a).1
  | _ => none

/-- The 64-bit contribution header (R238). -/
def contribHeader (sl epoch gen source kind : Nat) : Nat :=
  (sl % 2 ^ 32) <<< 32 + (epoch % 256) <<< 24 + (gen % 256) <<< 16 + (source % 4096) <<< 4 + (kind % 4) <<< 2

/-- The bytes of a contribution that travel: a thinned record without its last 16 (R239, R240). -/
def accPayload (acc : Nat) (bs : Bytes) : Bytes := if acc = 1 then bs else bs.take 144

/-- Issue one accumulate of a stream (R238 to R240): it goes to the engine of this device with the destination's MX
index (R234), under the seal that the translate-only pass computed, and holds its tag until it is accepted. -/
def State.issueAccum (s : State) (n k va off acc : Nat) (bs : Bytes) : State × Went :=
  match s.stream n k with
  | none => (s, .other)
  | some y =>
    let want := if acc = 1 then 4096 else 160
    if va % 4096 ≠ 0 || bs.length ≠ want then (s.stopStream n k .accessDenied, .other)
    else match s.locate n k y va bs.length true with
    | (s, .inr w) => (s, w)
    | (s, .inl g) =>
      let x := s.ctx n y.ctx
      let a := locOf g
      let check := if devOf g = s.ownId then s.streamCheck n x.part y a 4096 true true else none
      match check, s.homeEngine a with
      | some st, _ => (s.stopStream n k st, .other)
      | none, none => (s.stopStream n k .accessDenied, .other)
      | none, some m =>
        let hdr := contribHeader (SMap.get 0 y.accSeals off) (s.reg 0x5000 2) (s.reg 0x9210 2) (n / 256) (acc - 1)
        let e := s.mx m
        let s := s.setMx m { e with queue := e.queue ++ [⟨g, accPayload acc bs, hdr, some x.part, .stream n k va⟩] }
        let s := s.addReq n k { write := true, gaddr := g, va := va, len := bs.length, off := off, ready := false, acc := true }
        (match s.stream n k with
          | some y => s.setStream n k { y with accSent := true }
          | none => s, .left)

/-! ### Transfers -/

/-- The next request of a transfer at `va` of which `done` bytes have been issued: 32 B to 4 KiB within one aligned
4 KiB block (R107). -/
def nextPiece (va total done : Nat) : Nat × Nat :=
  let a := (va + done) % 2 ^ 48
  (a, min (total - done) (4096 - a % 4096))

/-- Note the progress of a transfer. -/
def State.progress (s : State) (n k done : Nat) : State :=
  match s.stream n k with
  | some y => s.setStream n k { y with regs := { y.regs with done := done } }
  | none => s

/-- The bytes of the taken slot that a drain stream moves, read through ECC. -/
def State.slotRead (s : State) (n : Nat) (y : Stream) (off len : Nat) : State × Status × Bytes :=
  match s.ring n y.ring with
  | some r => s.readSlot n r r.consPos off len
  | none => (s, .ringMisconfig, [])

/-- Issue one piece of a STORE or SCATTER row, in the mode of `ACC`. -/
def State.writePiece (s : State) (n k va len off acc : Nat) : State × Went :=
  match s.stream n k with
  | none => (s, .other)
  | some y =>
    match s.slotRead n y off len with
    | (s, .ok, bs) => if acc = 0 then s.issueWrite n k va off bs else s.issueAccum n k va off acc bs
    | (s, st, _) => (s.stopStream n k st, .other)

/-- Issue one piece of a transfer: a read, or a write in the mode of `ACC`. -/
def State.movePiece (s : State) (n k va len off : Nat) : Option Nat → State × Went
  | none => s.issueRead n k va len off
  | some m => s.writePiece n k va len off m

/-- Issue what a LOAD or STORE can issue now: `left` when all of it has. `fuel` bounds the requests. -/
def State.runMove (s : State) (n k va total off0 : Nat) (acc : Option Nat) : Nat → Nat → State × Went
  | 0, _ => (s, .other)
  | fuel + 1, done =>
    if total ≤ done then (s, .left)
    else
      let p := if acc = some 2 then (va, total) else nextPiece va total done
      match s.movePiece n k p.1 p.2 (off0 + done) acc with
      | (s, .left) => (s.progress n k (done + p.2)).runMove n k va total off0 acc fuel (done + p.2)
      | r => r

/-- Row progress of GATHER and SCATTER: row number and bytes of that row already issued. -/
def rowPos (done : Nat) : Nat × Nat := (done / 131072, done % 131072)

/-- The index of row j, when its group has been read. -/
def Stream.indexAt (y : Stream) (va : Nat) : Option Nat :=
  match y.idx with
  | some (g, bs) => if va / 32 * 32 = g then some (leNat (slice bs (va % 32) 4)) else none
  | none => none

/-- The group of indices at an address is on its way. -/
def Stream.asksIndex (y : Stream) (g : Nat) : Bool :=
  y.reqs.any fun q => !q.dead && q.off == idxMark && (q.want.getD (q.va, q.len)).1 == g

/-- Issue what a GATHER or SCATTER can issue now. -/
def State.runRows (s : State) (n k ab ai rows len irs : Nat) (acc : Option Nat) : Nat → State × Went
  | 0 => (s, .other)
  | fuel + 1 =>
    match s.stream n k with
    | none => (s, .other)
    | some y =>
      let r := y.regs
      let (j, b) := rowPos r.done
      if rows ≤ j then (s, .left)
      else
        let ia := (r.getAr ai + BitVec.ofNat 48 (4 * j)).toNat
        match y.indexAt ia with
        | none =>
          let g := ia / 32 * 32
          if y.asksIndex g then (s, .other)
          else match s.issueRead n k g 32 idxMark with
            | (s, .left) => (s, .other)
            | r => r
        | some x =>
          let base := r.rowAddr ab irs x
          let p := if acc = some 2 then (base, len) else nextPiece base len b
          match s.movePiece n k p.1 p.2 (r.cursor + j * len + b) acc with
          | (s, .left) =>
            let done := if b + p.2 = len then (j + 1) * 131072 else j * 131072 + b + p.2
            (s.progress n k done).runRows n k ab ai rows len irs acc fuel
          | q => q

/-! ### Passes inside one step -/

/-- More instructions than any slot can execute: 1,024 words under four loops of fewer than 2^24 turns. -/
def slotFuel : Nat := 2 ^ 110

/-- What a pass over a slot, or one of its accesses, gives. -/
inductive Pass where
  | done
  | fault (va cause level : Nat)
  | stop (st : Status) (va : Nat)
  | need (va len : Nat)     -- bytes of another device or a host have to arrive first
  | blocked                 -- a WAIT does not hold yet, or a local access waits
  deriving DecidableEq, Repr

/-- What a read inside a pass gives: its outcome, the granules it touched, and its bytes. -/
structure PassRead where
  out  : Pass
  gens : List (Nat × Nat) := []
  data : Bytes := []

/-- Read bytes inside a pass as the stream would: translation, lo planes, lease, segment and aperture checks, then ECC
(R69, R80, R85, R273, R277). Bytes of another device or of a host come from what has arrived for the pass. -/
def State.passRead (s : State) (n : Nat) (y : Stream) (cache : List (Nat × Bytes)) (va len : Nat) : State × PassRead :=
  let x := s.ctx n y.ctx
  match s.translateNow n y.ctx x.part x.client va false with
  | (s, .fault c l) => (s, { out := .fault va c l })
  | (s, .stop st) => (s, { out := .stop st va })
  | (s, .miss) => (s, { out := .blocked })
  | (s, .ok g lo) =>
    let a := locOf g
    if lo && !y.loPlane then (s, { out := .stop .accessDenied va })
    else
      let far := match place a with | .aperture .. => true | _ => devOf g != s.ownId
      match far, cache.find? fun e => e.1 == va && e.2.length == len with
      | true, some e => (s, { out := .done, data := e.2 })
      | true, none => (s, { out := .need va len })
      | false, _ =>
        match s.streamCheck n x.part { y with ended := false } a len false false with
        | some st => (s, { out := .stop st va })
        | none =>
          if s.heldAccess a len then (s, { out := .blocked })
          else match s.readMem a len x.lastTag with
            | (s, .ok, bs) => (s, { out := .done, gens := s.gensOf a len, data := bs })
            | (s, st, _) => (s, { out := .stop st va })

/-- Visit the pieces of a transfer, in order, until one is not done. -/
def overPieces (f : State → Nat → Nat → Nat → State × Pass) (va total off : Nat) : Nat → Nat → State → State × Pass
  | 0, _, s => (s, .done)
  | fuel + 1, done, s =>
    if total ≤ done then (s, .done)
    else
      let p := nextPiece va total done
      match f s p.1 p.2 (off + done) with
      | (s, .done) => overPieces f va total off fuel (done + p.2) s
      | r => r

/-- The pass of a drain stream resolves the read translations of its indices too (R114). -/
def State.noteResolved (s : State) (n k va : Nat) (write : Bool) : State :=
  match s.stream n k with
  | none => s
  | some y =>
    match s.translate n y.ctx va write with
    | (s, .ok g lo) =>
      s.setStream n k { y with resolved := SMap.put (pageKey va write) (g / 65536 * 65536 + b2n lo) y.resolved }
    | (s, _) => s

/-- Read one index of a pass: the aligned group of eight that holds it (R108). -/
def State.passIndex (s : State) (n k : Nat) (y : Stream) (cache : List (Nat × Bytes)) (va : Nat) : State × Pass × Nat :=
  match s.passRead n y cache (va / 32 * 32) 32 with
  | (s, { out := .done, data := bs, .. }) =>
    (if y.drains then s.noteResolved n k va false else s, .done, leNat (slice bs (va % 32) 4))
  | (s, r) => (s, r.out, 0)

/-- Visit the rows of a GATHER or SCATTER. -/
def State.passRows (s : State) (n k : Nat) (y : Stream) (cache : List (Nat × Bytes))
    (f : State → Nat → Nat → Nat → State × Pass) (r : SRegs) (ab ai rows len irs : Nat) : Nat → Nat → State × Pass
  | 0, _ => (s, .done)
  | fuel + 1, j =>
    if rows ≤ j then (s, .done)
    else match s.passIndex n k y cache (r.getAr ai + BitVec.ofNat 48 (4 * j)).toNat with
      | (s, .done, x) =>
        match overPieces f (r.rowAddr ab irs x) len (r.cursor + j * len) 4096 0 s with
        | (s, .done) => s.passRows n k y cache f r ab ai rows len irs fuel (j + 1)
        | e => e
      | (s, e, _) => (s, e)

/-- A WAIT that a pass meets: a re-fetch evaluates it afresh (R113, R119); a drain's writes are outside the translate-only
pass, which waits for nothing. -/
def State.passWait (s : State) (n : Nat) (y : Stream) (mode d b px : Nat) : Pass :=
  if mode = 0 || y.drains then .done
  else
    let x := s.ctx n y.ctx
    match s.barRefusal x.part d b with
    | some st => .stop st 0
    | none => if (s.barrier d b).reached (x.param px % 65536) then .done else .blocked

/-- Re-execute the slot's instructions of stream k from given registers, visiting its transfers with `f`, whose first
argument is the `ACC` mode, until the instruction that ends the slot. Arrivals count as passed (R112 to R114). -/
def State.passSlot (s : State) (n k : Nat) (y : Stream) (cache : List (Nat × Bytes))
    (f : Nat → State → Nat → Nat → Nat → State × Pass) : Nat → SRegs → State × Pass
  | 0, _ => (s, .done)
  | fuel + 1, r =>
    match (s.core n).gristAt r.pc with
    | none => (s, .done)
    | some g =>
      let move (ar : Nat) (post : Bool) (total acc : Nat) : State × Pass :=
        match overPieces (f acc) (r.getAr ar).toNat total r.cursor 4096 0 s with
        | (s, .done) => s.passSlot n k y cache f fuel (r.moved ar post total)
        | e => e
      let rows (ab ai irl irs m acc : Nat) : State × Pass :=
        let len := (r.getIr irl).toNat
        match s.passRows n k y cache (f acc) r ab ai m len irs 256 0 with
        | (s, .done) => s.passSlot n k y cache f fuel (r.gathered ai m len)
        | e => e
      match g with
      | .emit _ | .free | .done => (s, .done)
      | .load ar post len => move ar.val post (32 * (len.val + 1)) 0
      | .store ar post acc len => move ar.val post (32 * (len.val + 1)) acc.val
      | .gather ab ai irl irs m => rows ab.val ai.val irl.val irs.val (m.val + 1) 0
      | .scatter ab ai irl irs m acc => rows ab.val ai.val irl.val irs.val (m.val + 1) acc.val
      | .wait mode d b px =>
        match s.passWait n y mode.val d.val b.val px.val with
        | .done => s.passSlot n k y cache f fuel (r.plain (s.ctx n y.ctx) (s.core n).prog g)
        | e => (s, e)
      | g => s.passSlot n k y cache f fuel (r.plain (s.ctx n y.ctx) (s.core n).prog g)

/-- Ask for bytes of another device or a host that a pass needs, unless they are on their way. -/
def State.askFor (s : State) (n k va len mark : Nat) (tag : Bool) : State × Went :=
  match s.stream n k with
  | none => (s, .other)
  | some y =>
    if y.reqs.any fun q => !q.dead && q.off == mark && q.va == va && q.len == len then (s, .other)
    else match s.readFor n k va len mark none tag with
      | (s, .left) => (s, .other)
      | r => r

/-- Keep the seal of a contribution at a slot offset (R238). -/
def State.noteAccSeal (s : State) (n k off acc : Nat) (bs : Bytes) : State :=
  match s.stream n k with
  | some y => s.setStream n k { y with accSeals := SMap.put off (crc32c (accPayload acc bs)).toNat y.accSeals }
  | none => s

/-- The visit of the translate-only pass (R114): the translation is resolved and kept, and the seal of a contribution is
computed from the slot's bytes (R238). -/
def State.visitTranslate (n k : Nat) (y : Stream) (acc : Nat) (s : State) (va len off : Nat) : State × Pass :=
  let x := s.ctx n y.ctx
  match s.translateNow n y.ctx x.part x.client va true with
  | (s, .fault c l) => (s, .fault va c l)
  | (s, .stop st) => (s, .stop st va)
  | (s, _) =>
    let s := s.noteResolved n k va true
    if acc = 0 then (s, .done)
    else match s.slotRead n y off len with
      | (s, .ok, bs) => (s.noteAccSeal n k off acc bs, .done)
      | (s, st, _) => (s, .stop st va)

/-- The translate-only pass (R114): every translation of the slot, then its seal against the bytes read. `left` when it
has succeeded. -/
def State.translateOnly (s : State) (n k : Nat) : State × Went :=
  match s.stream n k with
  | none => (s, .other)
  | some y =>
    match s.passSlot n k y y.fetched (State.visitTranslate n k y) slotFuel y.ckpt with
    | (s, .fault va c l) => (s.suspend n k va c l, .other)
    | (s, .stop st va) => (s.stopStream n k st va, .other)
    | (s, .need va len) => s.askFor n k va len passMark true
    | (s, .blocked) => (s, .other)
    | (s, .done) =>
      match s.ring n y.ring, s.stream n k with
      | some r, some y =>
        match s.readSlot n r r.consPos 0 r.slotBytes with
        | (s, .ok, bs) =>
          if (crc32c bs).toNat = SMap.get 0 r.seals r.consPos then (s.setStream n k { y with passed := true }, .left)
          else (s.stopStream n k .sealFail, .other)
        | (s, st, _) => (s.stopStream n k st, .other)
      | _, _ => (s.stopStream n k .ringMisconfig, .other)

/-! ### Seal regions (R356, R357) -/

/-- What a seal check works on: what has arrived from other devices, and the blocks in their second reading. -/
structure SealTry where
  cache : List (Nat × Bytes)
  twice : List Nat

/-- Check a block, read whole, against its seal (R357): the first time with the bytes that its request returned, and when
the seal differs once more with the block and the seal read anew. It answers what it worked on, the slot's records with
those of the seal reads, and the bytes of the block that passed. Fuel 2 covers both readings. -/
def State.sealCheck (s : State) (n : Nat) (y : Stream) (w : SealTry) (rec_ : SlotRec) (base : Nat) (got : Bytes) :
    Nat → State × Pass × SealTry × SlotRec × Bytes
  | 0 => (s, .blocked, w, rec_, got)
  | fuel + 1 =>
    let x := s.ctx n y.ctx
    match s.sealRegion x.part x.client base with
    | none => (s, .done, w, rec_, got)
    | some (b, sva) =>
      let sa := (sva + 4 * (base / 4096 - b)) % 2 ^ 48
      let again := w.twice.contains (base / 4096)
      match if again then s.passRead n y w.cache base 4096 else (s, { out := .done, data := got }) with
      | (s, { out := .done, gens := g1, data := blk }) =>
        match s.passRead n y w.cache (sa / 32 * 32) 32 with
        | (s, { out := .done, gens := g2, data := sl }) =>
          let rec_ := (rec_.add g1).add g2
          if (crc32c blk).toNat = leNat (slice sl (sa % 32) 4) then (s, .done, w, rec_, blk)
          else if again then (s.bump 32 0x8E00 0 1, .stop .sealFail base, w, rec_, blk)
          else s.sealCheck n y ⟨w.cache.filter fun e => e.1 != base && e.1 != sa / 32 * 32, (base / 4096) :: w.twice⟩
            rec_ base got fuel
        | (s, r) => (s, r.out, w, rec_, got)
      | (s, r) => (s, r.out, w, rec_, got)

/-! ### Re-fetch (R112) -/

/-- The reads of one piece in a re-fetch: the whole block with its seal check in a seal region, else the piece. `w` is what
the ring has gathered for the re-fetch. It answers the bytes of the piece. -/
def State.refetchPiece (s : State) (n : Nat) (y : Stream) (w : SealTry) (rec_ : SlotRec) (va len : Nat) :
    State × Pass × SealTry × SlotRec × Bytes :=
  let base := va / 4096 * 4096
  if s.readsBlock n y va then
    match s.passRead n y w.cache base 4096 with
    | (s, { out := .done, gens := g, data := blk }) =>
      match s.sealCheck n y w (rec_.add g) base blk 2 with
      | (s, .done, w, rec_, blk) => (s, .done, w, rec_, slice blk (va % 4096) len)
      | e => e
    | (s, r) => (s, r.out, w, rec_, [])
  else match s.passRead n y w.cache va len with
    | (s, r) => (s, r.out, w, rec_.add r.gens, r.data)

/-- The visit of a re-fetch: the piece is read anew into the slot, with its records. -/
def State.visitRefetch (n rn : Nat) (y : Stream) (_acc : Nat) (s : State) (va len off : Nat) : State × Pass :=
  match s.ring n rn with
  | none => (s, .stop .ringMisconfig va)
  | some r =>
    let rec0 := (SMap.find? r.cur r.recs).getD { ckpt := y.ckpt }
    match s.refetchPiece n { y with checked := [] } ⟨r.fetched, r.twice⟩ rec0 va len with
    | (s, out, w, rec1, bs) =>
      match s.ring n rn with
      | none => (s, .stop .ringMisconfig va)
      | some r =>
        let r := { r with recs := SMap.put r.cur rec1 r.recs, fetched := w.cache, twice := w.twice }
        let s := s.setRing n rn r
        (if out = .done then s.writeSlot n r r.cur off bs else s, out)

/-- Take a re-fetch of the head slot of a ring as far as it goes: its instructions run again from the checkpoint, the slot
is overwritten in place, sealed afresh and delivered (R112). While bytes of another device or a host have still to
arrive, or a WAIT does not hold, the slot stays undelivered and the re-fetch is taken up again. -/
def State.goOnRefetch (s : State) (n rn : Nat) : State :=
  match s.ring n rn with
  | none => s
  | some r =>
    match SMap.find? r.cur r.recs, (s.core n).fillOf rn r.ctx with
    | some x, some (k, y) =>
      if r.hd != .refetching || y.phase == .suspended then s
      else
        let s := s.setRing n rn { r with recs := SMap.put r.cur { ckpt := x.ckpt, firstRead := x.firstRead } r.recs }
        match s.passSlot n k y r.fetched (State.visitRefetch n rn y) slotFuel x.ckpt with
        | (s, .fault va c l) =>
          let s := s.suspend n k va c l
          (match s.ring n rn with
            | some r => s.setRing n rn { r with recs := SMap.put r.cur { x with unrecorded := true } r.recs, hd := .again,
                                                fetched := [], twice := [] }
            | none => s)
        | (s, .stop st va) => s.stopStream n k st va
        | (s, .need va len) => (s.askFor n k va len refMark true).1
        | (s, .blocked) => s
        | (s, .done) =>
          match s.ring n rn with
          | none => s
          | some r =>
            let s := if r.twice.isEmpty then s else s.bump 32 0x8E00 1 r.twice.length
            s.setRing n rn { r with seals := SMap.put r.cur (s.slotSeal n r r.cur) r.seals, hd := .delivered, fetched := [],
                                    twice := [] }
    | _, _ => s

/-- Re-fetch the head slot of a ring (R112). -/
def State.refetch (s : State) (n rn : Nat) : State :=
  match s.ring n rn with
  | none => s
  | some r =>
    match SMap.find? r.cur r.recs with
    | some x =>
      let s := s.bump 32 (0x8400 + n / 256) (n % 256) 1
      (s.setRing n rn { r with recs := SMap.put r.cur { ckpt := x.ckpt, firstRead := some s.localNs } r.recs,
                               hd := .refetching, fetched := [], twice := [] }).goOnRefetch n rn
    | none => s

end Sys2Proof.Machine
end

