-- ==== Sys2Proof/Machine/Grist.lean ====
section
/-! DEFINITION. What the grist instructions and the events of streams do (R105 to R119, R262, R264, R277). Each effect
is one definition here; an instruction that has to wait leaves its stream where it is. Execution rows that may end a
run are completed in Machine/ExecStreams.lean. -/

namespace Sys2Proof.Machine

/-- One cycle of a stall counter (R120, R121). -/
def State.stall (s : State) (n index : Nat) : State := s.bumpWrap 64 (index + n / 256) (n % 256) 1

/-- A stream that cannot execute now counts its cause (R120). -/
def State.notReady (s : State) (n k : Nat) : State :=
  match s.stream n k with
  | some y =>
    match y.phase with
    | .walking .. | .suspended => s.stall n 0x8280
    | .waitBar .. => s.stall n 0x8380
    | _ => s
  | none => s

/-- A transfer of a stream has not left whole (R120): XLATE while it walks or is suspended; a request that was not granted
or found no tag counts REMOTE_WAIT when the tags are gone and some request of the stream goes to another device, else
MESH_ARB; other waits count nothing. -/
def State.waitStall (s : State) (n k : Nat) (w : Went) : State :=
  match s.stream n k with
  | some y =>
    match y.phase, w with
    | .walking .., _ | .suspended, _ => s.stall n 0x8280
    | _, .denied => if !s.tagFree n y && y.reqs.any fun q => q.remote then s.stall n 0x82C0 else s.stall n 0x8340
    | _, _ => s
  | none => s

/-- Write the registers of a stream. -/
def State.setRegs (s : State) (n k : Nat) (y : Stream) (r : SRegs) : State := s.setStream n k { y with regs := r }

/-- An instruction that only changes registers: SETA, ADDA, SETI, LOOP, ENDL (R105). -/
def State.doPlain (s : State) (n k : Nat) (is_ : Grist → Bool) : State :=
  match s.ready n k with
  | some (y, g) => if is_ g then s.setRegs n k y (y.regs.plain (s.ctx n y.ctx) (s.core n).prog g) else s
  | none => s.notReady n k

/-- The ring's producer end has a slot to write (R100). -/
def State.ringFree (s : State) (n rn : Nat) : Bool :=
  match s.ring n rn with
  | some r => r.free
  | none => false

/-- The fill stream has begun its slot: the slot's records start with its checkpoint (R111). -/
def State.beginSlot (s : State) (n k : Nat) : State :=
  match s.stream n k with
  | some y => if y.rec_.isSome then s else s.setStream n k { y with rec_ := some { ckpt := y.ckpt } }
  | none => s

/-- The registers of stream k after its transfer has left. -/
def State.finishMove (s : State) (n k : Nat) (f : SRegs → SRegs) : State :=
  match s.stream n k with
  | some y => s.setStream n k { y with regs := f y.regs, idx := none }
  | none => s

/-- LOAD (R105, R106, R107). -/
def State.doLoad (s : State) (n k : Nat) : State :=
  match s.ready n k with
  | some (y, .load ar post len) =>
    let total := 32 * (len.val + 1)
    if s.slotSize n y < y.regs.cursor + total then s.stopStream n k .ringMisconfig
    else if !s.ringFree n y.ring then s.stall n 0x8240
    else
      let r := (s.beginSlot n k).runMove n k (y.regs.getAr ar.val).toNat total y.regs.cursor none 4096 y.regs.done
      if r.2 = .left then r.1.finishMove n k fun g => g.moved ar.val post total else r.1.waitStall n k r.2
  | some _ => s
  | none => s.notReady n k

/-- The row length of GATHER and SCATTER is refused (R106): 0 or above 64 KiB, or past the end of the slot. -/
def badRows (size cursor rows len : Nat) : Bool :=
  len == 0 || decide (65536 < len) || decide (size < cursor + rows * len)

/-- Alignment of a GATHER or SCATTER (R106): row length and row increment in 32 B, index pointer in 4 B. -/
def badIndexing (r : SRegs) (ai irl irs : Nat) : Bool :=
  (r.getIr irl).toNat % 32 != 0 || (r.getIr irs).toNat % 32 != 0 || (r.getAr ai).toNat % 4 != 0

/-- GATHER (R105, R106, R108). -/
def State.doGather (s : State) (n k : Nat) : State :=
  match s.ready n k with
  | some (y, .gather ab ai irl irs m) =>
    let len := (y.regs.getIr irl.val).toNat
    if badRows (s.slotSize n y) y.regs.cursor (m.val + 1) len then s.stopStream n k .ringMisconfig
    else if badIndexing y.regs ai.val irl.val irs.val then s.stopStream n k .accessDenied
    else if !s.ringFree n y.ring then s.stall n 0x8240
    else
      let r := (s.beginSlot n k).runRows n k ab.val ai.val (m.val + 1) len irs.val none 8192
      if r.2 = .left then r.1.finishMove n k fun g => g.gathered ai.val (m.val + 1) len else r.1.waitStall n k r.2
  | some _ => s
  | none => s.notReady n k

/-- The accumulate rules of R239 and R240 on a STORE: addresses in 4 KiB, whole blocks, or one thinned record. -/
def badAccStore (acc va total : Nat) (post : Bool) : Bool :=
  match acc with
  | 1 => va % 4096 != 0 || total % 4096 != 0
  | 2 => va % 4096 != 0 || total != 160 || post
  | _ => false

/-- The accumulate rules of R239 and R240 on a SCATTER row length. -/
def badAccScatter (acc len : Nat) : Bool :=
  match acc with
  | 1 => len != 4096
  | 2 => len != 160
  | _ => false

/-- Before the first accumulate of a slot, the translate-only pass (R114): `left` when the slot may go on. -/
def State.beforeAccum (s : State) (n k : Nat) (y : Stream) (acc : Nat) : State × Went :=
  if acc = 0 || y.passed then (s, .left) else s.translateOnly n k

/-- STORE (R105, R106, R107, R114, R239, R240, R368). -/
def State.doStore (s : State) (n k : Nat) : State :=
  match s.ready n k with
  | some (y, .store ar post acc len) =>
    let total := 32 * (len.val + 1)
    let va := (y.regs.getAr ar.val).toNat
    if !y.taken || decide (s.slotSize n y < y.regs.cursor + total) then s.stopStream n k .ringMisconfig
    else if y.suppress then s.finishMove n k fun g => g.moved ar.val post total
    else if badAccStore acc.val va total post then s.stopStream n k .accessDenied
    else match s.beforeAccum n k y acc.val with
      | (s, .left) =>
        let r := s.runMove n k va total y.regs.cursor (some acc.val) 4096 y.regs.done
        if r.2 = .left then r.1.finishMove n k fun g => g.moved ar.val post total else r.1.waitStall n k r.2
      | (s, w) => s.waitStall n k w
  | some _ => s
  | none => s.notReady n k

/-- SCATTER (R105, R106, R108, R114, R239, R240, R368). -/
def State.doScatter (s : State) (n k : Nat) : State :=
  match s.ready n k with
  | some (y, .scatter ab ai irl irs m acc) =>
    let len := (y.regs.getIr irl.val).toNat
    if !y.taken || badRows (s.slotSize n y) y.regs.cursor (m.val + 1) len then s.stopStream n k .ringMisconfig
    else if y.suppress then s.finishMove n k fun g => g.gathered ai.val (m.val + 1) len
    else if badIndexing y.regs ai.val irl.val irs.val || badAccScatter acc.val len then s.stopStream n k .accessDenied
    else match s.beforeAccum n k y acc.val with
      | (s, .left) =>
        let r := s.runRows n k ab.val ai.val (m.val + 1) len irs.val (some acc.val) 8192
        if r.2 = .left then r.1.finishMove n k fun g => g.gathered ai.val (m.val + 1) len else r.1.waitStall n k r.2
      | (s, w) => s.waitStall n k w
  | some _ => s
  | none => s.notReady n k

/-- Zero-fill the slot being written from byte `cur` on (R105 EMIT with ZPAD). -/
def State.zeroPad (s : State) (n rn cur : Nat) : State :=
  match s.ring n rn with
  | some r => s.writeSlot n r r.prodPos cur (List.replicate (r.slotBytes - cur) 0)
  | none => s

/-- The stream goes on with its next slot: its checkpoint is taken there (R111, R113, R157). -/
def Stream.newSlot (y : Stream) : Stream :=
  let r := y.regs.nextSlot
  { y with regs := r, ckpt := r, ckpts := SMap.put r.slotNo r y.ckpts, rec_ := none, checked := [], idx := none,
           taken := false, passed := false, resolved := [], accSeals := [], accSent := false, fetched := [], twice := [] }

/-- Requests of the stream itself are outstanding: all but those that a suspension has dropped and those of a re-fetch. -/
def Stream.waiting (y : Stream) : Bool := y.reqs.any fun q => !q.dead && q.off != refMark

/-- EMIT (R101, R105). The slot's reads have all returned before it commits. -/
def State.doEmit (s : State) (n k : Nat) : State :=
  match s.ready n k with
  | some (y, .emit zpad) =>
    if y.waiting then s
    else if !s.ringFree n y.ring then s.stall n 0x8240
    else
      let short := decide (y.regs.cursor < s.slotSize n y)
      if short && !zpad then s.stopStream n k .ringMisconfig
      else
        let s := if short then s.zeroPad n y.ring y.regs.cursor else s
        let s := s.commitSlot n y.ring (some (y.rec_.getD { ckpt := y.ckpt }))
        s.setStream n k y.newSlot
  | some _ => s
  | none => s.notReady n k

/-- Mark that the consumer has begun to use the head slot. -/
def State.markBusy (s : State) (n rn : Nat) : State :=
  match s.ring n rn with
  | some r => s.setRing n rn { r with busy := true }
  | none => s

/-- TAKE (R100, R105): a slot that is being probed or re-fetched counts REFETCH while the stream waits for it (R112). -/
def State.doTake (s : State) (n k : Nat) : State :=
  match s.ready n k with
  | some (y, .take) =>
    if y.taken then s.stopStream n k .ringMisconfig
    else match s.ring n y.ring with
      | some r =>
        if s.headVisible r then
          let g := { y.regs with pc := y.regs.pc + 1, cursor := 0, done := 0 }
          (s.markBusy n y.ring).setStream n k
            { y with regs := g, ckpt := g, taken := true, passed := false, idx := none }
        else if r.kept < r.held then s.stall n 0x8300
        else s
      | none => s.stopStream n k .ringMisconfig
  | some _ => s
  | none => s.notReady n k

/-- FREE (R102, R105, R364): every write of the slot is acknowledged, then its seal is checked and it is released. -/
def State.doFree (s : State) (n k : Nat) : State :=
  match s.ready n k with
  | some (y, .free) =>
    if y.waiting then s
    else match s.ring n y.ring with
      | none => s.stopStream n k .ringMisconfig
      | some r =>
        if !y.taken || y.regs.cursor != r.slotBytes then s.stopStream n k .ringMisconfig
        else match s.readSlot n r r.consPos 0 r.slotBytes with
          | (s, .ok, bs) =>
            if (crc32c bs).toNat = SMap.get 0 r.seals r.consPos then
              let s := (s.releaseSlot n y.ring).setStream n k y.newSlot
              if y.aborted then s.endStream n k else s
            else
              (s.watchEvent 0 (n / 256) (s.physPos n) .sealFail (s.ctx n y.ctx).lastTag).stopStream n k .sealFail
          | (s, st, _) => s.stopStream n k st
  | some _ => s
  | none => s.notReady n k

/-- Writes of a stream are outstanding. -/
def Stream.writing (y : Stream) : Bool := y.reqs.any fun q => q.write

/-- Grist WAIT (R105, R119). -/
def State.doWait (s : State) (n k : Nat) : State :=
  match s.ready n k with
  | some (y, .wait mode d b px) =>
    if mode.val = 0 then
      if y.writing then s.stall n 0x8380 else s.setRegs n k y { y.regs with pc := y.regs.pc + 1 }
    else
      let x := s.ctx n y.ctx
      let target := x.param px.val % 65536
      match s.barRefusal x.part d.val b.val with
      | some st => s.stopStream n k st
      | none =>
        if (s.barrier d.val b.val).reached target then s.setRegs n k y { y.regs with pc := y.regs.pc + 1 }
        else (s.setStream n k { y with phase := .waitBar d.val b.val target }).stall n 0x8380
  | some _ => s
  | none => s.notReady n k

/-- Grist ARRIVE (R113, R117, R118): release semantics; an arrival already made is passed over. -/
def State.doArrive (s : State) (n k : Nat) : State :=
  match s.ready n k with
  | some (y, .arrive d b) =>
    if y.writing then s
    else match s.barRefusal (s.ctx n y.ctx).part d.val b.val with
      | some st => s.stopStream n k st
      | none =>
        if y.regs.arr < y.arrMax then
          s.setRegs n k y { y.regs with pc := y.regs.pc + 1, arr := y.regs.arr + 1 }
        else
          let y := y.arrived
          (s.arriveAt d.val b.val).setStream n k { y with regs := { y.regs with pc := y.regs.pc + 1 } }
  | some _ => s
  | none => s.notReady n k

/-- The roles that a command rewinds (R157, R160, R166): IN0, and IN1 unless HOLD_B, of the matrix products; IN1 of
ATTN_BLOCK_BWD with TWO_PASS. -/
def rewoundRoles (w : Nat) : List Nat :=
  let op := cOp w
  if 1 ≤ op ∧ op ≤ 3 then (if cFlag w 34 then [0] else [0, 1])
  else if op = 0x19 ∧ cFlag w 33 then [1] else []

/-- A ring is a rewound role of the command that its context executes. -/
def Ctx.rewinds (x : Ctx) (rn : Nat) : Bool :=
  match x.cmd with
  | some c => c.phase == .run && (rewoundRoles c.word).any fun r => cHasRole c.word r && cRole c.word r == rn
  | none => false

/-- Grist END (R105, R157). -/
def State.doEnd (s : State) (n k : Nat) : State :=
  match s.ready n k with
  | some (y, .done) =>
    if !y.reqs.isEmpty then s
    else if (!y.drains && y.regs.cursor != 0) || y.taken then s.stopStream n k .ringMisconfig
    else if !y.drains && (s.ctx n y.ctx).rewinds y.ring then s.setStream n k { y with phase := .atEnd }
    else s.endStream n k
  | some _ => s
  | none => s.notReady n k

/-! ### Events of streams -/

/-- Put bytes into the slot that a fill stream writes. -/
def State.fillSlot (s : State) (n : Nat) (y : Stream) (off : Nat) (bs : Bytes) : State :=
  match s.ring n y.ring with
  | some r => s.writeSlot n r r.prodPos off bs
  | none => s

/-- The data of a read request that has been answered: read now from scratchpad, tun or lauter buffer, or held since
the memory, the other device or the host answered. -/
def State.reqData (s : State) (q : Req) (tag : Nat) : State × Status × Bytes :=
  if q.data.isEmpty && q.status == .ok then s.readMem (locOf q.gaddr) q.len tag else (s, q.status, q.data)

/-- Replace one request of a stream. -/
def Stream.putReq (y : Stream) (q q' : Req) : Stream := { y with reqs := y.reqs.map fun r => if r = q then q' else r }

/-- The request that completes next, of those that have been answered: bytes that a check or a pass of the stream asked for
go before the data that waits for them. -/
def Stream.completable (y : Stream) : Option Req :=
  match y.reqs.find? fun q => q.ready && (q.off == passMark || q.off == refMark) with
  | some q => some q
  | none => y.reqs.find? fun q => q.ready

/-- Bytes for a re-fetch of ring rn have arrived: the re-fetch goes on with them (R112). -/
def State.fetchedFor (s : State) (n rn va : Nat) (bs : Bytes) : State :=
  match s.ring n rn with
  | some r =>
    if r.hd = .refetching then (s.setRing n rn { r with fetched := (va, bs) :: r.fetched }).goOnRefetch n rn else s
  | none => s

/-- Data of a fill stream has arrived (R107, R111, R357): a sealed block is checked before any byte of it is stored; then
the piece asked for reaches the slot, or the stream's index registers. Until the seal, or the second reading, has arrived
from another device the data waits under its tag. -/
def State.fillArrives (s : State) (n k : Nat) (y : Stream) (q : Req) (bs : Bytes) : State :=
  let rec0 := y.rec_.getD { ckpt := y.ckpt }
  let rec0 := if q.data.isEmpty then s.noteRead rec0 (locOf q.gaddr) q.len else rec0
  let y' := { y with reqs := y.reqs.erase q }
  let store (s : State) (y : Stream) (va : Nat) (bs : Bytes) : State :=
    if q.off = idxMark then s.setStream n k { y with idx := some (va, bs) } else (s.fillSlot n y q.off bs).setStream n k y
  match q.want with
  | none => store s { y' with rec_ := some rec0 } q.va bs
  | some (va, len) =>
    if y.checked.contains (q.va / 4096) then store s { y' with rec_ := some rec0 } va (slice bs (va % 4096) len)
    else match s.sealCheck n y ⟨y.fetched, y.twice⟩ rec0 q.va bs 2 with
      | (s, .done, w, rec1, blk) =>
        let s := if w.twice.contains (q.va / 4096) then s.bump 32 0x8E00 1 1 else s
        store s { y' with rec_ := some rec1, checked := insertAsc (q.va / 4096) y.checked, fetched := w.cache,
                          twice := w.twice } va (slice blk (va % 4096) len)
      | (s, .need va len, w, rec1, _) =>
        let s := s.setStream n k { y.putReq q { q with data := bs } with rec_ := some rec1, fetched := w.cache, twice := w.twice }
        (s.askFor n k va len passMark false).1
      | (s, .blocked, _, _, _) => s
      | (s, .fault va c l, _, _, _) => (s.setStream n k y').suspend n k va c l
      | (s, .stop st va, _, _, _) => (s.setStream n k y').stopStream n k st va

/-- STREAM_REQUEST_COMPLETE (R107, R111, R357): the data of a read reaches the slot, or a write is acknowledged; its
tag is free. -/
def State.doRequestComplete (s : State) (n k : Nat) : State :=
  match s.stream n k with
  | none => s
  | some y =>
    match y.completable with
    | none => s
    | some q =>
      let y' := { y with reqs := y.reqs.erase q }
      if q.dead then s.setStream n k y'
      else if q.status != .ok then (s.setStream n k y').stopStream n k q.status q.va
      else if q.write then s.setStream n k y'
      else
        match s.reqData q (s.ctx n y.ctx).lastTag with
        | (s, .ok, bs) =>
          if q.off = refMark then (s.setStream n k y').fetchedFor n y.ring q.va bs
          else if q.off = passMark then s.setStream n k { y' with fetched := (q.va, bs) :: y.fetched }
          else if y.drains then s.setStream n k { y' with idx := some (q.va, bs) }
          else s.fillArrives n k y q bs
        | (s, st, _) => (s.setStream n k y').stopStream n k st q.va

/-- The LPDDR5X read that a package answers next for a stream. -/
def State.memRead (s : State) (y : Stream) : Option Req :=
  y.reqs.find? fun q => !q.write && !q.ready && !q.remote && devOf q.gaddr == s.ownId && place (locOf q.gaddr) == .lpddr

/-- MEMORY_READ_COMPLETE (R261, R262, R264): link ECC reissues a read at most twice; a third failure completes the
request without poisoning; else inline ECC decides, and the data carries the generations at this moment. -/
def State.doMemoryRead (s : State) (n k fails corrected : Nat) : State :=
  match s.stream n k with
  | none => s
  | some y =>
    match s.memRead y with
    | none => s
    | some q =>
      let d := s.lpDecode (locOf q.gaddr)
      match s.linkOutcome d.1 d.2.1 fails corrected (s.ctx n y.ctx).lastTag with
      | (s, false) => s.setStream n k (y.putReq q { q with ready := true, tries := 3, status := .eccUncorrectable })
      | (s, true) =>
        match s.readArray (locOf q.gaddr) q.len (s.ctx n y.ctx).lastTag with
        | (s, .ok, bs) =>
          let y := y.putReq q { q with ready := true, tries := fails, data := bs }
          if y.drains || q.dead || q.off = passMark || q.off = refMark then s.setStream n k y
          else s.setStream n k { y with rec_ := some (s.noteRead (y.rec_.getD { ckpt := y.ckpt }) (locOf q.gaddr) q.len) }
        | (s, st, _) => s.setStream n k (y.putReq q { q with ready := true, status := st })

/-- GENERATION_INCREMENT (R264): the owning engine advances the counter, and the write it belongs to can be
acknowledged. -/
def State.doIncrement (s : State) (m : Nat) : State :=
  let e := s.mx m
  match e.incr with
  | [] => s
  | (g, n, k, va) :: t =>
    let s := (s.setMx m { e with incr := t }).bumpGen g
    match s.stream n k with
    | some y =>
      match y.reqs.find? fun q => q.write && q.va == va && q.owner == some m with
      | some q => s.setStream n k (y.putReq q { q with ready := true, owner := none })
      | none => s
    | none => s

/-- GENERATION_PROBE (R89, R112, R264): the probe of a ring's head slot is answered with the current counters of its
recorded granules. -/
def State.doProbe (s : State) (n rn : Nat) : State :=
  match s.ring n rn with
  | some r =>
    if r.held ≤ r.kept || r.busy then s
    else match SMap.find? r.cur r.recs with
      | some x =>
        if r.hd == .delivered || r.hd == .refetching then s
        else s.setRing n rn { r with hd := .probing (some (x.gens.map fun g => SMap.get 0 s.gens g.1)) }
      | none => s
  | none => s

/-- PROBE_RESPONSE (R112): the head slot is delivered, or re-fetched when a generation differs, the slot is
unrecorded, or its first read is more than 100 ms old. A re-fetch under way is taken further with what has arrived. -/
def State.doProbeResponse (s : State) (n rn : Nat) : State :=
  match s.ring n rn with
  | some r =>
    match r.hd, SMap.find? r.cur r.recs with
    | .refetching, _ =>
      match (s.core n).fillOf rn r.ctx with
      | some (k, y) => if y.reqs.any fun q => q.ready && q.off == refMark then s.doRequestComplete n k else s.goOnRefetch n rn
      | none => s
    | .probing (some res), some x =>
      if decide (res = x.gens.map (·.2)) && !x.unrecorded && s.fresh x then
        s.setRing n rn { r with hd := .delivered }
      else s.refetch n rn
    | _, _ => s
  | none => s

/-- WALK_COMPLETE (R277, R279, R113): one of the walks that the die's translation unit runs
finishes. -/
def State.doWalk (s : State) (n k : Nat) : State :=
  match s.stream n k with
  | some y =>
    match y.phase with
    | .walking va write =>
      if !(s.walks (n / 256)).contains (n, k) then s.stall n 0x8280
      else
        let x := s.ctx n y.ctx
        let s : State := { s with walkQ := s.walkQ.filter fun e => e != (n, k) }
        match s.walkFill n y.ctx x.part x.client va write with
        | (s, .fault c l) => s.suspend n k va c l
        | (s, .stop st) => s.stopStream n k st va
        | (s, _) => s.setStream n k { y with phase := .running }
    | _ => s
  | none => s

/-- A stream that waits at a barrier goes on once the target phase is reached (R119). -/
def State.wakeStream (s : State) (n k : Nat) : State :=
  match s.stream n k with
  | some y =>
    match y.phase with
    | .waitBar d b target =>
      if (s.barrier d b).reached target then
        s.setStream n k { y with phase := .running, regs := { y.regs with pc := y.regs.pc + 1 } }
      else s.stall n 0x8380
    | _ => s
  | none => s

end Sys2Proof.Machine
end

