-- ==== Sys2Proof/Machine/Num.lean ====
section
/-! DEFINITION. Number formats, rounding and the random generator (03_number_formats.md): exact dyadic values,
one rounding per conversion, FP32 operations rounded to nearest even, and Philox4x32-10. -/

namespace Sys2Proof.Machine

/-- A value read from an element: a NaN, an infinity, or the exact number (-1)^neg * m * 2^e. -/
inductive FVal where
  | nan
  | inf (neg : Bool)
  | fin (neg : Bool) (m : Nat) (e : Int)
  deriving DecidableEq, Repr

/-- The layout of an element format (R52): mantissa bits, least normal exponent, the largest finite magnitude
pattern, the exponent field's width and which patterns are special. -/
structure Fmt where
  man    : Nat
  ebits  : Nat
  emin   : Int
  maxMag : Nat     -- bit pattern of the largest finite magnitude
  hasInf : Bool    -- all-ones exponent holds infinities and NaNs
  e4m3   : Bool    -- the single NaN pattern per sign
  nanPat : Nat
  deriving DecidableEq, Repr

def fmtFP32 : Fmt := ⟨23, 8, -126, 0x7F7FFFFF, true, false, 0x7FC00000⟩
def fmtBF16 : Fmt := ⟨7, 8, -126, 0x7F7F, true, false, 0x7FC0⟩
def fmtFP16 : Fmt := ⟨10, 5, -14, 0x7BFF, true, false, 0x7E00⟩
def fmtE4M3 : Fmt := ⟨3, 4, -6, 0x7E, false, true, 0x7F⟩
def fmtE5M2 : Fmt := ⟨2, 5, -14, 0x7B, true, false, 0x7E⟩
def fmtE3M2 : Fmt := ⟨2, 3, -2, 0x1F, false, false, 0⟩
def fmtE2M3 : Fmt := ⟨3, 2, 0, 0x1F, false, false, 0⟩
def fmtE2M1 : Fmt := ⟨1, 2, 0, 0x7, false, false, 0⟩

/-- The element format of a format code; MXINT8 (0xA) is handled apart (R52). -/
def fmtOf : Nat → Fmt
  | 0x0 => fmtFP32
  | 0x1 => fmtBF16
  | 0x2 => fmtFP16
  | 0x3 => fmtE4M3
  | 0x4 => fmtE5M2
  | 0x5 => fmtE4M3
  | 0x6 => fmtE5M2
  | 0x7 => fmtE3M2
  | 0x8 => fmtE2M3
  | _   => fmtE2M1

/-- Codes 0x0 to 0xA are assigned (R52). -/
def fmtAssigned (code : Nat) : Bool := code ≤ 0xA

/-- Codes 0x5 to 0xA carry block scales (R52). -/
def fmtIsMx (code : Nat) : Bool := 0x5 ≤ code && code ≤ 0xA

/-- Bits of one element (R52, R53). -/
def fmtBits : Nat → Nat
  | 0x0 => 32
  | 0x1 => 16
  | 0x2 => 16
  | 0x7 => 6
  | 0x8 => 6
  | 0x9 => 4
  | _   => 8

/-- Packing factor p of the array (R25); 0 for a format that is no array operand. -/
def fmtPack : Nat → Nat
  | 0x0 => 0
  | 0x1 => 1
  | 0x2 => 1
  | 0x9 => 4
  | 0xA => 4
  | c   => if c ≤ 0xA then 2 else 0

/-- Largest unbiased exponent of an MX element format (R60 step 3). -/
def fmtEmax : Nat → Int
  | 0x5 => 8
  | 0x6 => 15
  | 0x7 => 4
  | 0x8 => 2
  | 0x9 => 2
  | _   => 0

/-- Bytes of n elements, packed under R53. -/
def fmtBytes (code n : Nat) : Nat := ceilDiv (n * fmtBits code) 8

/-! Decoding. -/

/-- The value of an element pattern (R52, R54). -/
def decodeFmt (f : Fmt) (w : Nat) : FVal :=
  let neg := bit w (f.man + f.ebits)
  let mag := w % 2 ^ (f.man + f.ebits)
  let ex := mag / 2 ^ f.man
  let fr := mag % 2 ^ f.man
  if f.hasInf && ex == 2 ^ f.ebits - 1 then
    (if fr = 0 then .inf neg else .nan)
  else if f.e4m3 && mag == 2 ^ (f.man + f.ebits) - 1 then .nan
  else if ex = 0 then .fin neg fr (f.emin - f.man)
  else .fin neg (2 ^ f.man + fr) (f.emin - f.man + (ex - 1))

/-- An MXINT8 element: two's complement, implied factor 2^-6 (R52, R55). -/
def decodeInt8 (w : Nat) : FVal :=
  if w < 128 then .fin false w (-6) else .fin true (256 - w) (-6)

/-- The value scaled by 2^x. -/
def FVal.scale (x : Int) : FVal → FVal
  | .fin n m e => .fin n m (e + x)
  | v => v

/-- An element of any format under its block scale byte (R52, R54): scale 0xFF makes the whole block NaN. Formats
without scales take the scale byte 127. -/
def decodeElem (code w scale : Nat) : FVal :=
  if fmtIsMx code && scale == 0xFF then .nan
  else
    let v := if code = 0xA then decodeInt8 w else decodeFmt (fmtOf code) w
    if fmtIsMx code then v.scale ((scale : Int) - 127) else v

/-! Rounding. -/

/-- The rounding modes of R58; SR carries the element's 16-bit draw u. -/
inductive Mode where
  | rne
  | rtz
  | sr (u : Nat)
  deriving DecidableEq, Repr

/-- floor(m * 2^e / 2^q), with the fraction left over as a pair (remainder, divisor). -/
def quantise (m : Nat) (e q : Int) : Nat × Nat × Nat :=
  if q ≤ e then (m <<< (e - q).toNat, 0, 1)
  else
    let d := 2 ^ (q - e).toNat
    (m / d, m % d, d)

/-- One rounding of r + rem/d to an integer (R58, R59). -/
def roundInt (mode : Mode) (r rem d : Nat) : Nat :=
  match mode with
  | .rtz => r
  | .rne => if 2 * rem > d || (2 * rem == d && r % 2 == 1) then r + 1 else r
  | .sr u => if rem * 65536 / d + u ≥ 65536 then r + 1 else r

/-- The magnitude pattern that m * 2^e rounds to, before any check against the largest finite value. -/
def roundMag (f : Fmt) (mode : Mode) (m : Nat) (e : Int) : Nat :=
  if m = 0 then 0
  else
    let qmin := f.emin - f.man
    let q := max ((log2 m : Int) + e - f.man) qmin
    let t := quantise m e q
    ((q - qmin).toNat <<< f.man) + roundInt mode t.1 t.2.1 t.2.2

/-- Does a rounded pattern beyond the largest finite value become an infinity? Only RNE into FP32, BF16 and
FP16 (R57). -/
def overflowsToInf (f : Fmt) (mode : Mode) : Bool :=
  f.hasInf && f.man != 2 && mode == .rne

/-- Conversion of a value into a non-MX format (R56, R57). -/
def encodeFmt (f : Fmt) (mode : Mode) (v : FVal) : Nat :=
  let signBit := 2 ^ (f.man + f.ebits)
  match v with
  | .nan => f.nanPat
  | .inf n => if f.e4m3 then f.nanPat else b2n n * signBit + (2 ^ f.ebits - 1) * 2 ^ f.man
  | .fin n m e =>
    let w := roundMag f mode m e
    let w' := if w > f.maxMag then
        (if overflowsToInf f mode then (2 ^ f.ebits - 1) * 2 ^ f.man else f.maxMag) else w
    b2n n * signBit + w'

/-- Conversion of a finite scaled value into an MXINT8 element: -127 to +127, never 0x80 (R57). -/
def encodeInt8 (mode : Mode) (neg : Bool) (m : Nat) (e : Int) : Nat :=
  let t := quantise m e (-6)
  let r := min (roundInt mode t.1 t.2.1 t.2.2) 127
  if neg then (256 - r) % 256 else r

/-- Conversion of one element into an MX format under unbiased block scale x; specials do not reach this
function, because they make the whole block NaN (R56, R57). -/
def encodeMxElem (code : Nat) (mode : Mode) (x : Int) : FVal → Nat
  | .fin n m e =>
    if code = 0xA then encodeInt8 mode n m (e - x)
    else encodeFmt (fmtOf code) mode (.fin n m (e - x))
  | _ => 0

/-- floor(log2) of a finite non-zero magnitude. -/
def fexp (m : Nat) (e : Int) : Int := (log2 m : Int) + e

/-- The block scale of R60: the unbiased exponent X. -/
def mxScale (code : Nat) (vs : List FVal) : Int :=
  let exps := vs.filterMap fun v => match v with
    | .fin _ m e => if m = 0 then none else some (fexp m e)
    | _ => none
  match exps with
  | [] => -127
  | a :: t => max (-127) (min 127 (t.foldl max a - fmtEmax code))

/-- Conversion of one MX block: element patterns and the scale byte (R57, R60). -/
def encodeMxBlock (code : Nat) (mode : Nat → Mode) (vs : List FVal) : List Nat × Nat :=
  if vs.any (fun v => match v with | .fin .. => false | _ => true) then
    (vs.map fun _ => 0, 0xFF)
  else
    let x := mxScale code vs
    (vs.mapIdx fun i v => encodeMxElem code (mode i) x v, (x + 127).toNat)

/-! FP32 arithmetic, rounded to nearest even (R43, R55). -/

/-- The canonical quiet NaN (R27, R43). -/
def qnan : W32 := 0x7FC00000#32

def f32 (w : W32) : FVal := decodeFmt fmtFP32 w.toNat

/-- A value as FP32, rounded to nearest even (R55: exact but for an overflow to infinity). -/
def toF32 (v : FVal) : W32 := BitVec.ofNat 32 (encodeFmt fmtFP32 .rne v)

/-- Every NaN the vector unit delivers is canonical (R43). -/
def canon (w : W32) : W32 := match f32 w with | .nan => qnan | _ => w

/-- Signed integer mantissa of a finite value. -/
def smant (neg : Bool) (m : Nat) : Int := if neg then -(m : Int) else m

/-- Exact sum of two finite values; a zero sum of unlike signs is +0. -/
def addFin (n1 : Bool) (m1 : Nat) (e1 : Int) (n2 : Bool) (m2 : Nat) (e2 : Int) : FVal :=
  let e := min e1 e2
  let s := smant n1 (m1 <<< (e1 - e).toNat) + smant n2 (m2 <<< (e2 - e).toNat)
  if s = 0 then .fin (n1 && n2) 0 e else .fin (s < 0) s.natAbs e

/-- Exact sum (IEEE 754 specials). -/
def FVal.add : FVal → FVal → FVal
  | .nan, _ => .nan
  | _, .nan => .nan
  | .inf a, .inf b => if a = b then .inf a else .nan
  | .inf a, _ => .inf a
  | _, .inf b => .inf b
  | .fin n1 m1 e1, .fin n2 m2 e2 => addFin n1 m1 e1 n2 m2 e2

/-- Exact product (IEEE 754 specials). -/
def FVal.mul : FVal → FVal → FVal
  | .nan, _ => .nan
  | _, .nan => .nan
  | .inf a, .inf b => .inf (a != b)
  | .inf a, .fin n m _ => if m = 0 then .nan else .inf (a != n)
  | .fin n m _, .inf b => if m = 0 then .nan else .inf (n != b)
  | .fin n1 m1 e1, .fin n2 m2 e2 => .fin (n1 != n2) (m1 * m2) (e1 + e2)

def FVal.neg : FVal → FVal
  | .nan => .nan
  | .inf n => .inf (!n)
  | .fin n m e => .fin (!n) m e

def FVal.abs : FVal → FVal
  | .nan => .nan
  | .inf _ => .inf false
  | .fin _ m e => .fin false m e

def fadd (a b : W32) : W32 := toF32 ((f32 a).add (f32 b))
def fsub (a b : W32) : W32 := toF32 ((f32 a).add (f32 b).neg)
def fmul (a b : W32) : W32 := toF32 ((f32 a).mul (f32 b))
def fma (a b c : W32) : W32 := toF32 (((f32 a).mul (f32 b)).add (f32 c))
def fneg (a : W32) : W32 := toF32 (f32 a).neg
def fabs (a : W32) : W32 := toF32 (f32 a).abs

/-- Strict order of two values that are no NaN, -0 below +0 (R43). -/
def FVal.lt : FVal → FVal → Bool
  | .nan, _ => false
  | _, .nan => false
  | .inf a, .inf b => a && !b
  | .inf a, .fin .. => a
  | .fin .., .inf b => !b
  | .fin n1 m1 e1, .fin n2 m2 e2 =>
    let e := min e1 e2
    let x := smant n1 (m1 <<< (e1 - e).toNat)
    let y := smant n2 (m2 <<< (e2 - e).toNat)
    x < y || (x == y && m1 == 0 && n1 && !n2)

/-- IEEE 754-2019 maximum (R43). -/
def fmax (a b : W32) : W32 :=
  match f32 a, f32 b with
  | .nan, _ => qnan
  | _, .nan => qnan
  | x, y => if x.lt y then b else a

/-- IEEE 754-2019 minimum (R43). -/
def fmin (a b : W32) : W32 :=
  match f32 a, f32 b with
  | .nan, _ => qnan
  | _, .nan => qnan
  | x, y => if y.lt x then b else a

/-- x > 0, false for a NaN and for both zeros. -/
def fpos (a : W32) : Bool := match f32 a with
  | .inf n => !n
  | .fin n m _ => !n && m != 0
  | .nan => false

def fisNan (a : W32) : Bool := match f32 a with | .nan => true | _ => false
def fisZero (a : W32) : Bool := match f32 a with | .fin _ m _ => m == 0 | _ => false
def fone : W32 := 0x3F800000#32
def fzero : W32 := 0#32
def fninf : W32 := 0xFF800000#32

/-! The lane reduction of R45. -/

/-- Lane l of a 64-lane stage: the elements e with e mod 64 = l, in ascending order, folded from the first. -/
def laneStage (op : W32 → W32 → W32) (xs : List W32) (l : Nat) : Option W32 :=
  let mine := (xs.zipIdx.filter fun p => p.2 % 64 == l).map Prod.fst
  match mine with
  | [] => none
  | a :: t => some (t.foldl op a)

/-- Combine two positions of a tree level, an absent one passing the other through (R45, R243). -/
def combine {α : Type} (op : α → α → α) : Option α → Option α → Option α
  | some a, some b => some (op a b)
  | none, b => b
  | a, none => a

/-- One level of a pairwise tree. -/
def treeLevel {α : Type} (op : α → α → α) : List (Option α) → List (Option α)
  | a :: b :: t => combine op a b :: treeLevel op t
  | t => t

/-- k levels of a pairwise tree. -/
def tree {α : Type} (op : α → α → α) : Nat → List (Option α) → List (Option α)
  | 0, v => v
  | k + 1, v => tree op k (treeLevel op v)

/-- A lane reduction (R45); an empty one gives +0.0. -/
def laneReduce (op : W32 → W32 → W32) (xs : List W32) : W32 :=
  match tree op 6 ((List.range 64).map (laneStage op xs)) with
  | some a :: _ => canon a
  | _ => fzero

def laneSum (xs : List W32) : W32 := laneReduce fadd xs
def laneMax (xs : List W32) : W32 := laneReduce fmax xs

/-! The array update of R26 to R28. -/

/-- The exact sum of the products of one k-step: its sign when zero is that of IEEE addition, so it is -0 only
when every product is a negative zero. -/
def sumProducts : List (FVal × FVal) → FVal
  | [] => .fin false 0 0
  | [p] => p.1.mul p.2
  | p :: t => (p.1.mul p.2).add (sumProducts t)

/-- One update of an accumulator (R26): a scale byte of 0xFF makes every product of its block NaN (R27). -/
def cellUpdate (acc : W32) (ps : List (FVal × FVal)) : W32 := toF32 ((f32 acc).add (sumProducts ps))

/-! Philox4x32-10 (R61 to R64). -/

def mul32 (a b : Nat) : Nat × Nat := ((a * b) / 2 ^ 32, (a * b) % 2 ^ 32)

def philoxRounds : Nat → Nat → Nat → Nat × Nat × Nat × Nat → Nat × Nat × Nat × Nat
  | 0, _, _, c => c
  | n + 1, k0, k1, (c0, c1, c2, c3) =>
    let p0 := mul32 0xD2511F53 c0
    let p1 := mul32 0xCD9E8D57 c2
    philoxRounds n ((k0 + 0x9E3779B9) % 2 ^ 32) ((k1 + 0xBB67AE85) % 2 ^ 32)
      (p1.1 ^^^ c1 ^^^ k0, p1.2, p0.1 ^^^ c3 ^^^ k1, p0.2)

/-- Four output words of one call (R61). -/
def philox (k0 k1 c0 c1 c2 c3 : Nat) : List Nat :=
  let r := philoxRounds 10 k0 k1 (c0, c1, c2, c3)
  [r.1, r.2.1, r.2.2.1, r.2.2.2]

/-- The 16-bit value u of element e (R62, R63): seed, purpose, tensor identifier, draw index. -/
def drawU (seed purpose tensor draw e : Nat) : Nat :=
  let e := e % 2 ^ 48
  let g := e / 8
  let l := e % 8
  let x := philox (seed % 2 ^ 32) (seed / 2 ^ 32 % 2 ^ 32) (g % 2 ^ 32)
    (g / 2 ^ 32 % 2 ^ 13 + purpose % 16 * 2 ^ 16) (tensor % 2 ^ 32) (draw % 2 ^ 32)
  let w := x.getD (l / 2) 0
  if l % 2 = 0 then w % 65536 else w / 65536

/-- The conversion mode of an element under a command's `RMODE` (R58), SR drawing with purpose 1 (R62). -/
def modeOf (rmode seed tensor draw e : Nat) : Mode :=
  match rmode with
  | 0 => .rne
  | 1 => .rtz
  | _ => .sr (drawU seed 1 tensor draw e)

/-! Elements in memory (R53). -/

/-- The n element patterns of a packed byte sequence. -/
def unpackElems (code n : Nat) (bs : Bytes) : List Nat :=
  let w := fmtBits code
  if w % 8 = 0 then ((chunks (w / 8) bs).map leNat).take n
  else
    let v := leNat bs
    (List.range n).map fun i => (v >>> (w * i)) % 2 ^ w

/-- The packed bytes of element patterns. -/
def packElems (code : Nat) (xs : List Nat) : Bytes :=
  let w := fmtBits code
  if w % 8 = 0 then xs.flatMap fun x => natLe (w / 8) x
  else natLe (ceilDiv (w * xs.length) 8) (xs.foldr (fun x a => x % 2 ^ w + (a <<< w)) 0)

/-- A role's n elements as FP32 (R55, R156): an MX role carries all its elements and then one scale byte per run
of 32. -/
def readElems (code n : Nat) (bs : Bytes) : List W32 :=
  let es := unpackElems code n bs
  if fmtIsMx code then
    let sc := bs.drop (fmtBytes code n)
    es.mapIdx fun i w => toF32 (decodeElem code w ((sc.getD (i / 32) 127#8).toNat))
  else if code = 0 then es.map (BitVec.ofNat 32)
  else es.map fun w => toF32 (decodeElem code w 127)

/-- Bytes a role of n elements carries, scales included (R156). -/
def roleBytes (code n : Nat) : Nat := fmtBytes code n + (if fmtIsMx code then n / 32 else 0)

/-- The converted elements of a result role and, for an MX format, its scales after them (R56, R60, R156); element
i converts in mode `mode i`. -/
def convElems (code : Nat) (mode : Nat → Mode) (xs : List W32) : Bytes :=
  if fmtIsMx code then
    let blocks := (List.range (ceilDiv xs.length 32)).map fun b =>
      encodeMxBlock code (fun i => mode (32 * b + i)) (((xs.drop (32 * b)).take 32).map f32)
    packElems code (blocks.flatMap Prod.fst) ++ blocks.map fun p => BitVec.ofNat 8 p.2
  else packElems code (xs.mapIdx fun i x => encodeFmt (fmtOf code) (mode i) (f32 x))

end Sys2Proof.Machine
end

