-- ==== Sys2Proof/Machine/Cost.lean ====
section
/-! DEFINITION. The opcode table of R150 with its flags, roles and classes (R151 to R155), the cycle costs (R29, R39,
R144, R163 to R184), and the value-dependent constraints checked at the start of an iteration (R133). -/

namespace Sys2Proof.Machine

/-- Pre-emption classes (R151). -/
inductive OpClass where
  | I | B | C
  deriving DecidableEq, Repr

/-- What an opcode's entry says of the command word: allowed and required ring roles (bit r = role r), allowed
`OPC_FLAGS`, whether `IMM32` has a meaning, the pre-emption class, and whether SR is accepted (R154, R155). -/
structure OpInfo where
  roles : Nat
  need  : Nat
  flags : Nat
  imm   : Bool
  cls   : OpClass := .I
  sr    : Bool := false
  deriving DecidableEq, Repr

/-- A command carries SR (R155). -/
def cDraws (w : Nat) : Bool := cMode w == 2

/-- The roles that an ELEMWISE function reads, with its result (R164). -/
def elemRoles (f : Nat) : Nat :=
  if f = 3 then 0b001111
  else if f ≤ 5 ∨ f = 9 ∨ f = 0xA then 0b001011 else 0b001001

/-- The function takes mask bits (R164). -/
def elemMask (f : Nat) : Bool := f == 9 || f == 0xA

/-- The entry of an opcode (R150, R154 to R184); none for a reserved value. -/
def opInfo (w : Nat) : Option OpInfo :=
  let f := cFlags w
  match cOp w with
  | 0x01 | 0x02 =>
    let r := if bit f 3 then 0b001111 else 0b001011
    some ⟨r, r, 0xF, cDraws w || !cUses w 0, .I, true⟩
  | 0x03 => let r := if bit f 3 then 0b001111 else 0b001011
    some ⟨r, r, 0xF, !cUses w 0, .I, false⟩
  | 0x08 => some ⟨elemRoles f, elemRoles f, 0xF, cDraws w, .I, true⟩
  | 0x10 => let r := if bit f 0 then 0b001111 else 0b001011
    some ⟨r, r, 0x1, false, .I, false⟩
  | 0x11 => some ⟨0b011111, 0b011111, 0x1, false, .I, false⟩
  | 0x12 => some ⟨0b001001, 0b001001, 0, false, .I, false⟩
  | 0x13 => some ⟨0b001011, 0b001011, 0, false, .I, false⟩
  | 0x18 => let r := if bit f 1 then 0b011011 else 0b001011
    some ⟨r, r, 0x3, true, .I, false⟩
  | 0x19 => let r := if bit f 1 then 0b011011 else 0b011111
    some ⟨r, r, 0x3, true, .I, false⟩
  | 0x1A => some ⟨0b001011, 0b001011, 0, cDraws w, .I, true⟩
  | 0x1B => some ⟨0b001011, 0b001011, 0, false, .I, false⟩
  | 0x20 => some ⟨0b001001, 0b001001, 0x3, false, .I, false⟩
  | 0x21 => some ⟨0b001000, 0b001000, 0, true, .I, false⟩
  | 0x22 => some ⟨0b001001, 0b001001, 0, cDraws w, .I, true⟩
  | 0x28 => some ⟨0b001001, 0b001001, 0, false, .I, false⟩
  | 0x29 => let r := if bit f 0 then 0b001111 else 0b001101
    some ⟨r, r, 0x1, false, .I, false⟩
  | 0x30 => some ⟨0b001111, 0b001111, 0x1, false, .I, false⟩
  | 0x38 => let r := if bit f 0 then 0b011001 else 0b001001
    some ⟨r, r, 0x1, false, .C, false⟩
  | 0x39 => some ⟨0b001011, 0b000011, 0x1, false, .I, false⟩
  | 0x3A => some ⟨0b011001, 0b011001, 0, false, .C, false⟩
  | 0x40 => let r := if bit f 0 then 0b011011 else 0b001001
    some ⟨r, r, 0x1, false, .C, false⟩
  | 0x41 => some ⟨0, 0, 0, false, .B, false⟩
  | 0x48 => some ⟨0, 0, 0x1, true, .B, false⟩
  | 0x49 => some ⟨0, 0, 0, true, .B, false⟩
  | 0x50 | 0x51 => some ⟨0, 0, 0, false, .I, false⟩
  | 0x58 => some ⟨0, 0, 0x3, f != 2, .B, false⟩
  | _ => none

/-- Determinism class N: unordered SCATTER_ADD (R152, R174). -/
def nonDet (w : Nat) : Bool := cOp w == 0x29 && cFlag w 32

/-- The operand and format rules of an opcode that hold of the word alone (R25, R158, R162, R164, R174, R182, R184,
R207). -/
def opCheck (w : Nat) : Bool :=
  let f := cFlags w
  match cOp w with
  | 0x01 | 0x02 =>
    cFmtA w != 0 && cFmtB w != 0 && fmtPack (cFmtA w) == fmtPack (cFmtB w) && (!cDraws w || cUses w 0)
  | 0x03 => cFmtA w != 0 && cFmtB w != 0 && fmtPack (cFmtA w) == fmtPack (cFmtB w) && cFmtOut w == 0
  | 0x08 => decide (f ≤ 0xD) && (!elemMask f || cFmtB w == 0)
  | 0x18 | 0x19 =>
    let ok (c : Nat) : Bool := decide (1 ≤ c) && decide (c ≤ 4)
    ok (cFmtA w) && ok (cFmtB w) && fmtPack (cFmtA w) == fmtPack (cFmtB w) &&
      (if cOp w = 0x18 then decide (cFmtOut w ≤ 4) else cFmtOut w == 0)
  | 0x20 => f != 3
  | 0x29 => cFmtA w == 0 && cFmtOut w == 0
  | 0x48 | 0x49 => cImm w &&& 0xC000FFFF == 0
  | 0x58 => cUses w 0 && f != 3 && (f != 2 || cUses w 1)
  | _ => true

/-- The format fields that an opcode reads: bit 0 `FMT_A`, bit 1 `FMT_B`, bit 2 `FMT_OUT` (R129, R158 to R184). -/
def opFmts (w : Nat) : Nat :=
  match cOp w with
  | 0x01 | 0x02 | 0x03 | 0x10 | 0x11 | 0x13 | 0x18 | 0x19 => 0b111
  | 0x08 => if bit (elemRoles (cFlags w)) 1 && !elemMask (cFlags w) then 0b111 else 0b101
  | 0x12 | 0x1A | 0x1B | 0x22 | 0x28 | 0x29 => 0b101
  | 0x20 => 0b001
  | _ => 0

/-- A format field that the opcode does not read is zero (R129). -/
def fmtsOk (w : Nat) : Bool :=
  (bit (opFmts w) 0 || cFmtA w == 0) && (bit (opFmts w) 1 || cFmtB w == 0) && (bit (opFmts w) 2 || cFmtOut w == 0)

/-- Cycles of one pass of a product: direct or transposed load paths, or the turn-register fallback for t transposed
operands (R29, R39). -/
def passCost (k p t : Nat) : Nat := if t = 0 then k / p + 64 else 2 * t * k / p + 96

/-- The cost of a matrix product at width W with t operands on the fallback (R29, R39). -/
def productCost (d p wid t : Nat) : Nat := ceilDiv (dimM d) 32 * ceilDiv (dimN d) wid * passCost (dimK d) p t

/-- Lane cycles per element of an ELEMWISE function (R164). -/
def elemCycles : Nat → Nat
  | 0xB => 10
  | 0xC => 13
  | _ => 1

/-- The attention cost of one iteration (R167). -/
def attnCost (w : Nat) (ops : List Nat) (wid : Nat) : Nat :=
  let nb := opnd ops 0
  let d := opnd ops 1
  let p := fmtPack (cFmtA w)
  if cOp w = 0x18 then
    nb * (4 * ceilDiv 256 wid * (d / p + 64) + 4 * ceilDiv d wid * (256 / p + 64) + 4096) + 1024
  else
    nb * (8 * ceilDiv 256 wid * (d / p + 64) + 8 * ceilDiv d wid * (128 / p + 64)
      + 4 * ceilDiv d wid * (256 / p + 64) + 6144
      + if cFlag w 33 then 4 * ceilDiv 256 wid * (d / p + 64) + 2048 else 0)

/-- The stall-free cycles of one iteration (R144, R163 to R184) at width `wid`, with the fallback for `t` operands. -/
def iterCostAt (w : Nat) (ops : List Nat) (wid t : Nat) : Nat :=
  let n := opnd ops 0
  let l := opnd ops 1
  let f := cFlags w
  match cOp w with
  | 0x01 | 0x02 | 0x03 => productCost (dimWord w ops) (fmtPack (cFmtA w)) wid t
  | 0x08 => elemCycles f * ceilDiv n 64 + 16
  | 0x10 => n * (if bit f 0 then 5 * ceilDiv l 64 + 24 else 3 * ceilDiv l 64 + 16)
  | 0x11 => n * (if bit f 0 then 12 * ceilDiv l 64 + 32 else 8 * ceilDiv l 64 + 24)
  | 0x12 => n * (10 * ceilDiv l 64 + 24)
  | 0x13 => n * (14 * ceilDiv l 64 + 32)
  | 0x18 | 0x19 => attnCost w ops wid
  | 0x1A => n * (2 * ceilDiv (opnd ops 2) 64 + 8)
  | 0x1B => l * ceilDiv (2 * opnd ops 3 * (fmtBits (cFmtOut w) / 8)) 384 + 64
  | 0x20 => ceilDiv n 64 + 8
  | 0x21 => ceilDiv n 64 + 16
  | 0x22 => (if fmtIsMx (cFmtOut w) then 2 else 1) * ceilDiv n 64 + 16
  | 0x28 => n * ceilDiv l 64 + 16
  | 0x29 => opnd ops 3 * (ceilDiv l 64 + 2) + 2 * ceilDiv (4 * opnd ops 2 * l) 384 + 32
  | 0x30 => 19 * ceilDiv n 64 + 32
  | 0x38 | 0x39 | 0x3A => 64 * n + 32
  | 0x40 => (if bit f 0 then 4 else 1) * ceilDiv n 64 + 32
  | 0x41 | 0x48 | 0x49 => 8
  | 0x50 => ceilDiv l 32 + 16
  | 0x51 =>
    let len := opnd ops 2
    let share := (List.range 32).any fun b =>
      decide (0 < len) && decide (n < (b + 1) * 0x3000) && decide (b * 0x3000 < n + len) &&
        decide (l < (b + 1) * 0x3000) && decide (b * 0x3000 < l + len)
    (if share then 2 else 1) * ceilDiv len 32 + 24
  | 0x58 => 4
  | _ => 0

/-- The bound cost of one iteration: width 24 and the fallback wherever a transposed layout is selected (R144). -/
def iterCost (w : Nat) (ops : List Nat) : Nat :=
  iterCostAt w ops 24 (if cOp w ≤ 3 then b2n (cFlag w 32) + b2n (cFlag w 33) else 0)

/-- The bound that a command's cost is held to (R144). -/
def costBound (w segment : Nat) : Nat := if commitClass (cOp w) then 850000 else segment

/-- The sum of the costs of iterations i, i + 1, …, stopping as soon as it exceeds the bound. -/
def costSum (x : Ctx) (w : Nat) (counts : List Nat) (bound : Nat) : Nat → Nat → Nat → Nat
  | 0, _, acc => acc
  | n + 1, i, acc =>
    if bound < acc then acc
    else costSum x w counts bound n (i + 1) (acc + iterCost w (opValues x w (iterAt counts i)))

/-- The whole-command cost exceeds its bound (R133, R144). -/
def wholeOver (x : Ctx) (w : Nat) (counts : List Nat) (segment : Nat) : Bool :=
  let b := costBound w segment
  if cIncMask w = 0 then decide (b < iterCount counts * iterCost w (opValues x w (counts.map fun _ => 0)))
  else decide (b < costSum x w counts b (iterCount counts) 0 0)

/-- A row or element count that an MX role needs in whole blocks (R156). -/
def mxBad (w n : Nat) (codes : List Nat) : Bool := codes.any fmtIsMx && decide (n % 32 ≠ 0) && decide (cOp w ≠ 0)

/-- The command is the SEAL or the CHECK_SEAL of a closing pair (R186); `next` is the following command word. -/
def closingPair (w next : Nat) : Bool :=
  cMash w && ((cOp w == 0x39 && cFlag w 32) || (cOp w == 0x38 && cOp next == 0x39 && cFlag next 32 && cMash next))

/-- The value-dependent constraints of an iteration fail (R133): dimension rules, ranges and block rules of each
entry. `counts` are the loop counts and `next` the following command word. -/
def iterBad (w next : Nat) (counts ops : List Nat) : Bool :=
  let n := opnd ops 0
  let l := opnd ops 1
  match cOp w with
  | 0x01 | 0x03 =>
    let d := dimWord w ops
    dimK d == 0 || (fmtIsMx (cFmtOut w) && decide (dimN d % 32 ≠ 0))
  | 0x02 =>
    let d := dimWord w ops
    dimK d == 0 || (fmtIsMx (cFmtOut w) && decide (dimM d % 32 ≠ 0))
  | 0x08 => n == 0 || mxBad w n [cFmtA w, if elemMask (cFlags w) then 0 else cFmtB w, cFmtOut w]
  | 0x10 | 0x11 | 0x12 | 0x13 => l == 0 || decide (16384 < l) || mxBad w l [cFmtA w, cFmtB w, cFmtOut w]
  | 0x18 | 0x19 =>
    n == 0 || decide (65536 < n) || !(l == 64 || l == 128) || decide (2 ^ 24 < opnd ops 2 + 128) ||
      decide (2 ^ 24 < opnd ops 3 + 256 * n) ||
      (cOp w == 0x19 && cFlag w 33 && (match counts.getLast? with | some c => c != 1 | none => false))
  | 0x1A =>
    let d := opnd ops 2
    d % 2 == 1 || d == 0 || decide (16384 < d) || mxBad w d [cFmtA w, cFmtOut w]
  | 0x1B => decide (4095 < n) || l == 0 || decide (256 < l) || mxBad w (opnd ops 3) [cFmtA w]
  | 0x20 => mxBad w n [cFmtA w]
  | 0x21 => decide (65535 < opnd ops 2)
  | 0x22 => mxBad w n [cFmtA w, cFmtOut w]
  | 0x28 => mxBad w l [cFmtA w, cFmtOut w]
  | 0x29 => l % 8 != 0 || decide (16384 < l)
  | 0x30 => n % 256 != 0
  | 0x38 => closingPair w next && decide (fld (opnd ops 2) 31 24 ≠ 0)
  | 0x39 => closingPair w next && (decide (fld (opnd ops 2) 31 24 ≠ 0) || l == 0 || decide (65535 < l))
  | 0x40 => cFlag w 32 && n % 256 != 0
  | 0x41 => decide (65535 < n)
  | _ => false

end Sys2Proof.Machine
end

