-- ==== Sys2Proof/Machine/Recipe.lean ====
section
/-! DEFINITION. Recipe images (R122 to R124), the checks of the header (R126 step 3) and the validator (R106, R127 to
R131, R146, R154, R189). An image is the list of its 256-bit entries. -/

namespace Sys2Proof.Machine

/-- ENTRY_COUNT. -/
def hCount (h : Nat) : Nat := fld h 10 0
/-- PROG_BASE. -/
def hProgBase (h : Nat) : Nat := fld h 223 214
/-- PROG_WORDS. -/
def hProgWords (h : Nat) : Nat := fld h 213 203
/-- PROG_ENTRY. -/
def hProgEntry (h : Nat) : Nat := fld h 202 193
/-- ARM_ENTRY. -/
def hArmEntry (h : Nat) : Nat := fld h 192 183
/-- ARM_COUNT. -/
def hArmCount (h : Nat) : Nat := fld h 182 181
/-- FIRST_CMD. -/
def hFirst (h : Nat) : Nat := fld h 180 171

/-- The R123 ranges of a header hold, and the region fits recipe memory (R126 step 3). -/
def headerOk (h base : Nat) : Bool :=
  decide (hProgBase h + hProgWords h ≤ 1024) && decide (hArmCount h ≤ 2) && fld h 170 24 == 0 && fld h 23 16 == 1 &&
    fld h 15 11 == 0 && decide (2 ≤ hCount h) && decide (hCount h ≤ 1024) && decide (base + hCount h ≤ 1024)

/-- Two runs [a, a + la) and [b, b + lb) share an element. -/
def runsMeet (a la b lb : Nat) : Bool := decide (0 < la) && decide (0 < lb) && decide (a < b + lb) && decide (b < a + la)

/-- Region and grist run are free on the core (R122). -/
def Core.runFree (c : Core) (h base count pb pw : Nat) : Bool :=
  c.ctxs.all fun e => e.1 == h || e.2.count == 0 ||
    (!runsMeet base count e.2.base e.2.count && !runsMeet pb pw e.2.progBase e.2.progWords)

/-- Entry e of an image. -/
def imgEntry (img : List Nat) (e : Nat) : Nat := (img[e]?).getD 0

/-- Grist word j of an image. -/
def imgGrist (img : List Nat) (j : Nat) : Nat :=
  let e := imgEntry img (hProgEntry (imgEntry img 0) + j / 8)
  fld e (32 * (j % 8) + 31) (32 * (j % 8))

/-- The last entry of the command range from entry e on: the first command with END (R124). -/
def rangeEnd (img : List Nat) : Nat → Nat → Option Nat
  | 0, _ => none
  | fuel + 1, e =>
    if img.length ≤ e then none else if cEnd (imgEntry img e) then some e else rangeEnd img fuel (e + 1)

/-- The command range of an image: first and last entry (R124). -/
def cmdRange (img : List Nat) : Option (Nat × Nat) :=
  let f := hFirst (imgEntry img 0)
  (rangeEnd img 1024 f).map (f, ·)

/-! ### Grist programs (R106) -/

/-- What the check of one grist program finds. -/
structure GristScan where
  reach : List (Nat × Nat)       -- word and nesting depth, still to visit
  ok    : Bool := true
  acc   : Bool := false          -- holds a STORE or SCATTER with ACC other than 0
  accs  : List Nat := []         -- the ACC values of its STOREs and SCATTERs
  seta0 : Bool := false          -- loads AR0 with SETA
  deriving DecidableEq, Repr

/-- The word after the ENDL that matches a LOOP of a run, searched from word j. -/
def runEndl (word : Nat → Nat) : Nat → Nat → Nat → Nat
  | 0, j, _ => j
  | fuel + 1, j, depth =>
    match decodeGrist (word j) with
    | some (.endl ..) => if depth = 0 then j + 1 else runEndl word fuel (j + 1) (depth - 1)
    | some (.loopImm ..) | some (.loopReg ..) => runEndl word fuel (j + 1) (depth + 1)
    | _ => runEndl word fuel (j + 1) depth

/-- Visit one reachable word of a program. -/
def GristScan.visit (s : GristScan) (word : Nat → Nat) (words j depth : Nat) : GristScan :=
  match decodeGrist (word j) with
  | none => { s with ok := false }
  | some g =>
    let next (s : GristScan) (d : Nat) : GristScan := { s with reach := (j + 1, d) :: s.reach }
    match g with
    | .loopImm lvl c =>
      if lvl.val ≠ depth ∨ 4 ≤ depth then { s with ok := false }
      else if c.val = 0 then next { s with reach := (runEndl word words (j + 1) 0, depth) :: s.reach } (depth + 1)
      else next s (depth + 1)
    | .loopReg lvl _ =>
      if lvl.val ≠ depth ∨ 4 ≤ depth then { s with ok := false }
      else next { s with reach := (runEndl word words (j + 1) 0, depth) :: s.reach } (depth + 1)
    | .endl lvl .. => if depth = 0 ∨ lvl.val + 1 ≠ depth then { s with ok := false } else next s (depth - 1)
    | .store _ _ a _ => next { s with acc := s.acc || a.val != 0, accs := a.val :: s.accs } depth
    | .scatter _ _ _ _ _ a => next { s with acc := s.acc || a.val != 0, accs := a.val :: s.accs } depth
    | .seta ar _ _ => next { s with seta0 := s.seta0 || ar.val == 0 } depth
    | .done => s
    | _ => next s depth

/-- Check the program that starts at word `start` of a run of `words` words: every path is followed, in one pass,
since every branch but that of ENDL goes forward (R106). -/
def gristScan (word : Nat → Nat) (words start : Nat) : GristScan :=
  let r := (List.range words).foldl (fun (s : GristScan) j =>
    ((s.reach.filter fun e => e.1 == j).map (·.2)).eraseDups.foldl (fun s d => s.visit word words j d) s)
    { reach := [(start, 0)] }
  { r with ok := r.ok && decide (start < words) && !(r.reach.any fun e => decide (words ≤ e.1)) }

/-- Every grist word that is loaded holds an instruction with no reserved opcode, field or value, whether or not a program
reaches it (R104, R106). -/
def gristWords (img : List Nat) : Bool :=
  (List.range (hProgWords (imgEntry img 0))).all fun j => (decodeGrist (imgGrist img j)).isSome

/-! ### Command words (R127 to R131, R153, R154) -/

/-- The field rules of a command word that need no other entry. A field that the command does not use is zero (R129): the
rule's own list, and by its first sentence also `INC_BASE` without `INC_MASK`, the increments of an operand that is not
used, and the format fields that the opcode does not read (DEDUCED, log entry 64). -/
def wordOk (w : Nat) (i : OpInfo) : Bool :=
  fld w 119 118 == 0 && fld w 43 43 == 0 && fld w 36 36 == 0 && fld w 29 24 == 0 && cTag w != 0 &&
    decide (cDepth w ≤ 4) && (if cIncMask w = 0 then cIncBase w == 0 else decide (cIncBase w + 15 ≤ 63)) && fmtsOk w && cMode w != 3 && (cMode w != 2 || i.sr) &&
    fmtAssigned (cFmtA w) && fmtAssigned (cFmtB w) && fmtAssigned (cFmtOut w) &&
    decide (cRingCnt w ≤ 8) && decide (cStreamCnt w ≤ 8) && (cRingCnt w != 0 || cRingDesc w == 0) &&
    (cStreamCnt w != 0 || cStreamDesc w == 0) && (i.imm || cImm w == 0) && (cFlags w &&& (15 - i.flags)) == 0 &&
    (fld w 223 218 &&& (63 - i.roles)) == 0 && (fld w 223 218 &&& i.need) == i.need &&
    (i.roles != 0 || (cRingCnt w == 0 && cStreamCnt w == 0)) &&
    (i.cls != .B || (!cRest w && cDepth w == 0)) && (i.cls != .C || !cRest w) &&
    ((List.range 4).all fun l =>
      if cDepth w ≤ l then cLoop w l == 0 && fld (cIncMask w) (4 * l + 3) (4 * l) == 0
      else !bit (cLoop w l) 12 || fld (cLoop w l) 11 6 == 0) &&
    ((List.range 4).all fun k =>
      cUses w k || (cOpr w k == 0 && (List.range 4).all fun l => !bit (cIncMask w) (4 * l + k))) &&
    ((List.range 6).all fun r => cHasRole w r || cRole w r == 0) && opCheck w

/-- The ring descriptors of a command. -/
def ringEntries (w : Nat) : List Nat := (List.range (cRingCnt w)).map (cRingDesc w + ·)
/-- The stream descriptors of a command. -/
def streamEntries (w : Nat) : List Nat := (List.range (cStreamCnt w)).map (cStreamDesc w + ·)

/-- An entry index may hold a descriptor: inside the image, outside header and command range (R127). -/
def descPlace (img : List Nat) (lo hi e : Nat) : Bool :=
  decide (1 ≤ e) && decide (e < img.length) && !(decide (lo ≤ e) && decide (e ≤ hi))

/-- The scan of the grist program that a stream descriptor starts. -/
def progOf (img : List Nat) (desc : Nat) : GristScan :=
  let h := imgEntry img 0
  gristScan (imgGrist img) (hProgWords h) (fld desc 9 0 - hProgBase h)

/-- A stream descriptor passes at load (R106, R127): its program lies in the run and is accepted, loads AR0 by SETA
only outside RESIDENT, and accumulates only in a commit-class command. -/
def streamLoadOk (img : List Nat) (w desc : Nat) : Bool :=
  let h := imgEntry img 0
  let p := fld desc 9 0
  let g := progOf img desc
  decide (hProgBase h ≤ p) && decide (p < hProgBase h + hProgWords h) && g.ok &&
    !(bit desc 114 && g.seta0) && (!g.acc || commitClass (cOp w))

/-- Every ring that the command opens has a producer end and a consumer end attached by it (R129). -/
def ringEndsOk (img : List Nat) (w : Nat) : Bool :=
  let opened := (ringEntries w).map fun e => fld (imgEntry img e) 84 80
  let descs := (streamEntries w).map (imgEntry img)
  ((List.range 6).all fun r => !cHasRole w r || opened.contains (cRole w r)) &&
    opened.all fun rn =>
      ((descs.any fun d => !bit d 14 && fld d 20 16 == rn) ||
        (List.range 3).any fun r => cHasRole w (r + 3) && cRole w (r + 3) == rn) &&
      ((descs.any fun d => bit d 14 && fld d 20 16 == rn) ||
        (List.range 3).any fun r => cHasRole w r && cRole w r == rn)

/-- The OUT0 drain of REDUCE_PUSH accumulates in the command's mode (R181). -/
def reduceAccOk (img : List Nat) (w : Nat) : Bool :=
  cOp w != 0x40 ||
    (streamEntries w).all fun e =>
      let d := imgEntry img e
      !(bit d 14 && fld d 20 16 == cRole w 3) ||
        (progOf img d).accs.all fun a => a == if cFlag w 32 then 2 else 1

/-- Every loop count and dimension of the command is literal (R127, R144). -/
def literalCost (w : Nat) : Bool :=
  ((List.range (cDepth w)).all fun l => !bit (cLoop w l) 12) &&
    (match cOp w with
      | 0x01 | 0x02 | 0x03 => !cUses w 0
      | 0x41 | 0x48 | 0x49 | 0x58 => true
      | _ => false)

/-- A literal cost breaks its bound (R144). -/
def literalOver (w segment : Nat) : Bool :=
  let counts := (List.range (cDepth w)).map fun l => cLoop w l % 4096 + 1
  literalCost w && decide (costBound w segment < (if cRest w then 1 else iterCount counts) * iterCost w [])

/-- The statuses that one command of an image draws at load (R127, R152). -/
def cmdFaults (img : List Nat) (lo hi segment e : Nat) : List Status :=
  let w := imgEntry img e
  match opInfo w with
  | none => [.recipeInvalid]
  | some i =>
    let ok := wordOk w i &&
      ((ringEntries w).all fun r => descPlace img lo hi r) && ((streamEntries w).all fun r => descPlace img lo hi r) &&
      ringEndsOk img w && ((streamEntries w).all fun r => streamLoadOk img w (imgEntry img r)) &&
      reduceAccOk img w && !literalOver w segment
    (if ok then [] else [.recipeInvalid]) ++ (if cMash w && nonDet w then [.nondeterministic] else [])

/-! ### Mash sections (R185, R186, R189) -/

/-- The commands of the mash section, by entry. -/
def mashCmds (img : List Nat) (lo hi : Nat) : List Nat :=
  ((List.range (hi + 1 - lo)).map (lo + ·)).filter fun e => cMash (imgEntry img e)

/-- The closing CHECK_SEAL of an image, when it holds a mash section: its entry. -/
def closingEntry (img : List Nat) : Option Nat :=
  match cmdRange img with
  | some (lo, hi) => (mashCmds img lo hi).getLast?
  | none => none

/-- The seal register and the check register (R186). -/
def sealReg (img : List Nat) (e : Nat) : Nat := cLoop (imgEntry img (e - 1)) 0 % 64
/-- The check register (R186). -/
def checkReg (img : List Nat) (e : Nat) : Nat := cLoop (imgEntry img e) 0 % 64

/-- The closing pair of R186 stands at entries e − 1 and e. -/
def pairOk (img : List Nat) (e : Nat) : Bool :=
  let a := imgEntry img (e - 1)
  let b := imgEntry img e
  let common (w : Nat) : Bool := cDepth w == 1 && bit (cLoop w 0) 12 && cIncMask w == 0 && cMash w
  cOp a == 0x38 && cOp b == 0x39 && cFlag b 32 && common a && common b && fld a 147 144 == 0b1101 &&
    fld b 147 144 == 0b1111 && cOpr a 2 == cOpr b 2 && cOpr a 3 == cOpr b 3 && sealReg img e != checkReg img e

/-- Opcodes refused inside a mash section (R189). -/
def mashBanned (op : Nat) : Bool := op == 0x40 || op == 0x41 || op == 0x30 || op == 0x3A || op == 0x1B

/-- The refusals of R189 that concern an image's mash section. -/
def mashFaults (img : List Nat) (lo hi : Nat) : List Status :=
  let range := (List.range (hi + 1 - lo)).map (lo + ·)
  let sec := mashCmds img lo hi
  let stray := range.any fun e =>
    let w := imgEntry img e
    cOp w == 0x39 && cFlag w 32 && !cMash w
  (if stray then [.recipeInvalid] else []) ++
  match sec, sec.getLast? with
  | f :: _, some l =>
    let contiguous := decide (l + 1 - f = sec.length)
    let bannedIn := sec.any fun e => mashBanned (cOp (imgEntry img e)) ||
      (streamEntries (imgEntry img e)).any fun d => (progOf img (imgEntry img d)).acc
    let held := [sealReg img l, checkReg img l, cOpr (imgEntry img l) 2, cOpr (imgEntry img l) 3]
    let patches := range.any fun e =>
      let w := imgEntry img e
      cOp w == 0x58 && cUses w 0 && held.contains (cOpr w 0)
    if contiguous && decide (2 ≤ sec.length) && pairOk img l && !bannedIn && !patches then [] else [.recipeInvalid]
  | _, _ => []

/-- The refusals of R189 under `mash.policy` 0, of every image, with a mash section or without (DEDUCED, log entry 70): one
that does not fit the arbitration region of its partition, and a load into the arbitration context or over that region. -/
def State.arbFaults (s : State) (p h base : Nat) (img : List Nat) : List Status :=
  let hd := imgEntry img 0
  let ab := s.reg (0x9400 + p) 0xA
  let ap := s.reg (0x9400 + p) 0xB
  if s.reg (0x9400 + p) 8 ≠ 0 then []
  else conds [
    (decide (1024 - ab < img.length) || decide (1024 - ap < hProgWords hd), .recipeInvalid),
    (h == s.reg (0x9400 + p) 9 || decide (ab < base + img.length) ||
      (decide (hProgWords hd ≠ 0) && decide (ap < hProgBase hd + hProgWords hd)), .accessDenied)]

/-! ### The validator -/

/-- The eight arm records of an entry (R146). -/
def armRecords (img : List Nat) : List Nat :=
  let h := imgEntry img 0
  (List.range (8 * hArmCount h)).map fun i =>
    let e := imgEntry img (hArmEntry h + i / 8)
    fld e (32 * (i % 8) + 31) (32 * (i % 8))

/-- The statuses that arm records draw (R127, R146). -/
def State.armFaults (s : State) (p : Nat) (img : List Nat) : List Status :=
  (armRecords img).filterMap fun r =>
    if !bit r 31 then (if r = 0 then none else some .recipeInvalid)
    else if bit r 30 || fld r 15 0 == 0 then some .recipeInvalid
    else if s.fused (fld r 29 24) then some .engineAbsent
    else match (s.barrier (fld r 29 24) (fld r 23 16)).owner with
      | some q => if q = p then none else some .accessDenied
      | none => none

/-- A grist or arm run of entries lies in the image, outside the header and the command range (R127). -/
def blockPlace (img : List Nat) (lo hi e n : Nat) : Bool :=
  decide (n = 0) || (decide (1 ≤ e) && decide (e + n ≤ img.length) && !runsMeet e n lo (hi + 1 - lo))

/-- Every status that the validator finds (R127, R189) in an image loaded for client c of partition p into context h
at region base `base`. -/
def State.validate (s : State) (p c h base : Nat) (img : List Nat) : List Status :=
  let hd := imgEntry img 0
  match cmdRange img with
  | none => .recipeInvalid :: s.armFaults p img
  | some (lo, hi) =>
    let range := (List.range (hi + 1 - lo)).map (lo + ·)
    let place := decide (1 ≤ lo) && blockPlace img lo hi (hProgEntry hd) (ceilDiv (hProgWords hd) 8) &&
      blockPlace img lo hi (hArmEntry hd) (hArmCount hd) && gristWords img
    let draws := range.any fun e => cDraws (imgEntry img e) || cOp (imgEntry img e) == 0x21
    let seedBad := draws && s.reg 0x9200 0 == 1 && s.reg (0x9100 + p) c == 0
    (if place && !seedBad then [] else [.recipeInvalid]) ++
      range.flatMap (cmdFaults img lo hi (s.reg 0x9300 0)) ++ mashFaults img lo hi ++ s.arbFaults p h base img ++
      s.armFaults p img

/-- The image that a context holds in recipe memory. -/
def State.image (s : State) (n : Nat) (x : Ctx) : List Nat := (List.range x.count).map (s.entry n x)

end Sys2Proof.Machine
end

