-- ==== Sys2Proof/Machine/Runs.lean ====
section
/-! DEFINITION. Starting a run (R140): its classification (R188), the barrier record of a first re-steep start (R196),
and the wake of a gated core group (R405). -/

namespace Sys2Proof.Machine

/-! ### Core groups (R405) -/

/-- The group of a core: its logical row. -/
def groupOf (n : Nat) : Nat := n % 256 / 16

/-- The group of core n is awake (R405). -/
def State.awake (s : State) (n : Nat) : Bool := bit (s.reg 0x2013 (n / 256)) (groupOf n)

/-- The step of a request in mA (R406). -/
def State.stepCost (s : State) (q : GovReq) : Nat :=
  match q.group with
  | none => 1500
  | some _ => match s.reg 0x2011 q.die with
    | 3 => 300
    | 2 => 210
    | 1 => 140
    | _ => 100

/-- Grant a request: the group wakes, or the raise of one point proceeds (R401, R405, R406). -/
def State.grant (s : State) (q : GovReq) : State :=
  let s : State := { s with power := { s.power with spent := s.power.spent + s.stepCost q } }
  match q.group with
  | some g =>
    let s := s.setReg 0x2013 q.die (setFld (s.reg 0x2013 q.die) g g 1)
    let s := s.bump 64 0x8000 3 1
    s.setReg 0x8000 4 (max (s.reg 0x8000 4) (min ((s.localNs - q.since) / 1000) (2 ^ 32 - 1)))
  | none =>
    match SMap.find? q.die s.power.moves with
    | some m => { s with power := { s.power with moves := SMap.put q.die { m with owed := m.owed - 1 } s.power.moves } }
    | none => s

/-- Grant the requests at the head of the queue while the window has budget (R406). Fuel bounds them. -/
def State.govern (s : State) : Nat → State
  | 0 => s
  | fuel + 1 =>
    match s.govQueue with
    | [] => s
    | q :: t =>
      if s.power.spent + s.stepCost q ≤ s.reg 0x2020 1 then (({ s with govQueue := t } : State).grant q).govern fuel else s

/-- Queue a request; it is granted in the current window when that has budget left (R406). -/
def State.askGovernor (s : State) (q : GovReq) : State :=
  ({ s with govQueue := s.govQueue ++ [q] } : State).govern (s.govQueue.length + 1)

/-- A wake request for the group of core n, when it is gated and none is queued (R405, R406). -/
def State.requestWake (s : State) (n : Nat) : State :=
  let q : GovReq := ⟨n / 256, some (groupOf n), s.localNs⟩
  if s.awake n || s.govQueue.any (fun e => e.die == q.die && e.group == q.group) then s
  else s.askGovernor q

/-! ### Gates -/

/-- The gate and collector of partition p. -/
def State.gate (s : State) (p : Nat) : Gate := SMap.get {} s.gates p
/-- Write the gate of partition p. -/
def State.setGate (s : State) (p : Nat) (g : Gate) : State := { s with gates := SMap.putD {} p g s.gates }

/-- The mash barriers of an image: the objects its arm records name (R196). -/
def mashBars (img : List Nat) : List Nat :=
  (armRecords img).filterMap fun r => if bit r 31 then some (fld r 29 24 * 256 + fld r 23 16) else none

/-- Record ARRIVED and PHASE of the mash barriers at the first re-steep start of a key (R196). -/
def State.recordBars (s : State) (p step mash : Nat) (img : List Nat) : State :=
  let g := s.gate p
  if g.bars.any fun e => e.1 == step && e.2.1 == mash then s
  else
    let bs := (mashBars img).map fun k =>
      let b := s.barrier (k / 256) (k % 256)
      (k, b.arrived, b.phase)
    s.setGate p { g with bars := g.bars ++ [(step, mash, bs)] }

/-- The run kind of a context whose image holds a mash section (R188); none when the start is refused. -/
def classify (x : Ctx) (img : List Nat) (e : Nat) : Option RunKind :=
  match x.param (sealReg img e) % 2 ^ 24, x.param (checkReg img e) % 2 ^ 24 with
  | 1, 0 => some .forward
  | 0, 1 => some .resteep
  | 0, 0 => some .plain
  | _, _ => none

/-- The context that begins its next run (R140). -/
def Ctx.begin (x : Ctx) (kind : RunKind) (pos first : Nat) : Ctx :=
  { x with state := .running, run := (x.run + 1) % 65536, next := first, cmd := none, layers := [], kind := kind,
           startPos := pos, startParams := x.params, lastTag := 0, lastIdx := 0, preempt := false, bounded := none,
           halted := false, stepOne := false }

/-- Start a run of a READY or DONE context (R139, R140, R188, R196). It answers the status of the start. -/
def State.startRun (s : State) (n h : Nat) : State × Status :=
  let x := s.ctx n h
  if x.state != .ready && x.state != .done then (s, .busy)
  else
    let img := s.image n x
    let first := hFirst (imgEntry img 0)
    match closingEntry img with
    | none => (((s.setCtx n h (x.begin .plain (s.physPos n) first))).requestWake n, .ok)
    | some e =>
      match classify x img e with
      | none => (s, .recipeInvalid)
      | some kind =>
        let w := imgEntry img e
        let step := x.param (cOpr w 3)
        let mash := x.param (cOpr w 2)
        let s := if kind == .resteep then s.recordBars x.part step mash img else s
        let x' := { (x.begin kind (s.physPos n) first) with mashCmd := e, step := step, mash := mash }
        ((s.setCtx n h x').requestWake n, .ok)

end Sys2Proof.Machine
end

