-- ==== Sys2Proof/Machine/Cmd.lean ====
section
/-! DEFINITION. Commands (R131 to R136): starting a command with its rings and streams (R96, R98, R78, R92, R344),
opening and ending iterations (R133, R157), and the reading and writing of ring roles (R34, R100 to R102, R156). -/

namespace Sys2Proof.Machine

/-! ### Whose turn it is (R48, R437) -/

/-- A breakpoint matches the command that a context of core n is about to start (R437, R440). -/
def State.breakHit (s : State) (n : Nat) (x : Ctx) (w : Nat) : Bool :=
  (List.range 16).any fun i =>
    let b := s.reg 0x7031 i
    let scope := if bit b 41 then fld b 40 33 == x.part else fld b 13 0 == n
    scope && ((fld b 43 42 == 1 && fld b 63 48 == cTag w) || (fld b 43 42 == 2 && fld b 63 48 == x.next))

/-- A halt falls due before the next command of a context (R437). -/
def State.haltDue (s : State) (n h : Nat) : Bool :=
  let x := s.ctx n h
  x.haltReq || (!x.noMatch && s.breakHit n x (s.entry n x x.next))

/-- Core n can start the next command of context h now (R48, R82, R362, R405, R437). -/
def State.mayStart (s : State) (n h : Nat) : Bool :=
  let c := s.core n
  c.exec_.isNone && s.scan n == some h && !c.maint && c.retire.isNone && s.awake n && !s.haltDue n h

/-- The command of context h that core n executes now, while its iterations run. -/
def State.running (s : State) (n h : Nat) : Option CmdRun :=
  let c := s.core n
  let x := c.ctx h
  if c.exec_ == some h && x.state == .running && !c.maint then x.cmd.filter fun k => k.phase == .run else none

/-- Change the command of a context. -/
def State.modCmd (s : State) (n h : Nat) (f : CmdRun → CmdRun) : State :=
  s.modCtx n h fun x => { x with cmd := x.cmd.map f }

/-! ### Rings and streams at start -/

/-- Entry e of a context's region, as a descriptor. -/
def State.descs (s : State) (n : Nat) (x : Ctx) (es : List Nat) : List Nat := es.map (s.entry n x)

/-- A list has no repeats. -/
def distinct (l : List Nat) : Bool := decide (l.eraseDups.length = l.length)

/-- Step 2 of R134: the rings can open (R98). -/
def Core.ringsOk (c : Core) (rds : List Nat) : Bool :=
  let nos := rds.map fun d => fld d 84 80
  rds.all ringGeometry && distinct nos && nos.all fun r => (SMap.find? r c.rings).isNone

/-- Check 1 of R96. -/
def streamFields (d : Nat) : Bool :=
  fld d 255 115 == 0 && fld d 95 88 == 0 && fld d 31 27 == 0 && fld d 87 64 != 0 && !(bit d 114 && bit d 14) &&
    (bit d 114 || fld d 113 96 == 0)

/-- An instruction is allowed in a stream's direction (R104). -/
def dirAllows (drain : Bool) : Grist → Bool
  | .load .. | .gather .. | .emit .. => !drain
  | .store .. | .scatter .. | .take | .free => drain
  | _ => true

/-- The program from a word holds only allowed instructions before its first END (R96). -/
def Core.dirOk (c : Core) (drain : Bool) : Nat → Nat → Bool
  | 0, _ => true
  | fuel + 1, pc =>
    match c.gristAt pc with
    | none => false
    | some .done => true
    | some g => dirAllows drain g && c.dirOk drain fuel (pc + 1)

/-- Check 3 of R96, against the rings that the command opens. -/
def ringEndOk (rings : SMap Ring) (ds : List Nat) (d : Nat) : Bool :=
  match SMap.find? (fld d 20 16) rings with
  | none => false
  | some r =>
    (r.mask &&& fld d 63 32) == r.mask &&
      decide ((ds.filter fun e => fld e 20 16 == fld d 20 16 && bit e 14 == bit d 14).length ≤ 1)

/-- The leases that a command takes: those of its rings, then those of its streams outside their rings (R76, R95). -/
def wantedLeases (rings : SMap Ring) (ds : List Nat) : List Lease :=
  rings.map (fun e => ⟨e.2.mask, true⟩) ++ ds.filterMap fun d =>
    let ringMask := match SMap.find? (fld d 20 16) rings with | some r => r.mask | none => 0
    let m := fld d 63 32 &&& (2 ^ 32 - 1 - ringMask)
    if m = 0 then none else some ⟨m, bit d 15⟩

/-- Two leases conflict (R77). -/
def Lease.conflicts (a b : Lease) : Bool := (a.mask &&& b.mask) != 0 && (a.excl || b.excl)

/-- Some lease of a list conflicts with an active one or with an earlier one of the list (R78). -/
def leasesClash (active : List Lease) : List Lease → Bool
  | [] => false
  | l :: t => active.any l.conflicts || leasesClash (l :: active) t

/-- The banks that a client leases on a core, with further ones, exceed its budget (R344). -/
def State.overBudget (s : State) (n p cl : Nat) (more : List Lease) : Bool :=
  let c := s.core n
  let mine := (List.range 4).filter fun h => (c.ctx h).part == p && (c.ctx h).client == cl && (c.ctx h).state != .empty
  let m := (mine.map c.banksOf ++ more.map Lease.mask).foldl (fun a b => a ||| b) 0
  decide (s.reg (0x4200 + p) cl < popCount m 32)

/-- The status with which the streams and rings of a command are refused at start (R96, R98, R78, R344). -/
def State.startRefusal (s : State) (n h : Nat) (rds sds : List Nat) : Option Status :=
  let c := s.core n
  let x := c.ctx h
  if !c.ringsOk rds then some .ringMisconfig
  else
    let rings : SMap Ring := rds.foldl (fun m d => SMap.put (fld d 84 80) (ringOfDesc d h) m) []
    let want := wantedLeases rings sds
    firstFail [
      (!sds.all streamFields, .recipeInvalid),
      (!distinct (sds.map fun d => fld d 13 10) || sds.any (fun d => (SMap.find? (fld d 13 10) c.streams).isSome), .busy),
      (!sds.all (ringEndOk rings sds), .ringMisconfig),
      (!sds.all (fun d => c.dirOk (bit d 14) 1024 (fld d 9 0)), .ringMisconfig),
      (leasesClash c.leases want, .bankConflict),
      (s.overBudget n x.part x.client want, .accessDenied)]

/-- The stream that a descriptor starts (R94, R95, R103). -/
def streamOfDesc (d h op : Nat) (suppress : Bool) : Stream :=
  let g : SRegs := { pc := fld d 9 0 }
  { desc := d, ctx := h, ring := fld d 20 16, regs := g, ckpt := g, ckpts := [(0, g)], resident := bit d 114, op := op,
    suppress := suppress }

/-- The ends of a ring: the streams and the roles of the command that serve it. -/
def withEnds (w : Nat) (sds : List Nat) (rn : Nat) (r : Ring) : Ring :=
  let st (drain : Bool) := (sds.find? fun d => fld d 20 16 == rn && bit d 14 == drain).map fun d => fld d 13 10
  let role (base : Nat) := (List.range 3).find? fun k => cHasRole w (base + k) && cRole w (base + k) == rn
  { r with
    prod := match st false, role 3 with
      | some k, _ => .stream k
      | none, some k => .role (3 + k)
      | none, none => .none,
    cons := match st true, role 0 with
      | some k, _ => .stream k
      | none, some k => .role k
      | none, none => .none }

/-! ### Resident tensors (R90 to R92) -/

/-- The constraints of a resident descriptor (R90), for a partition of u units. -/
def residentOk (d u : Nat) : Bool :=
  fld d 255 208 == 0 && fld d 175 160 == 0 && fld d 127 96 % 4096 == 0 && decide (4096 ≤ fld d 127 96) &&
    decide (fld d 127 96 ≤ 176 * 2 ^ 20) && fld d 75 64 == 0 && fld d 63 24 == 0 && fmtAssigned (fld d 23 20) &&
    fld d 18 9 == 0 && fld d 8 0 == u

/-- The virtual address of shard k of a resident tensor (R91). -/
def State.shardVa (s : State) (p d k : Nat) : Nat :=
  let u := ((s.units p)[k]?).getD 0
  (fld d 207 160 + (u / 4) * 0x40000000 + fld d 95 64 + (u % 4) * fld d 127 96) % 2 ^ 48

/-- A read that a stream makes as it starts is refused: an uncorrectable word posts its KIND 2 fault record (R74). -/
def State.refuseRead (s : State) (n k : Nat) (y : Stream) (va : Nat) (st : Status) : State × Option Status :=
  (if st = .eccUncorrectable then s.postBadWord n y.ctx va (some (s.faultPlace n k y)) else s, some st)

/-- A resident fill stream reads its descriptor and loads AR0 (R92). A translation fault suspends it before its first
slot. The status is none when the stream may run or is suspended. -/
def State.readResident (s : State) (n k : Nat) : State × Option Status :=
  match s.stream n k with
  | none => (s, none)
  | some y =>
    if !y.resident then (s, none)
    else
      let x := s.ctx n y.ctx
      let va := (x.param (fld y.desc 107 102) % 65536) <<< 32 + x.param (fld y.desc 101 96)
      let phase := x.param (fld y.desc 113 108) % 512
      let nu := (s.units x.part).length
      if va % 32 ≠ 0 then (s, some .recipeInvalid)
      else match s.translateNow n y.ctx x.part x.client va false with
        | (s, .fault c l) => (s.suspend n k va c l, none)
        | (s, .stop st) => s.refuseRead n k y va st
        | (s, .miss) => (s, none)
        | (s, .ok g lo) =>
          if (lo && !y.loPlane) || devOf g != s.ownId then (s, some .accessDenied)
          else match s.streamCheck n x.part y (locOf g) 32 false false with
            | some st => (s, some st)
            | none =>
              match s.readMem (locOf g) 32 (tag := x.lastTag) with
              | (s, .ok, bs) =>
                let d := leNat bs
                if !residentOk d nu || nu ≤ phase then (s, some .recipeInvalid)
                else
                  let u := s.partIndex x.part n / 64
                  let r := y.regs.setAr 0 (BitVec.ofNat 48 (s.shardVa x.part d ((u + phase) % nu)))
                  (s.setStream n k { y with resident := false, regs := r, ckpt := r, ckpts := [(0, r)] }, none)
              | (s, st, _) => s.refuseRead n k y va st

/-- Read the resident descriptors of a command's streams; the first refusal is answered. -/
def State.readResidents (s : State) (n : Nat) : List Nat → State × Option Status
  | [] => (s, none)
  | k :: t =>
    match s.readResident n k with
    | (s, some st) => (s, some st)
    | (s, none) => s.readResidents n t

/-- Steps 2 and 3 of R134: open the rings and start the streams of the command of a context; the command fails when
any check fails, and nothing runs. -/
def State.openUp (s : State) (n h : Nat) : State :=
  let x := s.ctx n h
  match x.cmd with
  | none => s
  | some k =>
    let w := k.word
    let rds := s.descs n x (ringEntries w)
    let sds := s.descs n x (streamEntries w)
    match s.startRefusal n h rds sds with
    | some st => s.failCommand n h st
    | none =>
      let nos := sds.map fun d => fld d 13 10
      let suppress (d : Nat) : Bool := x.kind == .shadow && bit d 14 && fld d 20 16 == cRole w 3
      let s := s.modCore n fun c =>
        { c with
          rings := rds.foldl (fun m d => SMap.put (fld d 84 80) (withEnds w sds (fld d 84 80) (ringOfDesc d h)) m) c.rings,
          streams := sds.foldl (fun m d => SMap.put (fld d 13 10) (streamOfDesc d h (cOp w) (suppress d)) m) c.streams }
      let s := s.modCmd n h fun k => { k with rings := rds.map fun d => fld d 84 80, streams := nos }
      match s.readResidents n nos with
      | (s, some st) =>
        -- R96 step 6: the leases are released and no stream has run
        (s.modCore n fun c => { c with streams := c.streams.filter fun e => !nos.contains e.1,
                                       rings := c.rings.filter fun e => !rds.any fun d => fld d 84 80 == e.1 }).failCommand
          n h st
      | (s, none) => s

/-! ### Start and iterations -/

/-- A command waits at the step gate before its rings open (R176). -/
def gated (w : Nat) : Bool := cOp w == 0x30 && cFlag w 32

/-- Start the next command of a context (R134 step 1, R131, R133). A gated OPT_UPDATE that waits at its gate leaves the core to
the other contexts, and its context may be pre-empted (DESIGN CHOICE, log entry 60: R176 and R202 do not say). -/
def State.beginCmd (s : State) (n h : Nat) : State :=
  let x := s.ctx n h
  let w := s.entry n x x.next
  let counts := loopCounts x w
  let zero := counts.any (· == 0)
  let k : CmdRun := { index := x.next, word := w, counts := counts, iter := counts.map fun _ => 0,
                      phase := if zero then .last else if gated w && x.kind != .shadow then .gate else .run }
  let s := s.setCtx n h { x with cmd := some k, lastTag := cTag w, lastIdx := x.next, noMatch := false,
                                 haltReq := x.stepOne, stepOne := false }
  let s := s.modCore n fun c => { c with issued := h, exec_ := if k.phase == .gate then none else some h }
  if zero then s
  else
    let seg := s.reg 0x9300 0
    let ops := opValues x w k.iter
    if (!cRest w || commitClass (cOp w)) && wholeOver x w counts seg then s.failCommand n h .recipeInvalid
    else if iterBad w (s.entry n x (x.next + 1)) counts ops then s.failCommand n h .recipeInvalid
    else if k.phase == .gate then s
    else s.openUp n h

/-- The effective operand values of the current iteration (R132). -/
def State.opsNow (s : State) (n h : Nat) (k : CmdRun) : List Nat := opValues (s.ctx n h) k.word k.iter

/-- Open the current iteration (R133): its value-dependent constraints and, for a restartable command, the segment
bound; then the checks that an opcode adds, given as statuses. -/
def State.openIter (s : State) (n h : Nat) (k : CmdRun) (more : State → CmdRun → List Nat → List Status) : State :=
  let x := s.ctx n h
  let ops := s.opsNow n h k
  let sts := conds [(iterBad k.word (s.entry n x (k.index + 1)) k.counts ops ||
      (cRest k.word && decide (costBound k.word (s.reg 0x9300 0) < iterCost k.word ops)), .recipeInvalid)] ++ more s k ops
  match sts with
  | [] => s.modCmd n h fun k => { k with open_ := true, inBuf := [], inSlots := [], outDone := [], outFill := [],
                                         outCount := 0, stage := [], pos := 0, aux := [] }
  | _ =>
    let others := sts.eraseDups.filter fun st => st != lowest sts
    (others.foldl (fun (s : State) st => s.report st n h x.lastTag) s).failCommand n h (lowest sts)

/-- A command with a pre-emption request does not open its next iteration when it is restartable (R142). -/
def Ctx.stopsHere (x : Ctx) (k : CmdRun) : Bool := x.preempt && cRest k.word && !k.open_

/-- The last iteration has finished: the fill streams of rewound roles that wait at END end now (R157). -/
def State.finishCmd (s : State) (n h : Nat) : State :=
  let s := s.modCmd n h fun k => { k with phase := .last, open_ := false }
  let waiting := ((s.core n).streams.filter fun e => e.2.ctx == h && e.2.phase == .atEnd).map (·.1)
  waiting.foldl (fun s k => s.endStream n k) s

/-- The current iteration ends; the next one follows, or the last one has finished (R131). Slot checkpoints of earlier
sequences are dropped. -/
def State.endIter (s : State) (n h : Nat) (k : CmdRun) : State :=
  let s := s.modCore n fun c => { c with streams := c.streams.map fun e =>
    if e.2.ctx == h then
      let first := match SMap.find? e.2.ring c.rings with | some r => r.ord | none => 0
      (e.1, { e.2 with ckpts := e.2.ckpts.filter fun p => decide (first ≤ p.1) })
    else e }
  let more := if cOp k.word ≤ 3 then 0 else iterCostAt k.word (s.opsNow n h k) (s.width n) 0
  let s := s.modCmd n h fun k => { k with cycles := k.cycles + more }
  match nextIter k.counts k.iter with
  | some it => s.modCmd n h fun k => { k with iter := it, open_ := false }
  | none => s.finishCmd n h

/-! ### Ring roles (R156, R157) -/

/-- The ring of role r of the command that context h executes. -/
def State.roleRing (s : State) (n w r : Nat) : Option Ring := if cHasRole w r then s.ring n (cRole w r) else none

/-- Slots that a sequence of `len` bytes takes in a ring (R156). -/
def Ring.slotsFor (r : Ring) (len : Nat) : Nat := ceilDiv len r.slotBytes

/-- An uncorrectable word in a slot that a command reads: the KIND 2 fault record and the end of the run (R74). -/
def State.cmdEcc (s : State) (n h : Nat) (st : Status) : State := (s.postBadWord n h 0 none).failCommand n h st

/-- Read the slot that a role's ring presents next, whole, and release it or keep it (R102, R156). The Bool is false when
the run has ended. -/
def State.takeSlot (s : State) (n h rn : Nat) (keep : Bool) : State × Option Bytes :=
  match s.ring n rn with
  | none => (s, none)
  | some r =>
    match s.readSlot n r r.cur 0 r.slotBytes with
    | (s, .ok, bs) =>
      if keep then
        match s.ring n rn with
        | some r => (s.setRing n rn { r with kept := r.kept + 1, hd := .unseen, busy := false }, some bs)
        | none => (s, none)
      else (s.releaseSlot n rn, some bs)
    | (s, st, _) => (s.cmdEcc n h st, none)

/-- Read available slots of role r until `need` bytes of its sequence are in; fuel bounds the slots. -/
def State.pull (s : State) (n h r need : Nat) (keep : Bool) : Nat → State
  | 0 => s
  | fuel + 1 =>
    match (s.ctx n h).cmd with
    | none => s
    | some k =>
      let have_ := SMap.get [] k.inBuf r
      if need ≤ have_.length then s
      else match s.roleRing n k.word r with
        | none => s
        | some q =>
          if !s.headVisible q then s
          else match s.takeSlot n h (cRole k.word r) keep with
            | (s, none) => s
            | (s, some bs) =>
              (s.modCmd n h fun k => { k with inBuf := SMap.put r (have_ ++ bs) k.inBuf,
                                              inSlots := SMap.put r (SMap.get 0 k.inSlots r + 1) k.inSlots }).pull n h r need keep fuel

/-- The bytes of role r read in this iteration, cut to `need`. -/
def CmdRun.got (k : CmdRun) (r need : Nat) : Bytes := (SMap.get [] k.inBuf r).take need

/-- The sequence of role r has been read whole. -/
def CmdRun.full (k : CmdRun) (r need : Nat) : Bool := decide (need ≤ (SMap.get [] k.inBuf r).length)

/-- Release the slots that a held role keeps (R156). -/
def State.dropKept (s : State) (n rn : Nat) : Nat → State
  | 0 => s
  | fuel + 1 =>
    match s.ring n rn with
    | some r => if r.kept = 0 then s else (s.releaseSlot n rn).dropKept n rn fuel
    | none => s

/-- Write the whole bytes of a slot at the producer position of role r's ring and commit it (R34, R101). -/
def State.putSlot (s : State) (n rn : Nat) (bs : Bytes) : State :=
  match s.ring n rn with
  | some r => (s.writeSlot n r r.prodPos 0 (sliceZ bs 0 r.slotBytes)).commitSlot n rn none
  | none => s

/-- The executing command can progress only once a suspended stream of it is resolved: FAULT_HELD (R138, R139). -/
def State.holdFor (s : State) (n h : Nat) (e : REnd) : State :=
  match e with
  | .stream k =>
    match s.stream n k with
    | some y => if y.phase == .suspended && (s.ctx n h).state == .running then
        s.modCtx n h fun x => { x with state := .faultHeld } else s
    | none => s
  | _ => s

/-- A stall of the executing command for want of a slot (R40, R112, R120). -/
def State.emptyStall (s : State) (n h rn : Nat) : State :=
  let s := s.stall n 0x8200
  match s.ring n rn with
  | some r => if r.kept < r.held then s.stall n 0x8300 else s.holdFor n h r.prod
  | none => s

/-- The executing command is held for want of a free output slot (R41, R120). -/
def State.drainStall (s : State) (n h rn : Nat) : State :=
  let s := s.stall n 0x83C0
  match s.ring n rn with
  | some r => s.holdFor n h r.cons
  | none => s

/-- Commit the slots of output role r that the bytes formed so far fill, while the ring takes them; at the end of the
sequence the last slot is completed with zeros (R156). -/
def State.push (s : State) (n h r : Nat) (out : Bytes) (whole : Bool) : Nat → State
  | 0 => s
  | fuel + 1 =>
    match (s.ctx n h).cmd with
    | none => s
    | some k =>
      match s.roleRing n k.word r with
      | none => s
      | some q =>
        let done := SMap.get 0 k.outDone r
        let rest := out.length - done
        if rest = 0 || (rest < q.slotBytes && !whole) then s
        else if !q.free then s
        else
          let s := s.putSlot n (cRole k.word r) (slice out done q.slotBytes)
          (s.modCmd n h fun k => { k with outDone := SMap.put r (done + min rest q.slotBytes) k.outDone,
                                          seals := if r = 3 then
                                              k.seals ++ [(crc32c (sliceZ out done q.slotBytes)).toNat]
                                            else k.seals }).push n h r out whole fuel

/-- Bytes of output role r that are formed wait for a free slot (R41). -/
def State.outHeld (s : State) (n h r : Nat) (out : Bytes) (whole : Bool) : Bool :=
  match (s.ctx n h).cmd with
  | none => false
  | some k =>
    match s.roleRing n k.word r with
    | none => false
    | some q =>
      let rest := out.length - SMap.get 0 k.outDone r
      rest != 0 && (decide (q.slotBytes ≤ rest) || whole) && !q.free

/-- Every byte of output role r has been committed. -/
def CmdRun.pushed (k : CmdRun) (r len : Nat) : Bool := decide (len ≤ SMap.get 0 k.outDone r)

/-- Discard what a rewound role's ring holds, and take its fill stream back to the checkpoint of slot `base` (R157). -/
def State.rewind (s : State) (n h rn base : Nat) : State :=
  match s.ring n rn with
  | none => s
  | some r =>
    let s := s.setRing n rn { r with tail := r.head, prodPos := r.consPos, seals := [], stamps := [], recs := [], hd := .unseen,
                                     busy := false, kept := 0, ord := base, fetched := [],
                                     twice := [] }
    match (s.core n).fillOf rn h with
    | some (k, y) =>
      match SMap.find? base y.ckpts with
      | some g => s.setStream n k { ({ y with ckpt := g } : Stream).dropped with phase := .running, fault := none }
      | none => s
    | none => s

/-! ### Vector commands -/

/-- What a vector command reads and writes in one iteration: its input roles with the bytes of each sequence and
whether it is held; its output roles with the length of each; the bytes formed from the inputs so far; and the pairs
that the iteration leaves in the command's notes. -/
structure Kernel where
  ins  : List (Nat × Nat × Bool)
  outs : List (Nat × Nat)
  run  : (Nat → Bytes) → Nat → Bytes      -- inputs by role, then the output role
  rowLen : Nat → Nat := fun _ => 0        -- bytes of a row of an input role whose slots stay until their rows complete (R165)
  rows : Nat := 0                         -- the number of those rows
  note : (Nat → Bytes) → List (Nat × Nat) := fun _ => []

/-- The inputs of an iteration, by role, as far as they have been read. -/
def Kernel.input (q : Kernel) (k : CmdRun) (i : Nat) : Bytes :=
  k.got i (((q.ins.find? fun e => e.1 == i).map fun e => e.2.1).getD 0)

/-- The bytes of output role r that the inputs read so far decide. -/
def Kernel.bytes (q : Kernel) (k : CmdRun) (r : Nat) : Bytes :=
  (q.run (q.input k) r).take (((q.outs.find? fun e => e.1 == r).map fun e => e.2).getD 0)

/-- The held sequences of an iteration fit their rings (R156). -/
def State.heldOk (s : State) (n w : Nat) (q : Kernel) : Bool :=
  q.ins.all fun e => !e.2.2 || match s.roleRing n w e.1 with
    | some r => decide (r.slotsFor e.2.1 ≤ r.slots)
    | none => true

/-- The rows that have been read whole from every role that carries rows (R165). -/
def Kernel.rowsRead (q : Kernel) (k : CmdRun) : Nat :=
  (q.ins.filter fun e => q.rowLen e.1 != 0).foldl
    (fun m e => min m ((SMap.get [] k.inBuf e.1).length / q.rowLen e.1)) q.rows

/-- Release a number of slots at the consumer end of a ring. -/
def State.releaseSlots (s : State) (n rn : Nat) : Nat → State
  | 0 => s
  | m + 1 => (s.releaseSlot n rn).releaseSlots n rn m

/-- Release the slots of row roles that hold no byte of a row still to be completed (R165). -/
def State.dropRows (s : State) (n h : Nat) (q : Kernel) : State :=
  (q.ins.filter fun e => q.rowLen e.1 != 0).foldl (fun (s : State) e =>
    match (s.ctx n h).cmd with
    | none => s
    | some k =>
      match s.roleRing n k.word e.1 with
      | none => s
      | some r =>
        let read := SMap.get 0 k.inSlots e.1
        let done := q.rowsRead k
        let gone := if done = q.rows ∧ k.full e.1 e.2.1 then read else min read (done * q.rowLen e.1 / r.slotBytes)
        s.releaseSlots n (cRole k.word e.1) (gone - (read - r.kept))) s

/-- The iteration of a vector command has read all its inputs. -/
def Kernel.read (q : Kernel) (k : CmdRun) : Bool := q.ins.all fun e => k.full e.1 e.2.1

/-- The ring of role r presents its next slot. -/
def State.shows (s : State) (n w r : Nat) : Bool :=
  match s.roleRing n w r with
  | some q => s.headVisible q
  | none => false

/-- Write what is formed, and end the iteration when all is read and written; a cycle without progress counts ARRAY_DRAIN
while output waits for a slot, else RING_EMPTY (R120). -/
def State.vecOut (s : State) (n h : Nat) (q : Kernel) : State :=
  match (s.ctx n h).cmd with
  | none => s
  | some k =>
    let all := q.read k
    let formed (e : Nat × Nat) : Bytes := if all then sliceZ (q.bytes k e.1) 0 e.2 else q.bytes k e.1
    let s := q.outs.foldl (fun (s : State) e => s.push n h e.1 (formed e) all (e.2 + 1)) s
    match (s.ctx n h).cmd with
    | none => s
    | some k =>
      if all && q.outs.all fun e => k.pushed e.1 e.2 then
        let s := q.ins.foldl (fun (s : State) e => if e.2.2 then s.dropKept n (cRole k.word e.1) 16 else s) s
        let pairs := q.note (q.input k)
        (s.modCmd n h fun k => { k with note := k.note ++ pairs, failed := k.failed + pairs.length }).endIter n h k
      else match q.outs.find? fun e => s.outHeld n h e.1 (formed e) all with
        | some e => s.drainStall n h (cRole k.word e.1)
        | none =>
          match q.ins.find? fun e => !k.full e.1 e.2.1 && !s.shows n k.word e.1 with
          | some e => s.emptyStall n h (cRole k.word e.1)
          | none => s

/-- Input roles are read together (DESIGN CHOICE): role e takes its next slot unless another role that is not further in
its sequence still waits for its own. -/
def State.mayTake (s : State) (n : Nat) (k : CmdRun) (ins : List (Nat × Nat × Bool)) (e : Nat × Nat × Bool) : Bool :=
  let at_ (r : Nat) : Nat := (SMap.get [] k.inBuf r).length
  !k.full e.1 e.2.1 && s.shows n k.word e.1 && ins.all fun f =>
    f.1 == e.1 || k.full f.1 f.2.1 || decide (at_ e.1 * f.2.1 < at_ f.1 * e.2.1) || s.shows n k.word f.1

/-- Read the input roles of an iteration as far as they go, a slot at a time. -/
def State.pullAll (s : State) (n h : Nat) (q : Kernel) : Nat → State
  | 0 => s
  | fuel + 1 =>
    match s.running n h with
    | none => s
    | some k =>
      match q.ins.find? (s.mayTake n k q.ins) with
      | none => s
      | some e =>
        ((s.pull n h e.1 ((SMap.get [] k.inBuf e.1).length + 1) (e.2.2 || q.rowLen e.1 != 0) 1).dropRows n h q).pullAll
          n h q fuel

/-- One step of a vector command's iteration: read what is there, then write. -/
def State.vecStep (s : State) (n h : Nat) (kern : State → CmdRun → List Nat → Kernel) (k : CmdRun) : State :=
  let q := kern s k (s.opsNow n h k)
  let s := s.pullAll n h q ((q.ins.map fun e => e.2.1 + 1).sum)
  match s.running n h with
  | none => s
  | some k => s.vecOut n h (kern s k (s.opsNow n h k))

/-- One invocation of a macro-operation with ring roles: start it, open its iteration with the checks that the opcode
adds, or take the iteration further by `step`. -/
def State.invoke (s : State) (n h op : Nat) (more : State → CmdRun → List Nat → List Status)
    (step : State → CmdRun → State) : State :=
  let x := s.ctx n h
  let w := s.entry n x x.next
  let s := if x.cmd.isNone && cOp w == op && s.mayStart n h then s.beginCmd n h else s
  match s.running n h with
  | none => s
  | some k =>
    if cOp k.word != op || (s.ctx n h).stopsHere k then s
    else
      let s := if k.open_ then s else s.openIter n h k more
      match s.running n h with
      | none => s
      | some k => if k.open_ then step s k else s

/-- One invocation of a vector macro-operation. `kern` gives the kernel of an iteration from the command and the
effective operand values; `more` the checks that the opcode adds to that of its held sequences. -/
def State.vector (s : State) (n h op : Nat) (kern : State → CmdRun → List Nat → Kernel)
    (more : State → CmdRun → List Nat → List Status := fun _ _ _ => []) : State :=
  s.invoke n h op
    (fun s k ops => conds [(!s.heldOk n k.word (kern s k ops), .ringMisconfig)] ++ more s k ops)
    (fun s k => s.vecStep n h kern k)

end Sys2Proof.Machine
end

