-- ==== Sys2Proof/Machine/Array.lean ====
section
/-! DEFINITION. The array and the matrix products MATMUL, MATMUL_T and GRAD_W (R23 to R30, R34, R40, R41, R158 to R163,
R477): operand sequences, passes, k-steps, the drain and its conversion. -/

namespace Sys2Proof.Machine

/-- Round up to a multiple of 32 bytes (R160). -/
def pad32 (n : Nat) : Nat := ceilDiv n 32 * 32

/-- Bytes of a group of MX elements: `rows` rows of `len`, then their scale bytes, each part padded (R160). -/
def mxGroup (code rows len : Nat) : Nat := pad32 (fmtBytes code (rows * len)) + pad32 (rows * len / 32)

/-- kc of an MX operand with `rows` rows: the largest multiple of 32 that divides K and fits the slot; 0 when none
does (R160). -/
def mxKc (code rows kk slot : Nat) : Nat :=
  (List.range (kk / 32)).foldl (fun best i =>
    let c := 32 * (i + 1)
    if kk % c = 0 ∧ mxGroup code rows c ≤ slot then c else best) 0

/-- kc of operand A (R160). -/
def kcA (code kk slot : Nat) : Nat := if fmtIsMx code then mxKc code 32 kk slot else slot / (32 * (fmtBits code / 8))

/-- kc of operand B: K itself when it is not cut into slots by K (R160). -/
def kcB (code nn kk slot : Nat) : Nat := if fmtIsMx code then mxKc code nn kk slot else kk

/-- The field of `bits` bits number i of packed bytes. -/
def elemField (bs : Bytes) (bits i : Nat) : Nat :=
  (leNat (sliceZ bs (i * bits / 8) 2) >>> (i * bits % 8)) % 2 ^ bits

/-- The scale byte of an element: 127 stands for 2^0 (R53). -/
def noScale : Nat := 127

/-- The field of element (r, k) of operand A in the bytes of its pass sequence: 32 rows by K (R37, R160). -/
def rawA (code : Nat) (tr : Bool) (kc slot : Nat) (bs : Bytes) (r k : Nat) : Nat :=
  elemField (slice bs (k / kc * slot) slot) (fmtBits code) (if tr then k % kc * 32 + r else r * kc + k % kc)

/-- The field of element (k, n) of operand B in the bytes of its sequence (R37, R160). -/
def rawB (code : Nat) (tr : Bool) (nn kk kc slot : Nat) (bs : Bytes) (k n : Nat) : Nat :=
  if fmtIsMx code then
    elemField (slice bs (k / kc * slot) slot) (fmtBits code) (if tr then n * kc + k % kc else k % kc * nn + n)
  else elemField bs (fmtBits code) (if tr then n * kk + k else k * nn + n)

/-- Element (r, k) of operand A with its block scale (R53, R160). -/
def elemA (code : Nat) (tr : Bool) (kc slot : Nat) (bs : Bytes) (r k : Nat) : FVal :=
  let sl := slice bs (k / kc * slot) slot
  let kk := k % kc
  let scale := if fmtIsMx code then
      leNat (sliceZ sl (pad32 (fmtBytes code (32 * kc)) + r * (kc / 32) + kk / 32) 1)
    else noScale
  decodeElem code (rawA code tr kc slot bs r k) scale

/-- Element (k, n) of operand B with its block scale (R53, R160). -/
def elemB (code : Nat) (tr : Bool) (nn kk kc slot : Nat) (bs : Bytes) (k n : Nat) : FVal :=
  let scale := if fmtIsMx code then
      leNat (sliceZ (slice bs (k / kc * slot) slot) (pad32 (fmtBytes code (nn * kc)) + n * (kc / 32) + k % kc / 32) 1)
    else noScale
  decodeElem code (rawB code tr nn kk kc slot bs k n) scale

/-- The shape of a matrix product in one iteration: dimensions, formats, layouts and slot sizes. -/
structure Prod where
  op    : Nat
  mm    : Nat
  nn    : Nat
  kk    : Nat
  wid   : Nat
  fa    : Nat
  fb    : Nat
  fo    : Nat
  ta    : Bool
  tb    : Bool
  holdB : Bool
  extra : Bool      -- bit [35]: PRELOAD or MASK (R159)
  slotA : Nat
  slotB : Nat
  slotO : Nat
  turnA : Bool := false   -- A takes the turn-register fallback: transposed, and the west buffer is retired (R38)
  turnB : Bool := false   -- B does, by the north buffer
  deriving DecidableEq, Repr

/-- The shape of the product that a command computes. -/
def State.prod (s : State) (n : Nat) (k : CmdRun) (ops : List Nat) : Prod :=
  let w := k.word
  let d := dimWord w ops
  let size (r : Nat) : Nat := match s.roleRing n w r with | some q => q.slotBytes | none => 256
  { op := cOp w, mm := dimM d, nn := dimN d, kk := dimK d, wid := s.width n, fa := cFmtA w, fb := cFmtB w,
    fo := cFmtOut w, ta := cFlag w 32, tb := cFlag w 33, holdB := cFlag w 34, extra := cFlag w 35, slotA := size 0,
    slotB := size 1, slotO := size 3, turnA := cFlag w 32 && bit (s.reg (0x9880 + n / 256) (n % 256)) 1,
    turnB := cFlag w 33 && bit (s.reg (0x9880 + n / 256) (n % 256)) 2 }

/-- Packing factor. -/
def Prod.p (q : Prod) : Nat := fmtPack q.fa
/-- k-steps of a pass. -/
def Prod.steps (q : Prod) : Nat := q.kk / q.p
/-- The transposed operands on the turn-register fallback (R39). -/
def Prod.turned (q : Prod) : Nat := b2n q.turnA + b2n q.turnB
/-- Stall-free cycles of one pass (R29, R39). -/
def Prod.passCycles (q : Prod) : Nat := passCost q.kk q.p q.turned
/-- M-tiles. -/
def Prod.mTiles (q : Prod) : Nat := ceilDiv q.mm 32
/-- N-tiles at the presented width (R29). -/
def Prod.nTiles (q : Prod) : Nat := ceilDiv q.nn q.wid
/-- kc of A. -/
def Prod.kcA (q : Prod) : Nat := Machine.kcA q.fa q.kk q.slotA
/-- kc of B. -/
def Prod.kcB (q : Prod) : Nat := Machine.kcB q.fb q.nn q.kk q.slotB
/-- Bytes of an A pass sequence in whole slots. -/
def Prod.lenA (q : Prod) : Nat := q.kk / q.kcA * q.slotA
/-- Bytes of the B sequence (R160). -/
def Prod.lenB (q : Prod) : Nat := if fmtIsMx q.fb then q.kk / q.kcB * q.slotB else fmtBytes q.fb (q.kk * q.nn)
/-- Slots of the B sequence. -/
def Prod.slotsB (q : Prod) : Nat := ceilDiv q.lenB q.slotB

/-- The product carries a mask (R162). -/
def Prod.masked (q : Prod) : Bool := q.op == 3 && q.extra
/-- The product carries a preload (R160). -/
def Prod.preloads (q : Prod) : Bool := q.op != 3 && q.extra

/-- Bytes of the first r stored rows of the result (R160). -/
def Prod.rowsBytes (q : Prod) (r : Nat) : Nat :=
  let len := if q.op = 2 then q.mm else q.nn
  if fmtIsMx q.fo then (r / 32) * mxGroup q.fo 32 len + mxGroup q.fo (r % 32) len else fmtBytes q.fo (r * len)

/-- Stored rows of the result. -/
def Prod.storedRows (q : Prod) : Nat := if q.op = 2 then q.nn else q.mm

/-- The slots that must stay uncommitted at one time fit the output ring (R477). -/
def Prod.outFits (q : Prod) (slots : Nat) : Bool :=
  let touch (a b : Nat) : Bool := decide (b ≤ a) || decide ((b - 1) / q.slotO - a / q.slotO + 1 ≤ slots)
  if q.op = 2 then touch 0 (q.rowsBytes q.nn)
  else (List.range q.mTiles).all fun t => touch (q.rowsBytes (32 * t)) (q.rowsBytes (min q.mm (32 * t + 32)))

/-- Bits of the mask sequence that a GRAD_W reads: up to the highest bit that one of its elements selects. R162 gives the
held sequence no length (DESIGN CHOICE, log entry 61). -/
def Prod.maskBits (q : Prod) (ops : List Nat) : Nat :=
  if opnd ops 2 = 0 then opnd ops 1 + q.mm
  else opnd ops 1 + ((q.mm - 1) / 32) * opnd ops 2 + (q.nn - 1) / 32 + 1

/-- Bytes of the IN2 sequence: the mask of the iteration, or the preload of one M-tile. -/
def Prod.lenIn2 (q : Prod) (ops : List Nat) : Nat := if q.masked then ceilDiv (q.maskBits ops) 8 else 128 * q.nn

/-- The checks that a product adds at the start of an iteration: kc, held sequences, and R477 (R156, R160). -/
def State.prodRefusals (s : State) (n : Nat) (k : CmdRun) (ops : List Nat) : List Status :=
  let q := s.prod n k ops
  let slots (r : Nat) : Nat := match s.roleRing n k.word r with | some g => g.slots | none => 8
  let fits (r len size : Nat) : Bool := decide (ceilDiv len size ≤ slots r)
  let size2 := match s.roleRing n k.word 2 with | some g => g.slotBytes | none => 256
  let ok :=
    if q.kk = 0 then true
    else decide (0 < q.kcA) && decide (q.kk % q.kcA = 0) && decide (0 < q.kcB) &&
      (!q.holdB || fits 1 q.lenB q.slotB) && (!(q.masked || q.preloads) || fits 2 (q.lenIn2 ops) size2) &&
      q.outFits (slots 3)
  conds [(!ok, .ringMisconfig)]

/-- Element (m, n) is trained (R162). -/
def Prod.trained (q : Prod) (ops : List Nat) (mask : Bytes) (m n : Nat) : Bool :=
  !q.masked ||
    (let j := if opnd ops 2 = 0 then opnd ops 1 + m else opnd ops 1 + m / 32 * opnd ops 2 + n / 32
     bit (leNat (sliceZ mask (j / 8) 1)) (j % 8))

/-- Some element of a pass is trained (R162). -/
def Prod.live (q : Prod) (ops : List Nat) (mask : Bytes) (mt nt : Nat) : Bool :=
  (List.range 32).any fun i => (List.range q.wid).any fun j =>
    decide (32 * mt + i < q.mm) && decide (q.wid * nt + j < q.nn) &&
      q.trained ops mask (32 * mt + i) (q.wid * nt + j)

/-- The accumulators at the start of a pass: +0.0, or the preloaded tile (R28, R160). -/
def Prod.initAcc (q : Prod) (pre : Bytes) (mt nt : Nat) : List W32 :=
  (List.range 32).flatMap fun i => (List.range q.wid).map fun j =>
    let n := q.wid * nt + j
    if q.preloads ∧ 32 * mt + i < q.mm ∧ n < q.nn then BitVec.ofNat 32 (leNat (sliceZ pre (4 * (i * q.nn + n)) 4)) else 0#32

/-- One k-step of every cell (R24, R26). -/
def Prod.stepAcc (q : Prod) (a b : Bytes) (nt st : Nat) (acc : List W32) : List W32 :=
  let ks := (List.range q.p).map (q.p * st + ·)
  let col (j : Nat) : List FVal := ks.map fun k =>
    let n := q.wid * nt + j
    if n < q.nn then elemB q.fb q.tb q.nn q.kk q.kcB q.slotB b k n else .fin false 0 0
  let cols := (List.range q.wid).map col
  let rows := (List.range 32).map fun i => ks.map fun k => elemA q.fa q.ta q.kcA q.slotA a i k
  let pairs := rows.flatMap fun r => cols.map fun c => r.zip c
  (acc.zip pairs).map fun e => cellUpdate e.1 e.2

/-- Bytes of A that k-step st needs. -/
def Prod.needA (q : Prod) (st : Nat) : Nat := ((q.p * st + q.p - 1) / q.kcA + 1) * q.slotA

/-- Bytes of B that k-step st of N-tile nt needs. -/
def Prod.needB (q : Prod) (nt st : Nat) : Nat :=
  let k := q.p * st + q.p - 1
  if fmtIsMx q.fb then (k / q.kcB + 1) * q.slotB
  else if q.tb then fmtBytes q.fb ((min q.nn (q.wid * (nt + 1)) - 1) * q.kk + k + 1)
  else fmtBytes q.fb ((k + 1) * q.nn)

/-! ### The turn registers (R38) -/

/-- The words that one k-step of one row or column puts in its turn register: p packed values. -/
def packStep (bits : Nat) (vs : List Nat) : W32 :=
  BitVec.ofNat 32 (vs.zipIdx.foldl (fun a (e : Nat × Nat) => a + e.1 <<< (bits * e.2)) 0)

/-- The tile of 32 k-steps of an operand that is turned before step st: one word for each k-step and row or column. -/
def Prod.turnTile (q : Prod) (lanes st : Nat) (bits : Nat) (raw : Nat → Nat → Nat) : List W32 :=
  (List.range (min 32 (q.steps - st))).flatMap fun i => (List.range lanes).map fun x =>
    packStep bits ((List.range q.p).map fun e => raw x (q.p * (st + i) + e))

/-- Before the first k-step of a tile of 32, an operand on the fallback is turned through the turn registers (R38). -/
def State.turnTiles (s : State) (n : Nat) (q : Prod) (a b : Bytes) (nt st : Nat) : State :=
  if st % 32 ≠ 0 then s
  else
    let s := if q.turnA then
        let tile := q.turnTile 32 st (fmtBits q.fa) fun r k => rawA q.fa q.ta q.kcA q.slotA a r k
        s.modCore n fun c => { c with turn := tile }
      else s
    if q.turnB then
      let tile := q.turnTile (min q.wid (q.nn - q.wid * nt)) st (fmtBits q.fb) fun j k =>
        rawB q.fb q.tb q.nn q.kk q.kcB q.slotB b k (q.wid * nt + j)
      s.modCore n fun c => { c with turn := tile }
    else s

/-! ### The drain (R34, R161, R477) -/

/-- The rounding mode of element (m, n) (R58, R161). -/
def Prod.mode (q : Prod) (w seed : Nat) (ops : List Nat) (m n : Nat) : Mode :=
  let e := if q.op = 2 then opnd ops 1 + n * opnd ops 2 + m else opnd ops 1 + m * opnd ops 2 + n
  modeOf (cMode w) seed (cImm w) (opnd ops 3) (e % 2 ^ 48)

/-- Length of a stored row in elements (R160). -/
def Prod.rowLen (q : Prod) : Nat := if q.op = 2 then q.mm else q.nn

/-- Place in the output sequence of the element in stored row r and place c, or of the 32-element block that holds it when
`FMT_OUT` is an MX format (R160). -/
def Prod.elemAt (q : Prod) (r c : Nat) : Nat :=
  if fmtIsMx q.fo then q.rowsBytes (r / 32 * 32) + fmtBytes q.fo (r % 32 * q.rowLen + c / 32 * 32)
  else fmtBytes q.fo (r * q.rowLen + c)

/-- Place of the scale byte of a block (R160). -/
def Prod.scaleAt (q : Prod) (r c : Nat) : Nat :=
  q.rowsBytes (r / 32 * 32) + pad32 (fmtBytes q.fo (min 32 (q.storedRows - r / 32 * 32) * q.rowLen)) +
    r % 32 * (q.rowLen / 32) + c / 32

/-- The parts of the output sequence that carry results: start and length. The rest is padding (R156, R160). -/
def Prod.dataParts (q : Prod) : List (Nat × Nat) :=
  if fmtIsMx q.fo then
    (List.range (ceilDiv q.storedRows 32)).flatMap fun g =>
      let rows := min 32 (q.storedRows - 32 * g)
      let at_ := q.rowsBytes (32 * g)
      let len := fmtBytes q.fo (rows * q.rowLen)
      [(at_, len), (at_ + pad32 len, rows * (q.rowLen / 32))]
  else [(0, q.rowsBytes q.storedRows)]

/-- The result bytes that slot i of the output holds: their place in the slot and their number, part by part. -/
def Prod.dataIn (q : Prod) (i : Nat) : List (Nat × Nat) :=
  (q.dataParts.map fun e =>
    (max e.1 (i * q.slotO) - i * q.slotO, min (e.1 + e.2) ((i + 1) * q.slotO) - max e.1 (i * q.slotO))).filter (·.2 != 0)

/-- The number of result bytes that slot i holds. -/
def Prod.dataBytes (q : Prod) (i : Nat) : Nat := ((q.dataIn i).map (·.2)).sum

/-- The places of slot i that carry no result. -/
def Prod.padIn (q : Prod) (i : Nat) : List Nat :=
  (List.range q.slotO).filter fun o => !((q.dataIn i).any fun e => decide (e.1 ≤ o) && decide (o < e.1 + e.2))

/-- Write bytes within one slot, the slot `rel` places after the producer position, 32 B word by word (R72, R73). -/
def State.putBytesIn (s : State) (n : Nat) (r : Ring) (rel off : Nat) (bs : Bytes) : State × Status :=
  (List.range ((off % 32 + bs.length + 31) / 32)).foldl (fun (q : State × Status) i =>
    if q.2 != .ok then q
    else
      let a := max off ((off / 32 + i) * 32)
      let b := min (off + bs.length) ((off / 32 + i + 1) * 32)
      let w := r.wordOff ((r.prodPos + rel) % r.slots * r.units * 8 + off / 32 + i)
      q.1.writeMem (spBase n + w + a % 32) (slice bs (a - off) (b - a))) (s, .ok)

/-- A result of `len` bytes at a place of the sequence lies in slots that are free to the producer end (R100, R477). -/
def Prod.roomFor (q : Prod) (k : CmdRun) (r : Ring) (a len : Nat) : Bool :=
  decide ((a + len - 1) / q.slotO < k.outCount + (r.slots - r.held))

/-- The drain writes a result into its place (R34): the bytes, slot by slot, and the count of those written there. -/
def State.putResult (s : State) (n h : Nat) (q : Prod) (a : Nat) (bs : Bytes) : State × Status :=
  (List.range ((a % q.slotO + bs.length + q.slotO - 1) / q.slotO)).foldl (fun (z : State × Status) i =>
    match z.2, (z.1.ctx n h).cmd with
    | .ok, some k =>
      match z.1.roleRing n k.word 3 with
      | none => z
      | some r =>
        let g := a / q.slotO + i
        let lo := max a (g * q.slotO)
        let part := slice bs (lo - a) (min (a + bs.length) ((g + 1) * q.slotO) - lo)
        let y := z.1.putBytesIn n r (g - k.outCount) (lo % q.slotO) part
        (y.1.modCmd n h fun k => { k with outFill := SMap.put g (SMap.get 0 k.outFill g + part.length) k.outFill }, y.2)
    | _, _ => z) (s, .ok)

/-- Commit the slots at the producer end in which every element has been written; their padding is zeros (R34, R101,
R156). -/
def State.commitDone (s : State) (n h : Nat) (q : Prod) : Nat → State
  | 0 => s
  | fuel + 1 =>
    match (s.ctx n h).cmd with
    | none => s
    | some k =>
      match s.roleRing n k.word 3 with
      | none => s
      | some r =>
        let i := k.outCount
        if q.dataBytes i = 0 ∨ SMap.get 0 k.outFill i < q.dataBytes i then s
        else
          let s := (q.padIn i).foldl (fun (s : State) o => (s.putBytesIn n r 0 o [0#8]).1) s
          ((s.commitSlot n (cRole k.word 3) none).modCmd n h fun k =>
            { k with outCount := i + 1, outFill := SMap.del i k.outFill }).commitDone n h q fuel

/-- What the drain does with the element at its position: the elements that leave together, the place and bytes of each
result they complete, and the staging buffer afterwards (R161). A row's elements of one 32 B word leave together. -/
def Prod.drainPiece (q : Prod) (w seed : Nat) (ops : List Nat) (mask : Bytes) (k : CmdRun) (a : ArrayRun) :
    Nat × List (Nat × Bytes) × SMap W32 :=
  let i := a.drained / q.wid
  let j := a.drained % q.wid
  let m := 32 * a.mTile + i
  let n := q.wid * a.nTile + j
  let value (x : Nat) : W32 :=
    if q.trained ops mask m (n + x) then (a.acc[a.drained + x]?).getD 0#32 else 0#32
  let r := if q.op = 2 then n else m
  let c := if q.op = 2 then m else n
  if q.mm ≤ m then (32 * q.wid - a.drained, [], k.stage)
  else if q.nn ≤ n then (q.wid - j, [], k.stage)
  else if fmtIsMx q.fo then
    let key (x : Nat) : Nat := r * 65536 + x
    if c % 32 ≠ 31 then (1, [], SMap.put (key c) (value 0) k.stage)
    else
      let first := c / 32 * 32
      let vs := (List.range 31).map (fun x => SMap.get 0#32 k.stage (key (first + x))) ++ [value 0]
      let md (x : Nat) : Mode := if q.op = 2 then q.mode w seed ops (first + x) n else q.mode w seed ops m (first + x)
      let e := encodeMxBlock q.fo md (vs.map f32)
      (1, [(q.elemAt r c, packElems q.fo e.1), (q.scaleAt r c, natLe 1 e.2)],
        SMap.delIf (fun x => decide (key first ≤ x) && decide (x ≤ key c)) k.stage)
  else
    let eb := fmtBytes q.fo 1
    let len := if q.op = 2 then 1 else min (min (q.wid - j) (q.nn - n)) ((32 - q.elemAt r c % 32) / eb)
    (len, [(q.elemAt r c, convElems q.fo (fun x => q.mode w seed ops m (n + x)) ((List.range len).map value))], k.stage)

/-- Drain the pass in the array, in row order, until it is empty or a result has to wait for its slot (R41, R477). The
status is that of a write that could not be merged (R74). -/
def State.drainPass (s : State) (n h : Nat) (q : Prod) (ops : List Nat) (mask : Bytes) :
    Nat → ArrayRun → State × ArrayRun × Status
  | 0, a => (s, a, .ok)
  | fuel + 1, a =>
    match (s.ctx n h).cmd with
    | none => (s, a, .ok)
    | some k =>
      match s.roleRing n k.word 3 with
      | none => (s, a, .ok)
      | some r =>
        if 32 * q.wid ≤ a.drained then (s, a, .ok)
        else
          let e := q.drainPiece k.word (s.ctx n h).seed ops mask k a
          if !(e.2.1.all fun x => q.roomFor k r x.1 x.2.length) then (s, a, .ok)
          else
            let z := e.2.1.foldl (fun (z : State × Status) x =>
              if z.2 != .ok then z else z.1.putResult n h q x.1 x.2) (s, .ok)
            if z.2 != .ok then (z.1, a, z.2)
            else
              let s := (z.1.modCmd n h fun k => { k with stage := e.2.2 }).commitDone n h q 64
              s.drainPass n h q ops mask fuel { a with drained := a.drained + e.1 }

/-! ### Passes -/

/-- Set the array of a core. -/
def State.setArray (s : State) (n : Nat) (a : Option ArrayRun) : State := s.modCore n fun c => { c with array := a }

/-- A pass has drained: the rewound roles go back or on, and the next pass, or the next iteration, follows (R156, R157,
R160, R163). -/
def State.passDone (s : State) (n h : Nat) (q : Prod) (a : ArrayRun) : State :=
  match (s.ctx n h).cmd with
  | none => s
  | some k =>
    let w := k.word
    let pass := a.mTile * q.nTiles + a.nTile
    let lastN := decide (q.nTiles ≤ a.nTile + 1)
    let lastAll := decide (q.mTiles * q.nTiles ≤ pass + 1)
    let base (r slots : Nat) : Nat := match s.roleRing n w r with | some g => g.ord - slots | none => 0
    let s := if lastN then s else s.rewind n h (cRole w 0) (base 0 (q.kk / q.kcA))
    let s := if q.holdB || lastAll then s else s.rewind n h (cRole w 1) (base 1 q.slotsB)
    let dropPre := q.preloads && lastN
    let s := if dropPre then s.dropKept n (cRole w 2) 16 else s
    let s := s.modCmd n h fun k =>
      let b0 := SMap.put 0 [] k.inBuf
      let b1 := if q.holdB then b0 else SMap.put 1 [] b0
      { k with pos := pass + 1, cycles := k.cycles + (if a.skip then 0 else q.passCycles),
               inBuf := if dropPre then SMap.put 2 [] b1 else b1 }
    let s := s.setArray n none
    if lastAll then
      let s := if q.holdB then s.dropKept n (cRole w 1) 16 else s
      let s := if q.masked then s.dropKept n (cRole w 2) 16 else s
      match (s.ctx n h).cmd with
      | some k => s.endIter n h k
      | none => s
    else s

/-- The k-steps of the pass in the array have entered: its operand sequences are read whole, its results drain into their
slots, and the array holds while one has no slot (R34, R41, R157, R477). -/
def State.passEnd (s : State) (n h : Nat) (q : Prod) (a : ArrayRun) : State :=
  let s := (s.pull n h 0 q.lenA false 64).pull n h 1 q.lenB q.holdB 4096
  match s.running n h with
  | none => s
  | some k =>
    if !k.full 0 q.lenA then s.emptyStall n h (cRole k.word 0)
    else if !k.full 1 q.lenB then s.emptyStall n h (cRole k.word 1)
    else
      let ops := s.opsNow n h k
      let mask := if q.masked then k.got 2 (q.lenIn2 ops) else []
      match s.drainPass n h q ops mask (33 * q.wid) a with
      | (s, a, .ok) =>
        if 32 * q.wid ≤ a.drained then s.passDone n h q a
        else (s.setArray n (some { a with hold := true })).drainStall n h (cRole k.word 3)
      | (s, _, st) => s.cmdEcc n h st

/-- Begin the next pass: mask or preload must be in (R28, R160, R162). -/
def State.passBegin (s : State) (n h : Nat) (q : Prod) : State :=
  match s.running n h with
  | none => s
  | some k =>
    let ops := s.opsNow n h k
    let need := if q.masked || q.preloads then q.lenIn2 ops else 0
    let s := s.pull n h 2 need true (need + 1)
    match s.running n h with
    | none => s
    | some k =>
      if !k.full 2 need then s.emptyStall n h (cRole k.word 2)
      else
        let mt := k.pos / q.nTiles
        let nt := k.pos % q.nTiles
        let bs := k.got 2 need
        let skip := q.masked && !q.live ops bs mt nt
        s.setArray n (some { ctx := h, mTile := mt, nTile := nt, step := if skip then q.steps else 0,
                             acc := q.initAcc bs mt nt, skip := skip })

/-- One invocation of a matrix product: start it, open its iteration, begin a pass, or end a pass whose k-steps are
done. -/
def State.product (s : State) (n h op : Nat) : State :=
  s.invoke n h op (fun s k ops => s.prodRefusals n k ops) fun s k =>
    let q := s.prod n k (s.opsNow n h k)
    match (s.core n).array with
    | none => s.passBegin n h q
    | some a => if a.hold || decide (a.step < q.steps) then s else s.passEnd n h q a

/-- K_STEP_ENTER (R24, R26, R40): a k-step enters when both operands are staged; else a bubble. The last step ends the
pass. -/
def State.doKStep (s : State) (n : Nat) : State :=
  match (s.core n).array with
  | none => s
  | some a =>
    match s.running n a.ctx with
    | none => s
    | some k =>
      let h := a.ctx
      let q := s.prod n k (s.opsNow n h k)
      if a.hold then s.drainStall n h (cRole k.word 3)
      else if q.steps ≤ a.step then s.passEnd n h q a
      else
        let s := (s.pull n h 0 (q.needA a.step) false 64).pull n h 1 (q.needB a.nTile a.step) q.holdB 4096
        match s.running n h with
        | none => s
        | some k =>
          if !k.full 0 (q.needA a.step) then s.emptyStall n h (cRole k.word 0)
          else if !k.full 1 (q.needB a.nTile a.step) then s.emptyStall n h (cRole k.word 1)
          else
            let s := s.turnTiles n q (SMap.get [] k.inBuf 0) (SMap.get [] k.inBuf 1) a.nTile a.step
            let acc := q.stepAcc (SMap.get [] k.inBuf 0) (SMap.get [] k.inBuf 1) a.nTile a.step a.acc
            let a := { a with acc := acc, step := a.step + 1 }
            let s := s.setArray n (some a)
            if a.step = q.steps then s.passEnd n h q a else s

/-- ARRAY_CONTINUE (R41): a held array goes on from its drain position once a slot is free. -/
def State.doArrayContinue (s : State) (n : Nat) : State :=
  match (s.core n).array with
  | none => s
  | some a =>
    match s.running n a.ctx with
    | none => s
    | some k => if a.hold then s.passEnd n a.ctx (s.prod n k (s.opsNow n a.ctx k)) { a with hold := false } else s

end Sys2Proof.Machine
end

