-- ==== Sys2Proof/Machine/VecFun.lean ====
section
/-! DEFINITION. The vector functions RECIP, RSQRT, EXP2 and LOG2 (R44): the correctly rounded FP32 value of the exact
function. RECIP and RSQRT round an integer quotient or root with a sticky bit. EXP2 and LOG2 enclose the exact value
between two dyadic numbers; when both ends round to the same FP32 value, that value is the correctly rounded one. -/

namespace Sys2Proof.Machine

/-- FP32 value of m * 2^e with m's last bit standing for everything below it. -/
def roundSticky (neg : Bool) (m : Nat) (sticky : Bool) (e : Int) : W32 :=
  toF32 (.fin neg (2 * m + b2n sticky) (e - 1))

/-- RECIP (R44). -/
def frecip (a : W32) : W32 :=
  match f32 a with
  | .nan => qnan
  | .inf n => toF32 (.fin n 0 0)
  | .fin n m e =>
    if m = 0 then toF32 (.inf n)
    else
      let k := log2 m + 40
      roundSticky n (2 ^ k / m) (2 ^ k % m != 0) (-(k : Int) - e)

/-- Integer square root, bit by bit from bit n - 1 down. -/
def isqrtAux (x : Nat) : Nat → Nat → Nat
  | 0, r => r
  | n + 1, r => isqrtAux x n (if (r + 2 ^ n) * (r + 2 ^ n) ≤ x then r + 2 ^ n else r)

def isqrt (x : Nat) : Nat := isqrtAux x (log2 x / 2 + 1) 0

/-- RSQRT (R44). -/
def frsqrt (a : W32) : W32 :=
  match f32 a with
  | .nan => qnan
  | .inf n => if n then qnan else fzero
  | .fin n m e =>
    if m = 0 then toF32 (.inf n)
    else if n then qnan
    else
      let odd := e % 2 != 0
      let m' := if odd then 2 * m else m
      let e' := if odd then e - 1 else e
      let k := log2 m' + 40
      let s := isqrt (2 ^ (2 * k) / m')
      roundSticky false s (s * s * m' != 2 ^ (2 * k)) (-(k : Int) - e' / 2)

/-- floor(ln 2 * 2^256). -/
def ln2x256 : Nat := 0xB17217F7D1CF79ABC9E3B39803F2F6AF40F343267298B62D8A0D175B8BAAFA2B

/-- Partial sums of the exponential series at y / 2^p, each term truncated to p bits. -/
def expSeries (p y : Nat) : Nat → Nat → Nat → Nat → Nat
  | 0, _, _, acc => acc
  | n + 1, k, term, acc =>
    let t := term * y / 2 ^ p / k
    expSeries p y n (k + 1) t (acc + t)

/-- The value both ends of an enclosure round to: lo and lo + err, times 2^e. Where the ends differ, the enclosure was
too wide and the lower end decides. -/
def roundEnclosed (neg : Bool) (lo err : Nat) (e : Int) : W32 :=
  let a := toF32 (.fin neg lo e)
  let b := toF32 (.fin neg (lo + err) e)
  if a = b then a else toF32 (.fin neg (2 * lo + err) (e - 1))

/-- EXP2 (R44): 2^x = 2^n * 2^f with 0 ≤ f < 1, and 2^f from the series of exp(f ln 2) to 192 bits. -/
def fexp2 (a : W32) : W32 :=
  match f32 a with
  | .nan => qnan
  | .inf n => if n then fzero else toF32 (.inf false)
  | .fin n m e =>
    if m = 0 then fone
    else if fexp m e ≥ 8 then (if n then fzero else toF32 (.inf false))
    else
      -- |x| < 256, as a multiple of 2^-192 rounded down (exact unless x has lower bits)
      let p : Nat := 192
      let q := quantise m e (-(p : Int))
      let lowBits := q.2.1 != 0
      let xs : Int := if n then -((q.1 : Int) + (if lowBits then 1 else 0)) else q.1
      let ip := xs / (2 ^ p : Int)
      let fp := (xs - ip * (2 ^ p : Int)).toNat
      if fp = 0 && !lowBits then toF32 (.fin false 1 ip)
      else
        let y := fp * (ln2x256 / 2 ^ 64) / 2 ^ p
        let v := expSeries p y 60 1 (2 ^ p) (2 ^ p)
        roundEnclosed false v 512 (ip - p)

/-- Binary digits of log2(y / 2^p) for 1 ≤ y / 2^p < 2, by repeated squaring. -/
def log2Digits (p : Nat) : Nat → Nat → Nat → Nat
  | 0, _, acc => acc
  | n + 1, y, acc =>
    let y2 := y * y / 2 ^ p
    if y2 ≥ 2 ^ (p + 1) then log2Digits p n (y2 / 2) (2 * acc + 1)
    else log2Digits p n y2 (2 * acc)

/-- LOG2 (R44): the exponent plus 128 binary digits of the logarithm of the mantissa. -/
def flog2 (a : W32) : W32 :=
  match f32 a with
  | .nan => qnan
  | .inf n => if n then qnan else toF32 (.inf false)
  | .fin n m e =>
    if m = 0 then toF32 (.inf true)
    else if n then qnan
    else
      let k := log2 m
      let ip : Int := (k : Int) + e
      if m = 2 ^ k then toF32 (.fin (ip < 0) ip.natAbs 0)
      else
        let digits := log2Digits 192 128 (m <<< (192 - k)) 0
        let v : Int := ip * (2 ^ 128 : Int) + digits
        if 0 ≤ v then roundEnclosed false v.toNat 2 (-128)
        else roundEnclosed true ((-v).toNat - 2) 2 (-128)

/-- L2E, the nearest FP32 value to log2 e (R164). -/
def cL2E : W32 := 0x3FB8AA3B#32
/-- G1, the nearest FP32 value to 0.044715 (R164). -/
def cG1 : W32 := 0x3D372713#32
/-- G2, the nearest FP32 value to 2 * sqrt(2/pi) * log2 e (R164). -/
def cG2 : W32 := 0x40135761#32

end Sys2Proof.Machine
end

