-- ==== Sys2Proof/Machine/Vector.lean ====
section
/-! DEFINITION. The vector macro-operations: ELEMWISE (R164), the row operations (R165), ROPE (R168), masks, conversion
and embeddings (R170 to R174), the optimiser (R175, R176), and SEAL, CHECK_SEAL and CHECKPOINT (R177 to R179). -/

namespace Sys2Proof.Machine

/-! ### Element sequences -/

/-- Whole elements of a role of n that its first bytes give: all or none in an MX format, whose scales come last. -/
def availElems (code n : Nat) (bs : Bytes) : Nat :=
  if fmtIsMx code then (if roleBytes code n ≤ bs.length then n else 0) else min n (bs.length * 8 / fmtBits code)

/-- The first m elements of a role of n as FP32. -/
def firstElems (code n m : Nat) (bs : Bytes) : List W32 := if m = 0 then [] else (readElems code n bs).take m

/-- The bytes of a result role of n elements that its first results decide; scales follow all elements (R156). -/
def outElems (code n : Nat) (mode : Nat → Mode) (xs : List W32) : Bytes :=
  if xs.length = n then convElems code mode xs
  else if fmtIsMx code then
    let m := xs.length / 32 * 32
    (convElems code mode (xs.take m)).take (fmtBytes code m)
  else convElems code mode xs

/-- Mode of the element with index e of a command's result (R58, R155). -/
def elemMode (w seed : Nat) (ops : List Nat) (e : Nat) : Mode := modeOf (cMode w) seed (cImm w) (opnd ops 3) e

/-- Bit i of a bitmap (R170). -/
def mapBit (bs : Bytes) (i : Nat) : Bool := bit (leNat (sliceZ bs (i / 8) 1)) (i % 8)

/-- The bytes of a bitmap of n bits that its first bits decide (R170). -/
def outBits (n : Nat) (bits : List Bool) : Bytes :=
  let v := bits.zipIdx.foldl (fun a (e : Bool × Nat) => if e.1 then a + 2 ^ e.2 else a) 0
  natLe (if bits.length = n then ceilDiv n 8 else bits.length / 8) v

/-- The job seed that a context latched. -/
def State.seedOf (s : State) (n h : Nat) : Nat := (s.ctx n h).seed

/-! ### ELEMWISE -/

/-- SILU (R164). -/
def silu (x : W32) : W32 :=
  let r := frecip (fadd (fexp2 (fmul x cL2E)) fone)
  fmul x (fsub fone r)

/-- GELU (R164). -/
def gelu (x : W32) : W32 :=
  let t := fmul (fmul (fma (fmul x x) cG1 fone) x) cG2
  let r := frecip (fadd (fexp2 t) fone)
  fmul x (fsub fone r)

/-- RELU (R164). -/
def relu (x : W32) : W32 := if fpos x then x else if fisNan x then qnan else fzero

/-- The ELEMWISE functions (R164): inputs x, y, z, the scalar, the mask bit. -/
def elemFun (f : Nat) (x y z sc : W32) (m : Bool) : W32 :=
  match f with
  | 0x0 => fadd x y
  | 0x1 => fsub x y
  | 0x2 => fmul x y
  | 0x3 => fma x y z
  | 0x4 => fmax x y
  | 0x5 => fmin x y
  | 0x6 => fmul x sc
  | 0x7 => fadd x sc
  | 0x8 => relu x
  | 0x9 => if m then x else fzero
  | 0xA => if m then fmul x sc else fzero
  | 0xB => silu x
  | 0xC => gelu x
  | _ => x

/-- ELEMWISE (R164). -/
def kElemwise (seed : Nat) (k : CmdRun) (ops : List Nat) : Kernel :=
  let w := k.word
  let f := cFlags w
  let n := opnd ops 0
  let roles := elemRoles f
  let fb := cFmtB w
  { ins := [(0, roleBytes (cFmtA w) n, false)] ++
      (if bit roles 1 then [(1, if elemMask f then ceilDiv n 8 else roleBytes fb n, false)] else []) ++
      (if bit roles 2 then [(2, roleBytes (cFmtA w) n, false)] else []),
    outs := [(3, roleBytes (cFmtOut w) n)],
    run := fun i _ =>
      let m0 := availElems (cFmtA w) n (i 0)
      let m1 := if !bit roles 1 then m0
        else if elemMask f then min m0 (8 * (i 1).length) else min m0 (availElems fb n (i 1))
      let m := if bit roles 2 then min m1 (availElems (cFmtA w) n (i 2)) else m1
      let xs := firstElems (cFmtA w) n m (i 0)
      let ys := if bit roles 1 && !elemMask f then firstElems fb n m (i 1) else []
      let zs := if bit roles 2 then firstElems (cFmtA w) n m (i 2) else []
      let sc := BitVec.ofNat 32 (opnd ops 2)
      outElems (cFmtOut w) n (fun j => elemMode w seed ops (opnd ops 1 + j))
        (xs.zipIdx.map fun e => elemFun f e.1 ((ys[e.2]?).getD 0#32) ((zs[e.2]?).getD 0#32) sc (mapBit (i 1) e.2)) }

/-! ### Row operations (R165) -/

/-- The element-wise application of a function to two rows. -/
def rowMap2 (f : W32 → W32 → W32) (a b : List W32) : List W32 := (a.zip b).map fun e => f e.1 e.2

/-- 1 / L as FP32. -/
def invLen (l : Nat) : W32 := frecip (toF32 (.fin false l 0))

/-- The forward quantities of a normalisation row: the centred row (the row itself for RMS) and r. -/
def normRow (ln : Bool) (l : Nat) (eps : W32) (x : List W32) : List W32 × W32 :=
  let inv := invLen l
  let d := if ln then
      let mu := fmul (laneSum x) inv
      x.map fun v => fsub v mu
    else x
  (d, frsqrt (fadd (fmul (laneSum (d.map fun v => fmul v v)) inv) eps))

/-- One row of ROWNORM_FWD. -/
def normFwd (ln : Bool) (l : Nat) (eps : W32) (x g b : List W32) : List W32 :=
  let q := normRow ln l eps x
  let xr := q.1.map fun v => fmul v q.2
  if ln then ((xr.zip g).zip b).map fun e => fma e.1.1 e.1.2 e.2 else rowMap2 fmul xr g

/-- One row of ROWNORM_BWD: dx and the normalised row that dγ uses. -/
def normBwd (ln : Bool) (l : Nat) (eps : W32) (x dy g : List W32) : List W32 × List W32 :=
  let q := normRow ln l eps x
  let inv := invLen l
  let xh := q.1.map fun v => fmul v q.2
  let hh := rowMap2 fmul dy g
  if ln then
    let a := fmul (laneSum hh) inv
    let b2 := fmul (laneSum (rowMap2 fmul hh xh)) inv
    ((hh.zip xh).map fun e => fmul q.2 (fsub (fsub e.1 a) (fmul e.2 b2)), xh)
  else
    let c := fmul (laneSum (rowMap2 fmul hh x)) inv
    ((hh.zip x).map fun e => fmul q.2 (fsub e.1 (fmul e.2 (fmul c (fmul q.2 q.2)))), xh)

/-- One row of the softmax. -/
def softFwd (sc : W32) (x : List W32) : List W32 :=
  let v := x.map fun a => fmul a sc
  let m := laneMax v
  let q := v.map fun a => fexp2 (fmul (fsub a m) cL2E)
  let r := frecip (laneSum q)
  q.map fun a => fmul a r

/-- One row of the backward softmax. -/
def softBwd (sc : W32) (x dy : List W32) : List W32 :=
  let y := softFwd sc x
  let gd := laneSum (rowMap2 fmul dy y)
  (y.zip dy).map fun e => fmul (fmul e.1 (fsub e.2 gd)) sc

/-- Rows of length l of an element list. -/
def rowsOf (l : Nat) (xs : List W32) : List (List W32) :=
  (List.range (xs.length / l)).map fun r => (xs.drop (r * l)).take l

/-- The whole rows that role `i` gives so far. -/
def inRows (code rows l : Nat) (bs : Bytes) : List (List W32) :=
  let m := availElems code (rows * l) bs / l * l
  rowsOf l (firstElems code (rows * l) m bs)

/-- A row operation: `two` when IN1 carries rows, `held` the held roles of L values, `extra` the number of FP32 sums of
OUT1, and the result row of rows x and y. x is read in `FMT_A`; γ, β and dy, for which R165 names no format, in `FMT_B`
(DESIGN CHOICE, log entry 61). In an MX format a row counts as read with its last element: its scales follow all rows. -/
def rowKernel (seed : Nat) (k : CmdRun) (ops : List Nat) (two : Bool) (held : List Nat) (extra : Nat)
    (f : (Nat → List W32) → List W32 → List W32 → List W32)
    (sums : (Nat → List W32) → List (List W32 × List W32) → List W32) : Kernel :=
  let w := k.word
  let rows := opnd ops 0
  let l := opnd ops 1
  let fa := cFmtA w
  let fb := cFmtB w
  let need := roleBytes fa (rows * l)
  let heldRow (i : Nat → Bytes) (r : Nat) : List W32 := firstElems fb l (availElems fb l (i r)) (i r)
  let pairs (i : Nat → Bytes) : List (List W32 × List W32) :=
    if held.all fun r => decide (roleBytes fb l ≤ (i r).length) then
      let xs := inRows fa rows l (i 0)
      let ys := if two then inRows fb rows l (i 1) else xs
      xs.zip ys
    else []
  { ins := held.map (fun r => (r, roleBytes fb l, true)) ++ [(0, need, false)] ++
      (if two then [(1, roleBytes fb (rows * l), false)] else []),
    outs := [(3, roleBytes (cFmtOut w) (rows * l))] ++ (if extra = 0 then [] else [(4, extra * l * 4)]),
    run := fun i r =>
      let ps := pairs i
      let h := heldRow i
      if r = 3 then
        outElems (cFmtOut w) (rows * l) (fun j => elemMode w seed ops j) (ps.flatMap fun p => f h p.1 p.2)
      else if ps.length = rows then unwords32 (sums h ps)
      else []
    rowLen := fun r => if r = 0 then fmtBytes fa l else if r = 1 && two then fmtBytes fb l else 0
    rows := rows }

/-- ROWNORM_FWD (R165). -/
def kRownormFwd (seed : Nat) (k : CmdRun) (ops : List Nat) : Kernel :=
  let ln := cFlag k.word 32
  let l := opnd ops 1
  let eps := BitVec.ofNat 32 (opnd ops 2)
  rowKernel seed k ops false (if ln then [1, 2] else [1]) 0 (fun h x _ => normFwd ln l eps x (h 1) (h 2)) fun _ _ => []

/-- ROWNORM_BWD (R165). -/
def kRownormBwd (seed : Nat) (k : CmdRun) (ops : List Nat) : Kernel :=
  let ln := cFlag k.word 32
  let l := opnd ops 1
  let eps := BitVec.ofNat 32 (opnd ops 2)
  let zero := List.replicate l fzero
  rowKernel seed k ops true [2] (if ln then 2 else 1) (fun h x dy => (normBwd ln l eps x dy (h 2)).1) fun h ps =>
    let dg := ps.foldl (fun acc p => rowMap2 fadd acc (rowMap2 fmul p.2 (normBwd ln l eps p.1 p.2 (h 2)).2)) zero
    let db := ps.foldl (fun acc p => rowMap2 fadd acc p.2) zero
    if ln then dg ++ db else dg

/-- SOFTMAX_FWD (R165). -/
def kSoftmaxFwd (seed : Nat) (k : CmdRun) (ops : List Nat) : Kernel :=
  let sc := BitVec.ofNat 32 (opnd ops 2)
  rowKernel seed k ops false [] 0 (fun _ x _ => softFwd sc x) fun _ _ => []

/-- SOFTMAX_BWD (R165). -/
def kSoftmaxBwd (seed : Nat) (k : CmdRun) (ops : List Nat) : Kernel :=
  let sc := BitVec.ofNat 32 (opnd ops 2)
  rowKernel seed k ops true [] 0 (fun _ x dy => softBwd sc x dy) fun _ _ => []

/-- A row of IN0, and of IN1 where it carries rows, lies within S slots (R165). The places of the rows in their slots
repeat after slot bytes / gcd rows. R165 names no status for a row that does not: it is ST_RING_MISCONFIG at the start of
the iteration, as for the other sequences that exceed their slots (DESIGN CHOICE, log entry 61). -/
def State.rowsFit (s : State) (n : Nat) (k : CmdRun) (ops : List Nat) (two : Bool) : List Status :=
  let l := opnd ops 1
  let fits (r code : Nat) : Bool :=
    match s.roleRing n k.word r with
    | none => true
    | some q =>
      let b := fmtBytes code l
      let sb := q.slotBytes
      (List.range (min (opnd ops 0) (sb / Nat.gcd sb b))).all fun i =>
        decide ((b * (i + 1) - 1) / sb - b * i / sb + 1 ≤ q.slots)
  conds [(decide (0 < l) && !(fits 0 (cFmtA k.word) && (!two || fits 1 (cFmtB k.word))), .ringMisconfig)]

/-! ### ROPE (R168) -/

/-- One rotated row: x of length d and its table row of cosines, then sines. -/
def ropeRow (x t : List W32) : List W32 :=
  let hf := x.length / 2
  (List.range hf).flatMap fun i =>
    let a := (x[2 * i]?).getD 0#32
    let b := (x[2 * i + 1]?).getD 0#32
    let c := (t[i]?).getD 0#32
    let sn := (t[hf + i]?).getD 0#32
    [fma a c (fneg (fmul b sn)), fma b c (fmul a sn)]

/-- ROPE (R168). -/
def kRope (seed : Nat) (k : CmdRun) (ops : List Nat) : Kernel :=
  let w := k.word
  let rows := opnd ops 0
  let d := opnd ops 2
  { ins := [(0, roleBytes (cFmtA w) (rows * d), false), (1, 4 * rows * d, false)],
    outs := [(3, roleBytes (cFmtOut w) (rows * d))],
    run := fun i _ =>
      outElems (cFmtOut w) (rows * d) (fun j => elemMode w seed ops (opnd ops 1 + j))
        (((inRows (cFmtA w) rows d (i 0)).zip (inRows 0 rows d (i 1))).flatMap fun e => ropeRow e.1 e.2) }

/-! ### Masks, conversion, embeddings (R170 to R174) -/

/-- The test of MASKPACK (R170). -/
def maskTest (t : Nat) (x : W32) : Bool :=
  match t with
  | 0 => fpos x
  | 1 => fisNan x || !fisZero x
  | _ => fisNan x || !x.getLsbD 31

/-- MASKPACK (R170). -/
def kMaskpack (k : CmdRun) (ops : List Nat) : Kernel :=
  let w := k.word
  let n := opnd ops 0
  { ins := [(0, roleBytes (cFmtA w) n, false)], outs := [(3, ceilDiv n 8)],
    run := fun i _ =>
      outBits n ((firstElems (cFmtA w) n (availElems (cFmtA w) n (i 0)) (i 0)).map (maskTest (cFlags w % 4))) }

/-- RNG_MASK (R171, R64): a bit is 1 when the draw is at least the threshold. -/
def kRngMask (seed : Nat) (k : CmdRun) (ops : List Nat) : Kernel :=
  let n := opnd ops 0
  { ins := [], outs := [(3, ceilDiv n 8)],
    run := fun _ _ => outBits n ((List.range n).map fun i =>
      decide (opnd ops 2 ≤ drawU seed 2 (cImm k.word) (opnd ops 3) (opnd ops 1 + i))) }

/-- CAST_MX (R172). An MX input is read as FP32 first, as R55 has it of every unit that reads such an element as an FP32
value; R56 speaks of the exact value. The two differ only for elements of magnitude 2^128 and beyond, which are here
infinities. GATHER_ROWS (R173) reads its input in the same way (DESIGN CHOICE, log entry 62). -/
def kCastMx (seed : Nat) (k : CmdRun) (ops : List Nat) : Kernel :=
  let w := k.word
  let n := opnd ops 0
  { ins := [(0, roleBytes (cFmtA w) n, false)], outs := [(3, roleBytes (cFmtOut w) n)],
    run := fun i _ => outElems (cFmtOut w) n (fun j => elemMode w seed ops (opnd ops 1 + j))
      (firstElems (cFmtA w) n (availElems (cFmtA w) n (i 0)) (i 0)) }

/-- GATHER_ROWS (R173). -/
def kGatherRows (seed : Nat) (k : CmdRun) (ops : List Nat) : Kernel :=
  let w := k.word
  let n := opnd ops 0 * opnd ops 1
  let sc := BitVec.ofNat 32 (opnd ops 2)
  { ins := [(0, roleBytes (cFmtA w) n, false)], outs := [(3, roleBytes (cFmtOut w) n)],
    run := fun i _ =>
      let xs := firstElems (cFmtA w) n (availElems (cFmtA w) n (i 0)) (i 0)
      outElems (cFmtOut w) n (fun j => elemMode w seed ops j)
        (if opnd ops 2 = 0 then xs else xs.map fun x => fmul x sc) }

/-- Bytes of a SCATTER_ADD record (R174). -/
def recordBytes (l : Nat) : Nat := 32 + 4 * l

/-- The commit order of the slot that holds byte `off` of role r's sequence, when that slot has committed. The notes of
the command hold the order of the slots taken so far, by role. -/
def State.slotStamp (s : State) (n : Nat) (k : CmdRun) (r off : Nat) : Option Nat :=
  match s.roleRing n k.word r with
  | none => none
  | some q =>
    let taken := (k.note.filter fun e => e.1 == r).map (·.2)
    let i := off / q.slotBytes
    match taken[i]? with
    | some t => some t
    | none => if q.kept < q.held then SMap.find? q.cur q.stamps else none

/-- The ring that gives the next record (R174): IN0 in ordered mode; else the one whose slot committed first. -/
def State.nextRecord (s : State) (n : Nat) (k : CmdRun) (size : Nat) : Option Nat :=
  if !cFlag k.word 32 then some 0
  else
    let used (r : Nat) : Nat := (k.aux.filter fun a => a.toNat == r).length
    match s.slotStamp n k 0 (used 0 * size), s.slotStamp n k 1 (used 1 * size) with
    | some a, some b => some (if a ≤ b then 0 else 1)
    | some _, none => some 0
    | none, some _ => some 1
    | none, none => none

/-- Read slots of role r until `need` bytes of its sequence are in, noting the commit order of each. -/
def State.pullNoted (s : State) (n h r need : Nat) : Nat → State
  | 0 => s
  | fuel + 1 =>
    match (s.ctx n h).cmd with
    | none => s
    | some k =>
      match s.roleRing n k.word r with
      | none => s
      | some q =>
        if k.full r need || !s.headVisible q then s
        else
          let t := SMap.get 0 q.stamps q.cur
          let s := s.modCmd n h fun k => { k with note := k.note ++ [(r, t)] }
          (s.pull n h r (SMap.get [] k.inBuf r |>.length.succ) false 1).pullNoted n h r need fuel

/-- The bytes of record j of the sequence of role r. -/
def CmdRun.record (k : CmdRun) (r j size : Nat) : Bytes := slice (SMap.get [] k.inBuf r) (j * size) size

/-- The records read so far, in the order taken. -/
def CmdRun.records (k : CmdRun) (size : Nat) : List Bytes :=
  k.aux.zipIdx.map fun e =>
    k.record e.1.toNat ((k.aux.take e.2).filter fun a => a == e.1).length size

/-- Add one record to a chunk of rows (R174). -/
def scatterRecord (r0 nr l : Nat) (chunk : List (List W32)) (rec_ : Bytes) : List (List W32) :=
  let x := leNat (slice rec_ 0 4)
  if r0 ≤ x ∧ x < r0 + nr then
    chunk.modify (x - r0) fun row => rowMap2 fadd row ((words32 (rec_.drop 32)).take l)
  else chunk

/-- Take records while they are there (R174). `pos` counts the records read whole. -/
def State.scatterRecords (s : State) (n h size total : Nat) : Nat → State
  | 0 => s
  | fuel + 1 =>
    match s.running n h with
    | none => s
    | some k =>
      if total ≤ k.pos then s
      else
        let s := if k.aux.length = k.pos then
            match s.nextRecord n k size with
            | some r => s.modCmd n h fun k => { k with aux := k.aux ++ [BitVec.ofNat 32 r] }
            | none => s.emptyStall n h (cRole k.word 0)
          else s
        match s.running n h with
        | none => s
        | some k =>
          match k.aux[k.pos]? with
          | none => s
          | some a =>
            let r := a.toNat
            let j := ((k.aux.take k.pos).filter fun b => b == a).length
            let need := (j + 1) * size
            let s := s.pullNoted n h r need (need + 1)
            match s.running n h with
            | none => s
            | some k =>
              if !k.full r need then s.emptyStall n h (cRole k.word r)
              else if (slice (k.record r j size) 4 28).any (· != 0#8) then s.failCommand n h .recipeInvalid
              else (s.modCmd n h fun k => { k with pos := k.pos + 1 }).scatterRecords n h size total fuel

/-- The iteration of SCATTER_ADD: the held chunk, the records, then the updated chunk. -/
def State.scatterStep (s : State) (n h : Nat) (k : CmdRun) : State :=
  let ops := s.opsNow n h k
  let l := opnd ops 1
  let nr := opnd ops 2
  let size := recordBytes l
  let len := 4 * nr * l
  let s := s.pull n h 2 len true (len + 1)
  let s := s.scatterRecords n h size (opnd ops 3) (opnd ops 3 + 1)
  match s.running n h with
  | none => s
  | some k =>
    if k.pos < opnd ops 3 then s
    else if !k.full 2 len then s.emptyStall n h (cRole k.word 2)
    else
      let rows := if l = 0 then [] else rowsOf l (words32 (k.got 2 len))
      let out := unwords32 ((k.records size).foldl (scatterRecord (opnd ops 0) nr l) rows).flatten
      let s := s.push n h 3 out true (len + 1)
      match s.running n h with
      | none => s
      | some k =>
        if k.pushed 3 len then
          ((s.dropKept n (cRole k.word 2) 16).modCmd n h fun k => { k with note := [] }).endIter n h k
        else s.drainStall n h (cRole k.word 3)

/-- The chunk of SCATTER_ADD lies within its ring (R174). -/
def State.scatterFits (s : State) (n : Nat) (k : CmdRun) (ops : List Nat) : List Status :=
  let ok := match s.roleRing n k.word 2 with
    | some q => decide (4 * opnd ops 2 * opnd ops 1 ≤ q.slots * q.slotBytes)
    | none => true
  conds [(!ok, .ringMisconfig)]

/-! ### The optimiser (R175) -/

/-- The FP32 word at a byte offset. -/
def wordAt (bs : Bytes) (off : Nat) : W32 := BitVec.ofNat 32 (leNat (sliceZ bs off 4))

/-- The update of one weight: gradient, m, v, joined weight; the results m, v, weight (R175). -/
def optWeight (hp : Nat → W32) (grad m v w : W32) : W32 × W32 × W32 :=
  let g := fmul grad (hp 9)
  let m := fma (hp 1) m (fmul (hp 3) g)
  let v := fma (hp 2) v (fmul (hp 4) (fmul g g))
  let mh := fmul m (hp 7)
  let vh := fmul v (hp 8)
  let sq := if fisZero vh then fzero else fmul vh (frsqrt vh)
  let u := fmul mh (frecip (fadd sq (hp 5)))
  (m, v, fma (fneg (hp 0)) (fadd u (fmul (hp 6) w)) w)

/-- The update of one group of 256 weights: 1 KiB of gradients and 3,072 B of state (R175). -/
def optGroup (hp : Nat → W32) (grad st : Bytes) : Bytes :=
  let r := (List.range 256).map fun i =>
    let w := BitVec.ofNat 32 (leNat (sliceZ st (2 * i) 2) * 65536 + leNat (sliceZ st (512 + 2 * i) 2))
    optWeight hp (wordAt grad (4 * i)) (wordAt st (1024 + 4 * i)) (wordAt st (2048 + 4 * i)) w
  r.flatMap (fun e => natLe 2 (e.2.2.toNat / 65536)) ++ r.flatMap (fun e => natLe 2 e.2.2.toNat) ++
    r.flatMap (fun e => natLe 4 e.1.toNat) ++ r.flatMap fun e => natLe 4 e.2.1.toNat

/-- OPT_UPDATE (R175). -/
def kOptUpdate (_ : CmdRun) (ops : List Nat) : Kernel :=
  let groups := opnd ops 0 / 256
  { ins := [(2, 40, true), (0, 1024 * groups, false), (1, 3072 * groups, false)],
    outs := [(3, 3072 * groups)],
    run := fun i _ =>
      if (i 2).length < 40 then []
      else
        let hp (j : Nat) : W32 := wordAt (i 2) (4 * j)
        (List.range (min ((i 0).length / 1024) ((i 1).length / 3072))).flatMap fun g =>
          optGroup hp (slice (i 0) (1024 * g) 1024) (slice (i 1) (3072 * g) 3072) }

/-- The slots of IN1 and OUT0 are multiples of 3,072 B (R175). -/
def State.optSlots (s : State) (n : Nat) (k : CmdRun) : List Status :=
  let ok (r : Nat) : Bool := match s.roleRing n k.word r with | some q => q.slotBytes % 3072 == 0 | none => true
  conds [(!(ok 1 && ok 3), .ringMisconfig)]

/-! ### Seals and checkpoints (R177 to R179, R355) -/

/-- The whole 4 KiB blocks of a sequence read so far. -/
def blocksOf (bs : Bytes) : List Bytes := (List.range (bs.length / 4096)).map fun b => slice bs (4096 * b) 4096

/-- SEAL (R177). -/
def kSeal (k : CmdRun) (ops : List Nat) : Kernel :=
  let b := opnd ops 0
  { ins := [(0, 4096 * b, false)],
    outs := [(3, 4 * b)] ++ (if cFlag k.word 32 then [(4, 4096 * b)] else []),
    run := fun i r => if r = 3 then unwords32 ((blocksOf (i 0)).map crc32c) else i 0 }

/-- The blocks that differ from their recorded seals: index and recomputed seal (R178). The index of a block is its place among
the blocks of this CHECK_SEAL; that a context reports it so (R193) is a DESIGN CHOICE (log entry 70). -/
def sealDiffs (data recorded : Bytes) : List (Nat × Nat) :=
  ((blocksOf data).zip (words32 recorded)).zipIdx.filterMap fun e =>
    let c := crc32c e.1.1
    if c = e.1.2 then none else some (e.2, c.toNat)

/-- CHECK_SEAL (R178): the length of OUT0 is known once every block has been compared. -/
def kCheckSeal (k : CmdRun) (ops : List Nat) : Kernel :=
  let b := opnd ops 0
  let d := sealDiffs (k.got 0 (4096 * b)) (k.got 1 (4 * b))
  let all := k.full 0 (4096 * b) && k.full 1 (4 * b)
  { ins := [(0, 4096 * b, false), (1, 4 * b, false)],
    outs := if cHasRole k.word 3 then [(3, if all then 4 * d.length else 4 * b)] else [],
    run := fun i _ => (sealDiffs (i 0) (i 1)).flatMap fun e => natLe 4 e.1,
    note := fun i => sealDiffs (i 0) (i 1) }

/-- CHECKPOINT (R179). -/
def kCheckpoint (_ : CmdRun) (ops : List Nat) : Kernel :=
  let b := opnd ops 0
  { ins := [(0, 4096 * b, false)], outs := [(3, 4096 * b), (4, 4 * b)],
    run := fun i r => if r = 3 then i 0 else unwords32 ((blocksOf (i 0)).map crc32c) }

/-- The closing CHECK_SEAL of a re-steep or third run holds once it has compared its blocks: its report goes to the
collector and its context waits (R193, R195). -/
def State.sealHold (s : State) (n h : Nat) : State :=
  let x := s.ctx n h
  match x.cmd with
  | none => s
  | some k =>
    if k.phase == .last && cOp k.word == 0x39 && cMash k.word && cFlag k.word 32 && k.verdict.isNone &&
        (x.kind == .resteep || x.kind == .third) && x.state == .running then
      (s.modCore n fun c => c.letGo h).setCtx n h
        { x with state := .waiting, cmd := some { k with phase := .held, pos := 0 } }
    else s

/-! ### The rows -/

def State.doElemwise (s : State) (n h : Nat) : State := s.vector n h 0x08 fun s k ops => kElemwise (s.seedOf n h) k ops
def State.doRownormFwd (s : State) (n h : Nat) : State :=
  s.vector n h 0x10 (fun s k ops => kRownormFwd (s.seedOf n h) k ops) fun s k ops => s.rowsFit n k ops false
def State.doRownormBwd (s : State) (n h : Nat) : State :=
  s.vector n h 0x11 (fun s k ops => kRownormBwd (s.seedOf n h) k ops) fun s k ops => s.rowsFit n k ops true
def State.doSoftmaxFwd (s : State) (n h : Nat) : State :=
  s.vector n h 0x12 (fun s k ops => kSoftmaxFwd (s.seedOf n h) k ops) fun s k ops => s.rowsFit n k ops false
def State.doSoftmaxBwd (s : State) (n h : Nat) : State :=
  s.vector n h 0x13 (fun s k ops => kSoftmaxBwd (s.seedOf n h) k ops) fun s k ops => s.rowsFit n k ops true
def State.doRope (s : State) (n h : Nat) : State := s.vector n h 0x1A fun s k ops => kRope (s.seedOf n h) k ops
def State.doMaskpack (s : State) (n h : Nat) : State := s.vector n h 0x20 fun _ k ops => kMaskpack k ops
def State.doRngMask (s : State) (n h : Nat) : State := s.vector n h 0x21 fun s k ops => kRngMask (s.seedOf n h) k ops
def State.doCastMx (s : State) (n h : Nat) : State := s.vector n h 0x22 fun s k ops => kCastMx (s.seedOf n h) k ops
def State.doGatherRows (s : State) (n h : Nat) : State :=
  s.vector n h 0x28 fun s k ops => kGatherRows (s.seedOf n h) k ops
def State.doScatterAdd (s : State) (n h : Nat) : State :=
  s.invoke n h 0x29 (fun s k ops => s.scatterFits n k ops) fun s k => s.scatterStep n h k
def State.doOptUpdate (s : State) (n h : Nat) : State :=
  s.vector n h 0x30 (fun _ k ops => kOptUpdate k ops) fun s k _ => s.optSlots n k
def State.doSeal (s : State) (n h : Nat) : State := s.vector n h 0x38 fun _ k ops => kSeal k ops
def State.doCheckSeal (s : State) (n h : Nat) : State :=
  (s.vector n h 0x39 fun _ k ops => kCheckSeal k ops).sealHold n h
def State.doCheckpoint (s : State) (n h : Nat) : State := s.vector n h 0x3A fun _ k ops => kCheckpoint k ops

end Sys2Proof.Machine
end

