-- ==== Sys2Proof/Machine/Attention.lean ====
section
/-! DEFINITION. ATTN_BLOCK_FWD and ATTN_BLOCK_BWD (R166, R207 to R212): one query block of 128 rows against key-value
blocks of 256 tokens, with the carry store of the range level (R210). -/

namespace Sys2Proof.Machine

/-! ### Operands -/

/-- The n-element rows of a matrix as exact values (R55, R207). -/
def valRows (code rows n : Nat) (bs : Bytes) : List (List FVal) :=
  let es := (unpackElems code (rows * n) bs).map fun w => decodeElem code w 127
  (List.range rows).map fun r => (es.drop (r * n)).take n

/-- Products that enter the array in one k-step (R25). -/
def groupBy (p : Nat) : Nat → List (FVal × FVal) → List (List (FVal × FVal))
  | 0, _ => []
  | fuel + 1, l => if l.isEmpty then [] else l.take p :: groupBy p fuel (l.drop p)

/-- A dot product computed in the array over ascending K, from +0.0 (R24, R26, R209). -/
def arrayDot (p : Nat) (a b : List FVal) : W32 :=
  (groupBy p a.length (a.zip b)).foldl cellUpdate fzero

/-- A value rounded RNE into a format and read back (R209, R211). -/
def cvtRne (code : Nat) (x : W32) : FVal := decodeElem code (encodeFmt (fmtOf code) .rne (f32 x)) 127

/-- Column c of a list of rows. -/
def column (rows : List (List FVal)) (c : Nat) : List FVal := rows.map fun r => (r[c]?).getD (.fin false 0 0)

/-- What an attention iteration computes with: packing, head dimension, FMT_B, the score scale, the masking rule. -/
structure Attn where
  p      : Nat
  d      : Nat
  fb     : Nat
  scale  : W32
  causal : Bool
  pq     : Nat
  pk     : Nat
  deriving DecidableEq, Repr

/-- The attention parameters of a command's iteration (R166). -/
def attnOf (w : Nat) (ops : List Nat) : Attn :=
  { p := fmtPack (cFmtA w), d := opnd ops 1, fb := cFmtB w, scale := BitVec.ofNat 32 (cImm w), causal := cFlag w 32,
    pq := opnd ops 2, pk := opnd ops 3 }

/-- Key row t of block j is masked for query row i (R208). -/
def Attn.masked (a : Attn) (i j t : Nat) : Bool := a.causal && decide (a.pq + i < a.pk + 256 * j + t)

/-- Bytes of the key-value block: 256 key rows and 256 value rows (R207). -/
def Attn.blockBytes (a : Attn) : Nat := 512 * fmtBytes a.fb a.d

/-- Key rows and value rows of block j of a sequence. -/
def Attn.block (a : Attn) (bs : Bytes) (j : Nat) : List (List FVal) × List (List FVal) :=
  let rows := valRows a.fb 512 a.d (slice bs (j * a.blockBytes) a.blockBytes)
  (rows.take 256, rows.drop 256)

/-! ### Forward (R209) -/

/-- The statistics of one row: m, l, o. -/
abbrev RowStat := W32 × W32 × List W32

/-- The initial statistics of a row. -/
def rowStat0 (d : Nat) : RowStat := (fninf, fzero, List.replicate d fzero)

/-- One row against one block: query row i, block j with its keys and values. -/
def Attn.fwdRow (a : Attn) (i j : Nat) (q : List FVal) (ks vs : List (List FVal)) (st : RowStat) : RowStat :=
  let v := ks.zipIdx.map fun e => if a.masked i j e.2 then fninf else fmul (arrayDot a.p q e.1) a.scale
  let mn := fmax st.1 (laneMax v)
  if mn = fninf then st
  else
    let f := fexp2 (fmul (fsub st.1 mn) cL2E)
    let e := v.map fun x => fexp2 (fmul (fsub x mn) cL2E)
    let c := e.map (cvtRne a.fb)
    (mn, fma st.2.1 f (laneSum e),
      st.2.2.zipIdx.map fun o => fma o.1 f (arrayDot a.p c (column vs o.2)))

/-- Row i over blocks j0, … of a list. -/
def Attn.fwdRowAll (a : Attn) (i : Nat) (q : List FVal) (st : RowStat) (blocks : List (List (List FVal) × List (List FVal))) :
    RowStat :=
  blocks.zipIdx.foldl (fun st e => a.fwdRow i e.2 q e.1.1 e.1.2 st) st

/-- The result row of O. -/
def outRow (st : RowStat) : List W32 :=
  if fisZero st.2.1 then st.2.2.map fun _ => fzero
  else
    let r := frecip st.2.1
    st.2.2.map fun o => fmul o r

/-- The log-sum of a row. -/
def logSum (st : RowStat) : W32 := if fisZero st.2.1 then fninf else fadd (fmul st.1 cL2E) (flog2 st.2.1)

/-! ### Backward (R211) -/

/-- P and dS of row i against block j. -/
def Attn.bwdRow (a : Attn) (i j : Nat) (q gO : List FVal) (lam dd : W32) (ks vs : List (List FVal)) : List (W32 × W32) :=
  (ks.zip vs).zipIdx.map fun e =>
    let v := fmul (arrayDot a.p q e.1.1) a.scale
    let pt := if a.masked i j e.2 then fzero else fexp2 (fsub (fmul v cL2E) lam)
    let dp := arrayDot a.p gO e.1.2
    (pt, fmul (fmul pt (fsub dp dd)) a.scale)

/-- D of a row: the lane sum of dO · O. -/
def rowD (dOut o : List FVal) : W32 := laneSum ((dOut.zip o).map fun e => fmul (toF32 e.1) (toF32 e.2))

/-- dQ of a row after one block. -/
def Attn.addDq (a : Attn) (ds : List W32) (ks : List (List FVal)) (dq : List W32) : List W32 :=
  let c := ds.map (cvtRne a.fb)
  dq.zipIdx.map fun e => fadd e.1 (arrayDot a.p c (column ks e.2))

/-- dK then dV of a block, from P and dS of every query row. -/
def Attn.dKdV (a : Attn) (ps : List (List (W32 × W32))) (q dOut : List (List FVal)) : List W32 :=
  let side (f : W32 × W32 → W32) (m : List (List FVal)) : List W32 :=
    (List.range 256).flatMap fun t =>
      let col := ps.map fun r => cvtRne a.fb (f ((r[t]?).getD (fzero, fzero)))
      (List.range a.d).map fun c => arrayDot a.p col (column m c)
  side (·.2) q ++ side (·.1) dOut

/-! ### Iterations -/

/-- The range index of an iteration, and whether it is the last (R210). -/
def rangeAt (k : CmdRun) : Nat × Bool :=
  match k.iter.getLast?, k.counts.getLast? with
  | some i, some c => (i, decide (c ≤ i + 1))
  | _, _ => (0, true)

/-- The carried statistics of a row at the start of an iteration. -/
def Core.carried (c : Core) (k : CmdRun) (row : Nat) : Option (List W32) :=
  if (rangeAt k).1 = 0 then none else SMap.find? row c.carry

/-- A carried forward row. -/
def statOf (d : Nat) : Option (List W32) → RowStat
  | some (m :: l :: o) => (m, l, o)
  | _ => rowStat0 d

/-- The lengths and blocks of an attention iteration. -/
def attnIn1 (a : Attn) (nb : Nat) : Nat := nb * a.blockBytes

/-- The blocks of IN1 that have been read whole. -/
def Attn.blocks (a : Attn) (bs : Bytes) : List (List (List FVal) × List (List FVal)) :=
  (List.range (bs.length / a.blockBytes)).map (a.block bs)

/-- The row statistics after an iteration of ATTN_BLOCK_FWD, from Q, IN1 and what was carried in. -/
def fwdStats (c : Core) (k : CmdRun) (ops : List Nat) (qb kv : Bytes) : List RowStat :=
  let a := attnOf k.word ops
  let bl := a.blocks kv
  (valRows (cFmtA k.word) 128 a.d qb).zipIdx.map fun e =>
    a.fwdRowAll e.2 e.1 (statOf a.d (c.carried k e.2)) bl

/-- ATTN_BLOCK_FWD (R166, R209, R210). -/
def kAttnFwd (c : Core) (k : CmdRun) (ops : List Nat) : Kernel :=
  let w := k.word
  let a := attnOf w ops
  let lenQ := fmtBytes (cFmtA w) (128 * a.d)
  let lenKV := attnIn1 a (opnd ops 0)
  { ins := [(0, lenQ, false), (1, lenKV, false)],
    outs := if (rangeAt k).2 then
        [(3, roleBytes (cFmtOut w) (128 * a.d))] ++ (if cFlag w 33 then [(4, 512)] else [])
      else [],
    run := fun i r =>
      if (i 0).length < lenQ || (i 1).length < lenKV then []
      else
        let st := fwdStats c k ops (i 0) (i 1)
        if r = 3 then convElems (cFmtOut w) (fun _ => modeOf (cMode w) 0 0 0 0) (st.flatMap outRow)
        else unwords32 (st.map logSum) }

/-- What ATTN_BLOCK_BWD knows of a row: Q, dO, D and λ. -/
def bwdRows (c : Core) (k : CmdRun) (ops : List Nat) (in0 : Bytes) (lams : List W32) :
    List (List FVal × List FVal × W32 × W32) :=
  let a := attnOf k.word ops
  let fa := cFmtA k.word
  let part (j : Nat) : List (List FVal) := valRows fa 128 a.d (slice in0 (j * fmtBytes fa (128 * a.d)) (fmtBytes fa (128 * a.d)))
  let qs := part 0
  let ds := part 1
  let os := part 2
  (List.range 128).map fun i =>
    let q := (qs[i]?).getD []
    let gO := (ds[i]?).getD []
    let dd := match c.carried k i with
      | some (v :: _) => v
      | _ => rowD gO ((os[i]?).getD [])
    (q, gO, dd, (lams[i]?).getD fzero)

/-- dQ of every row after the iteration's blocks. -/
def bwdDq (c : Core) (k : CmdRun) (ops : List Nat) (rows : List (List FVal × List FVal × W32 × W32)) (kv : Bytes) :
    List (List W32) :=
  let a := attnOf k.word ops
  let bl := a.blocks kv
  rows.zipIdx.map fun r =>
    let dq0 := match c.carried k r.2 with
      | some (_ :: dq) => dq
      | _ => List.replicate a.d fzero
    bl.zipIdx.foldl (fun dq b =>
      a.addDq ((a.bwdRow r.2 b.2 r.1.1 r.1.2.1 r.1.2.2.2 r.1.2.2.1 b.1.1 b.1.2).map (·.2)) b.1.1 dq) dq0

/-- ATTN_BLOCK_BWD (R166, R211, R212): λ comes from IN2, or from the first pass, which leaves it in `aux`. -/
def kAttnBwd (c : Core) (k : CmdRun) (ops : List Nat) : Kernel :=
  let w := k.word
  let a := attnOf w ops
  let nb := opnd ops 0
  let lenQ := 3 * fmtBytes (cFmtA w) (128 * a.d)
  let lenKV := attnIn1 a nb
  let two := cFlag w 33
  { ins := [(0, lenQ, false), (1, lenKV, false)] ++ (if two then [] else [(2, 512, false)]),
    outs := [(4, nb * 2 * 256 * a.d * 4)] ++ (if (rangeAt k).2 then [(3, 128 * a.d * 4)] else []),
    run := fun i r =>
      let lams := if two then k.aux else words32 (i 2)
      if (i 0).length < lenQ || lams.length < 128 || (two && k.pos == 0) then []
      else
        let rows := bwdRows c k ops (i 0) lams
        if r = 3 then
          if (i 1).length < lenKV then [] else unwords32 (bwdDq c k ops rows (i 1)).flatten
        else
          (a.blocks (i 1)).zipIdx.flatMap fun b =>
            unwords32 (a.dKdV (rows.zipIdx.map fun r =>
              a.bwdRow r.2 b.2 r.1.1 r.1.2.1 r.1.2.2.2 r.1.2.2.1 b.1.1 b.1.2) (rows.map (·.1)) (rows.map (·.2.1))) }

/-- The rows that the iteration leaves in the carry store (R210). -/
def carryOut (c : Core) (k : CmdRun) (ops : List Nat) : List (List W32) :=
  let a := attnOf k.word ops
  let lenKV := attnIn1 a (opnd ops 0)
  if cOp k.word = 0x18 then
    (fwdStats c k ops (k.got 0 (fmtBytes (cFmtA k.word) (128 * a.d))) (k.got 1 lenKV)).map fun st =>
      st.1 :: st.2.1 :: st.2.2
  else
    let rows := bwdRows c k ops (k.got 0 (3 * fmtBytes (cFmtA k.word) (128 * a.d))) (words32 (k.got 2 512))
    (rows.zip (bwdDq c k ops rows (k.got 1 lenKV))).map fun e => e.1.2.2.1 :: e.2

/-- The iteration has ended, or its command has. -/
def State.iterOver (s : State) (n h : Nat) (k : CmdRun) : Bool :=
  match (s.ctx n h).cmd with
  | some k' => !(k'.open_ && k'.iter == k.iter)
  | none => true

/-- One step of an attention iteration: read, write, and at its end leave the rows for the next range iteration. -/
def State.attnStep (s : State) (n h : Nat) (kern : Core → CmdRun → List Nat → Kernel) (k : CmdRun) : State :=
  let ops := s.opsNow n h k
  let q := kern (s.core n) k ops
  let s := q.ins.foldl (fun (s : State) e => s.pull n h e.1 e.2.1 e.2.2 (e.2.1 + 1)) s
  match s.running n h with
  | none => s
  | some k =>
    let c := s.core n
    let q := kern c k ops
    if cOp k.word == 0x19 && cFlag k.word 33 && k.pos == 0 then
      -- TWO_PASS: the first pass forms λ, and IN1 is rewound once (R166, R211)
      let a := attnOf k.word ops
      let lenKV := attnIn1 a (opnd ops 0)
      let lenQ := fmtBytes (cFmtA k.word) (128 * a.d)
      if !k.full 1 lenKV then s.emptyStall n h (cRole k.word 1)
      else if !k.full 0 lenQ then s.emptyStall n h (cRole k.word 0)
      else
        let lams := (fwdStats c { k with iter := [], counts := [] } ops (k.got 0 lenQ) (k.got 1 lenKV)).map logSum
        let base := match s.roleRing n k.word 1 with | some g => g.ord - g.slotsFor lenKV | none => 0
        (s.modCmd n h fun k => { k with aux := lams, pos := 1, inBuf := SMap.put 1 [] k.inBuf }).rewind n h
          (cRole k.word 1) base
    else
      let keep := if (rangeAt k).2 || !q.read k then none else some (carryOut c k ops)
      let s := s.vecOut n h q
      match keep with
      | some rows =>
        if s.iterOver n h k then
          s.modCore n fun c => { c with carry := rows.zipIdx.map fun e => (e.2, e.1) }
        else s
      | none => s

def State.doAttnFwd (s : State) (n h : Nat) : State :=
  s.invoke n h 0x18 (fun _ _ _ => []) fun s k => s.attnStep n h kAttnFwd k
def State.doAttnBwd (s : State) (n h : Nat) : State :=
  s.invoke n h 0x19 (fun _ _ _ => []) fun s k => s.attnStep n h kAttnBwd k

end Sys2Proof.Machine
end

