-- ==== Sys2Proof/Machine/Intake.lean ====
section
/-! DEFINITION. Intake rings (R322 to R328): words held and free, bytes arriving, commit and void; request packets
(R329), their replies (R330), and where a client's context is found (R345, R346). -/

namespace Sys2Proof.Machine

/-- Ring r of die d. -/
def State.intake (s : State) (d r : Nat) : Intake := SMap.get {} s.intakes (d * 16 + r)
/-- Write ring r of die d. -/
def State.setIntake (s : State) (d r : Nat) (x : Intake) : State :=
  { s with intakes := SMap.putD {} (d * 16 + r) x s.intakes }
/-- The configuration word of a ring (R322). -/
def State.intakeCfg (s : State) (d r : Nat) : Nat := s.reg (0x5830 + d) r

/-- The fields of a word tag (R325). -/
def IntakeWord.last (w : IntakeWord) : Bool := bit w.tag 7
def IntakeWord.abort (w : IntakeWord) : Bool := bit w.tag 6
/-- The valid bytes of a word. -/
def IntakeWord.bytes (w : IntakeWord) : Bytes := w.data.take (8 * fld w.tag 3 0)

/-- A word of at most 64 bytes, padded with zeros, with its tag (R325). -/
def intakeWord (last : Bool) (bs : Bytes) : IntakeWord :=
  ⟨bs ++ List.replicate (64 - bs.length) 0#8, 128 * b2n last + ceilDiv bs.length 8⟩

/-- The word that ends a void packet (R325, R326). -/
def abortWord : IntakeWord := ⟨List.replicate 64 0#8, 0xC0⟩

/-- The words of a whole packet. -/
def packetWords : List Bytes → List IntakeWord
  | [] => []
  | [c] => [intakeWord true c]
  | c :: t => intakeWord false c :: packetWords t

/-- The words of the packet at the head of a ring, the words after them, and whether the packet has ended. -/
def cutPacket : List IntakeWord → List IntakeWord × List IntakeWord × Bool
  | [] => ([], [], false)
  | w :: t => if w.last then ([w], t, true) else let r := cutPacket t; (w :: r.1, r.2.1, r.2.2)

/-- The readable words of the packet being received. -/
def Intake.openWords (x : Intake) : List IntakeWord := (x.fifo.reverse.takeWhile fun w => !w.last).reverse

/-- The bytes of the packet being received that the ring still holds. -/
def Intake.openBytes (x : Intake) : Bytes := x.openWords.flatMap IntakeWord.bytes ++ x.cur

/-- Words held (R323): a word that is not full yet takes its place. -/
def Intake.words (x : Intake) : Nat := x.fifo.length + ceilDiv x.cur.length 64

/-- Depth of a ring in words (R322). -/
def intakeDepth (cfg : Nat) : Nat := 64 * (fld cfg 55 48 + 1)

/-- Free words of a ring (R323). -/
def State.intakeFree (s : State) (d r : Nat) : Nat := intakeDepth (s.intakeCfg d r) - (s.intake d r).words

/-- The granule of a ring's class: 8 B for control, 64 B for bulk (R324). -/
def granule (cfg : Nat) : Nat := if bit cfg 62 then 64 else 8

/-- The packet being received on ring r becomes void: it is counted, an `ABORT` word ends it, and its one record of KIND 3 is
posted, with what its header names where the header has arrived (R326, R330, R332). A packet that the reader has sparged
has its record already (R328). -/
def State.voidPacket (s : State) (d r : Nat) (st : Status) : State :=
  let cfg := s.intakeCfg d r
  let x := s.intake d r
  let s := s.bump 32 (0x8B10 + d) r 1
  if x.skip then s.setIntake d r { x with curVoid := true }
  else
    let bs := x.openBytes
    let hd := if 8 ≤ bs.length then leNat (sliceZ bs 0 8) else 0
    let s := s.setIntake d r { x with fifo := x.fifo ++ [abortWord], cur := [], curVoid := true }
    let s := if st.sticky then
        s.condition st (unitOrigin d) (detail1 (fld cfg 35 28) (fld cfg 27 25) 0xFFFF r)
      else s
    s.complete { kind := 3, status := st, part := fld cfg 35 28, client := fld cfg 27 25, ring := r,
                 hostTag := fld hd 55 40, core := fld hd 39 26, ctx := fld hd 25 24 }

/-- Bytes of an RDMA WRITE to the write port arrive: full words become readable, those of a sparged packet are dropped
(R323 to R326, R328). -/
def State.intakeBytes (s : State) (d r off : Nat) (bs : Bytes) : State :=
  let x := s.intake d r
  let cfg := s.intakeCfg d r
  if x.curVoid then s
  else if !x.skip && decide (64 * (intakeDepth cfg - x.fifo.length) < x.cur.length + bs.length) then s.voidPacket d r .busy
  else if off ≠ 0 ∨ bs.length % granule cfg ≠ 0 ∨ 4096 < x.got + bs.length then s.voidPacket d r .recipeInvalid
  else if x.skip then s.setIntake d r { x with got := x.got + bs.length }
  else
    let all := x.cur ++ bs
    let k := all.length / 64
    s.setIntake d r { x with fifo := x.fifo ++ (chunks 64 (all.take (64 * k))).map (intakeWord false),
                             cur := all.drop (64 * k), got := x.got + bs.length }

/-- The packet being received is closed as void (R326). -/
def State.intakeVoid (s : State) (d r : Nat) : State :=
  let s := if (s.intake d r).curVoid then s else s.voidPacket d r .recipeInvalid
  s.setIntake d r { s.intake d r with got := 0, curVoid := false, skip := false }

/-- The words of a ring once the packet being received is whole: its last word is padded and carries `LAST` (R325). -/
def Intake.closed (x : Intake) : List IntakeWord :=
  if x.cur.isEmpty then match x.fifo.reverse with
    | [] => []
    | w :: t => ({ w with tag := w.tag + 128 } :: t).reverse
  else x.fifo ++ [intakeWord true x.cur]

/-- A commit of a packet of `len` bytes (R323 to R326); of a sparged packet, it is only checked (R328). -/
def State.intakeCommit (s : State) (d r len : Nat) : State :=
  let x := s.intake d r
  if x.curVoid || decide (len = 0) || decide (len ≠ x.got) then s.intakeVoid d r
  else if x.skip then s.setIntake d r { x with got := 0, skip := false }
  else
    let s := s.setIntake d r { x with fifo := x.closed, cur := [], got := 0 }
    { s with events := s.events ++ [.sched (fld (s.intakeCfg d r) 35 28)] }

/-- A write of the commit doorbell (R323, R326). -/
def State.doorbell (s : State) (d r v : Nat) : State :=
  if fld v 63 56 = 1 ∧ fld v 55 13 = 0 then s.intakeCommit d r (fld v 12 0) else s.intakeVoid d r

/-! ### Requests (R329) -/

/-- TYPE of a packet. -/
def rqType (bs : Bytes) : Nat := fld (leNat (sliceZ bs 0 8)) 63 56
/-- HOST_TAG. -/
def rqTag (bs : Bytes) : Nat := fld (leNat (sliceZ bs 0 8)) 55 40
/-- CORE. -/
def rqCore (bs : Bytes) : Nat := fld (leNat (sliceZ bs 0 8)) 39 26
/-- CTX. -/
def rqCtx (bs : Bytes) : Nat := fld (leNat (sliceZ bs 0 8)) 25 24
/-- ARGS. -/
def rqArgs (bs : Bytes) : Nat := fld (leNat (sliceZ bs 0 8)) 23 0

/-- Bytes of a request before any padding to whole words of 8 B (R329); none for a reserved TYPE. -/
def rqBody (bs : Bytes) : Option Nat :=
  match rqType bs with
  | 1 => some 40
  | 2 | 3 | 5 => some 8
  | 4 => some (8 + 4 * fld (rqArgs bs) 17 11)
  | _ => none

/-- The unused fields of the header are zero, and the body's repeated fields agree (R329). -/
def rqFields (bs : Bytes) : Bool :=
  let a := rqArgs bs
  match rqType bs with
  | 1 => a == 0 && fld (leNat (sliceZ bs 8 32)) 31 18 == rqCore bs && fld (leNat (sliceZ bs 8 32)) 17 16 == rqCtx bs
  | 2 | 5 => a == 0
  | 3 => fld a 23 16 == 0
  | 4 => fld a 10 1 == 0 && decide (1 ≤ fld a 17 11) && decide (fld a 17 11 ≤ 64)
  | _ => false

/-- The packet is well formed for its ring's class (R324, R329). -/
def rqWellFormed (cfg : Nat) (bs : Bytes) : Bool :=
  match rqBody bs with
  | none => false
  | some n =>
    rqFields bs && decide (bs.length = ceilDiv n (granule cfg) * granule cfg) && (bs.drop n).all (· == 0#8)

/-- The statuses with which the reader sparges a packet of ring r of die d (R16, R329). A request for a fused-off die leaves
one audit record (R6): no other condition is looked for. -/
def State.rqRefusals (s : State) (d r : Nat) (bs : Bytes) : List Status :=
  let cfg := s.intakeCfg d r
  let n := rqCore bs
  if s.fused (n / 256) then [.engineAbsent]
  else conds [(n / 256 != d || !s.coreIn (fld cfg 35 28) n, .accessDenied),
         (!rqWellFormed cfg bs, .recipeInvalid)]

/-- The statuses with which the reader sparges a packet before its last word is readable (R325, R328, R329): what the words
readable so far decide. -/
def State.rqEarly (s : State) (d r : Nat) (bs : Bytes) : List Status :=
  let cfg := s.intakeCfg d r
  let n := rqCore bs
  let bad := match rqBody bs with
    | none => true
    | some k => !rqFields bs || decide (ceilDiv k (granule cfg) * granule cfg < bs.length)
  if s.fused (n / 256) then [.engineAbsent]
  else conds [(n / 256 != d || !s.coreIn (fld cfg 35 28) n, .accessDenied), (bad, .recipeInvalid)]

/-- The runnable work of partition p may have changed: its scheduler looks again (R347). -/
def State.stir (s : State) (p : Nat) : State := { s with events := s.events ++ [.sched p] }

/-- Free the words of the packet at the head of a ring; of one that is still being received, the rest will be dropped as
it arrives (R328). -/
def State.intakePop (s : State) (d r : Nat) : State :=
  let x := s.intake d r
  let c := cutPacket x.fifo
  let y := if c.2.2 then { x with fifo := c.2.1, busy := false }
    else { x with fifo := [], cur := [], skip := true, busy := false }
  (s.setIntake d r y).stir (fld (s.intakeCfg d r) 35 28)

/-- The reply to the request at the head of a ring: its one KIND 1 record; the packet is consumed (R330, R332). -/
def State.reply (s : State) (d r : Nat) (tag n h : Nat) (st : Status) : State :=
  let cfg := s.intakeCfg d r
  (s.intakePop d r).complete { kind := 1, status := st, part := fld cfg 35 28, client := fld cfg 27 25, core := n,
                               ctx := h, hostTag := tag, ring := r }

/-- A condition that a request draws: its audit record and sticky bit, when it has one (R6, R373). -/
def State.rqCondition (s : State) (d r n : Nat) (st : Status) : State :=
  let cfg := s.intakeCfg d r
  if st.sticky then s.condition st (unitOrigin d) (detail1 (fld cfg 35 28) (fld cfg 27 25) n 0) else s

/-- The reply to a request that is refused. -/
def State.refuse (s : State) (d r : Nat) (bs : Bytes) (st : Status) : State :=
  (s.rqCondition d r (rqCore bs) st).reply d r (rqTag bs) (rqCore bs) (rqCtx bs) st

/-- The reader sparges the packet at the head of its ring (R328, R329). -/
def State.sparge (s : State) (d r : Nat) (bs : Bytes) (sts : List Status) : State :=
  let s := (sts.foldl (fun s st => s.rqCondition d r (rqCore bs) st) s).bump 32 (0x8B50 + d) r 1
  s.reply d r (rqTag bs) (rqCore bs) (rqCtx bs) (lowest sts)

/-- What the reader of a ring meets. -/
inductive Heads where
  | none                          -- nothing readable, or the reader is stalled
  | bad (data : Bytes) (sts : List Status)
  | good (data : Bytes)
  deriving DecidableEq, Repr

/-- The reader that meets `ABORT` discards the words of that packet; fuel is the number of words (R326). -/
def dropVoid : Nat → List IntakeWord → List IntakeWord
  | 0, l => l
  | fuel + 1, l =>
    let c := cutPacket l
    if c.2.2 && c.1.any IntakeWord.abort then dropVoid fuel c.2.1 else l

/-- The words of a ring from its first packet that is not void. -/
def Intake.heads (x : Intake) : List IntakeWord := dropVoid x.fifo.length x.fifo

/-- The reader looks at its ring: void packets are discarded; the head packet is judged, before its last word is readable
by the words that are. A full backlog of 64 stalls
the readers of a client (R333); an invalid ring has no reader, and a quiescing device no intake (R415). -/
def State.heads (s : State) (d r : Nat) : State × Heads :=
  let cfg := s.intakeCfg d r
  let x := s.intake d r
  if !bit cfg 63 || x.busy || s.quiescing || decide (64 ≤ (s.post (fld cfg 35 28) (fld cfg 27 25)).waiting) then
    (s, .none)
  else
    let s := s.setIntake d r { x with fifo := x.heads }
    let c := cutPacket x.heads
    let bs := c.1.flatMap IntakeWord.bytes
    if c.1.isEmpty then (s, .none)
    else match if c.2.2 then s.rqRefusals d r bs else s.rqEarly d r bs with
      | [] => (s, if c.2.2 then .good bs else .none)
      | sts => (s, .bad bs sts)

/-- An intake row: the reader of ring r of die d meets its next packet, sparges a bad one, and executes one of the
given TYPE; a packet of another TYPE is left to its own row. -/
def State.reader (s : State) (d r ty : Nat) (f : State → Bytes → State) : State :=
  match s.heads d r with
  | (s, .none) => s
  | (s, .bad bs sts) => s.sparge d r bs sts
  | (s, .good bs) => if rqType bs = ty then f s bs else s

/-! ### A client's contexts (R345, R346) -/

/-- Partition of a ring. -/
def State.ringPart (s : State) (d r : Nat) : Nat := fld (s.intakeCfg d r) 35 28
/-- Client of a ring. -/
def State.ringClient (s : State) (d r : Nat) : Nat := fld (s.intakeCfg d r) 27 25
/-- The resident client of a partition; 0xFF when none (R346). -/
def State.resident (s : State) (p : Nat) : Nat := s.reg (0x4000 + p) 3

/-- The scheduler state of a partition. -/
def State.part (s : State) (p : Nat) : Part := SMap.get {} s.parts p
/-- Write it. -/
def State.setPart (s : State) (p : Nat) (x : Part) : State := { s with parts := SMap.putD {} p x s.parts }

/-- A LOAD or START of client c of partition p is not held: the client is resident and no switch is in progress (R346,
R348). -/
def State.answers (s : State) (p c : Nat) : Bool := s.resident p == c && (s.part p).switch.isNone

/-- A kiln slice or a retirement holds core n (R351, R362). -/
def State.coreHeld (s : State) (n : Nat) : Bool := (s.core n).kiln || (s.core n).maint || (s.core n).retire.isSome

/-- A LOAD or START for context (n, h) of a client that is served takes effect now: neither a kiln slice nor a retirement
holds the core, and the context is not saved. Until then one that passes its checks waits (log entry 43). -/
def State.serves (s : State) (p c n h : Nat) : Bool :=
  s.answers p c && !s.coreHeld n && (s.savedOf n h p c).isNone

/-- Context (n, h) of client c of partition p, resident or saved: EMPTY where it has none. -/
def State.ctxOf (s : State) (n h p c : Nat) : Ctx :=
  match s.savedOf n h p c with
  | some v => v.st
  | none => if s.resident p = c then s.ctx n h else {}

/-- Write that context. -/
def State.setCtxOf (s : State) (n h p c : Nat) (x : Ctx) : State :=
  match s.savedOf n h p c with
  | some _ => { s with saved := s.saved.map fun v =>
      if v.core == n && v.ctx == h && v.part == p && v.client == c then { v with st := x } else v }
  | none => s.setCtx n h x

/-- PATCH of parameter registers (R137): none when the request is accepted and written. -/
def Ctx.patch (x : Ctx) (first : Nat) (ws : List W32) : Ctx :=
  (ws.zip (List.range ws.length)).foldl (fun (x : Ctx) p => x.setParam (first + p.2) p.1.toNat) x

/-- The state of a context once unloaded. -/
def State.unloadCtx (s : State) (n h p c : Nat) : State :=
  match s.savedOf n h p c with
  | some _ => s.dropSaved n h p c
  | none => s.vacateCtx n h

/-- Abort the run of a saved context (R115, R116, R290): its streams end, a suspended drain is named in a fault
record, and the run ends. -/
def State.abortSaved (s : State) (v : Saved) : State :=
  let s := v.streams.foldl (fun (s : State) (e : Nat × Stream) =>
    if bit e.2.desc 14 && e.2.fault.isSome then
      s.postFault { kind := 1, status := .aborted, tag := v.st.lastTag, index := v.st.lastIdx, part := v.part,
                    client := v.client, core := v.core, ctx := v.ctx,
                    stream := some (e.1, e.2.ring, match SMap.find? e.2.ring v.rings with | some r => r.head | none => 0),
                    va := match e.2.fault with | some f => f.va | none => 0 }
    else s) s
  let r := s.runEnds v.core v.ctx v.st .aborted
  { r.1 with saved := r.1.saved.map fun w =>
      if w.core == v.core && w.ctx == v.ctx && w.part == v.part && w.client == v.client then
        { w with st := r.2, streams := [], rings := [], bytes := [], poison := [], carry := [] }
      else w }

/-- The reply to an abort that names run count k, given the context (R140, R290). -/
def abortReply (x : Ctx) (k : Nat) : Status :=
  match x.state with
  | .empty | .loading | .ready => .accessDenied
  | _ =>
    let d := (k + 65536 - x.run % 65536) % 65536
    if 1 ≤ d ∧ d < 0x8000 then .accessDenied
    else if 0x8000 ≤ d then .alreadyComplete
    else if x.state.inRun then .aborted else .alreadyComplete

/-- ABORT (R140, R290, R291): the KIND 0 record precedes the reply (R330). -/
def State.doAbort (s : State) (d r : Nat) : State :=
  s.reader d r 3 fun s bs =>
    let n := rqCore bs
    let h := rqCtx bs
    let p := s.ringPart d r
    let c := s.ringClient d r
    if !s.presented n then s.refuse d r bs .unitRetired
    else
      let x := s.ctxOf n h p c
      match abortReply x (fld (rqArgs bs) 15 0) with
      | .aborted =>
        let s := match s.savedOf n h p c with
          | some v => s.abortSaved v
          | none => s.endRun n h .aborted
        s.reply d r (rqTag bs) n h .aborted
      | st => s.refuse d r bs st

/-- UNLOAD (R139, R346). -/
def State.doUnload (s : State) (d r : Nat) : State :=
  s.reader d r 5 fun s bs =>
    let n := rqCore bs
    let h := rqCtx bs
    let p := s.ringPart d r
    let c := s.ringClient d r
    if !s.presented n then s.refuse d r bs .unitRetired
    else match (s.ctxOf n h p c).state with
      | .empty => s.reply d r (rqTag bs) n h .ok
      | .ready | .done => (s.unloadCtx n h p c).reply d r (rqTag bs) n h .ok
      | _ => s.refuse d r bs .busy

/-- START (R139, R140, R346): held in its reader while its client is not resident. A context that is neither READY nor
DONE, a PREEMPTED one of the resident client among them, is refused with ST_BUSY. -/
def State.doStart (s : State) (d r : Nat) : State :=
  s.reader d r 2 fun s bs =>
    let n := rqCore bs
    let h := rqCtx bs
    let p := s.ringPart d r
    let c := s.ringClient d r
    let st := (s.ctxOf n h p c).state
    if !s.presented n then s.refuse d r bs .unitRetired
    else if !s.answers p c then s
    else if st != .ready && st != .done then s.refuse d r bs .busy
    else if !s.serves p c n h then s
    else match s.startRun n h with
      | (s, .ok) => s.reply d r (rqTag bs) n h .ok
      | (s, st) => s.refuse d r bs st

/-- The header of a START that carries the host tag and context of another request: what remains of a PATCH with
START once its patch is applied (R346). -/
def asStart (bs : Bytes) : Bytes :=
  natLe 8 (setFld (setFld (leNat (sliceZ bs 0 8)) 23 0 0) 63 56 2)

/-- PATCH (R137, R329, R346): the patch acts at once; with `START` = 1 a start follows, held as a START while its
client is not resident; the scheduler learns of that work (R347). -/
def State.doPatch (s : State) (d r : Nat) : State :=
  s.reader d r 4 fun s bs =>
    let n := rqCore bs
    let h := rqCtx bs
    let p := s.ringPart d r
    let c := s.ringClient d r
    let a := rqArgs bs
    let x := s.ctxOf n h p c
    if !s.presented n then s.refuse d r bs .unitRetired
    else if 64 < fld a 23 18 + fld a 17 11 then s.refuse d r bs .accessDenied
    else if x.state != .ready && x.state != .done then s.refuse d r bs .busy
    else
      let ws := words32 (sliceZ bs 8 (4 * fld a 17 11))
      let s := s.setCtxOf n h p c (x.patch (fld a 23 18) ws)
      if !bit a 0 then s.reply d r (rqTag bs) n h .ok
      else if s.serves p c n h then
        match s.startRun n h with
        | (s, .ok) => s.reply d r (rqTag bs) n h .ok
        | (s, st) => s.refuse d r bs st
      else
        let y := s.intake d r
        let q := intakeWord true (padTo (granule (s.intakeCfg d r)) (asStart bs))
        (s.setIntake d r { y with fifo := q :: (cutPacket y.fifo).2.1 }).stir p

end Sys2Proof.Machine
end

