-- ==== Sys2Proof/Machine/Lanes.lean ====
section
/-! DEFINITION. The line coding of one lane (R296): scrambler, RS(544,514) code, parity code and lane marker. The rows of
the table begin where this ends: a flit arrives decoded, with the word whether it touched a marked codeword, and
LANE_FAIL carries the decoder's counts (log entry 55). -/

namespace Sys2Proof.Machine

/-- One step of the self-synchronous scrambler x^58 + x^39 + 1: bit i of the state was sent i + 1 bits ago. -/
def scrambleBit (st : BitVec 58) (b : Bool) : BitVec 58 × Bool :=
  let o := xor b (xor (st.getLsbD 38) (st.getLsbD 57))
  ((st <<< 1) ||| (if o then 1 else 0), o)

/-- Scramble a run of bits. -/
def scramble : BitVec 58 → List Bool → List Bool
  | _, [] => []
  | st, b :: t => let r := scrambleBit st b; r.2 :: scramble r.1 t

/-- Descramble a run of bits: the state holds the bits received. -/
def descramble : BitVec 58 → List Bool → List Bool
  | _, [] => []
  | st, b :: t =>
    xor b (xor (st.getLsbD 38) (st.getLsbD 57)) :: descramble ((st <<< 1) ||| (if b then 1 else 0)) t

/-! ### RS(544,514) over GF(2^10) -/

/-- Multiplication by x in GF(2^10) with the field polynomial x^10 + x^3 + 1 of IEEE 802.3 Clause 91. PRESUMED (log entry
55). -/
def gfTimesX (a : BitVec 10) : BitVec 10 := (a <<< 1) ^^^ (if a.getLsbD 9 then 0x009#10 else 0)

/-- The product in GF(2^10), bit by bit of the second factor. -/
def gfMulFrom (a b : BitVec 10) : Nat → BitVec 10
  | 0 => 0
  | k + 1 => gfTimesX (gfMulFrom a b k) ^^^ (if b.getMsbD k then a else 0)

/-- The product in GF(2^10). -/
def gfMul (a b : BitVec 10) : BitVec 10 := gfMulFrom a b 10

/-- The power x^k. -/
def gfPow : Nat → BitVec 10
  | 0 => 1
  | k + 1 => gfTimesX (gfPow k)

/-- A polynomial, highest coefficient first, times (z − x^k). -/
def rsTimes (g : List (BitVec 10)) (k : Nat) : List (BitVec 10) :=
  List.zipWith (· ^^^ ·) (g ++ [0]) (0 :: g.map (gfMul (gfPow k)))

/-- The generator polynomial: the product of (z − x^k) for k from 0 to n − 1, highest coefficient first. PRESUMED: its roots
are those of IEEE 802.3 Clause 91 (log entry 55). -/
def rsGenerator : Nat → List (BitVec 10)
  | 0 => [1]
  | n + 1 => rsTimes (rsGenerator n) n

/-- One step of the division by the generator polynomial, whose leading 1 is left out of `g`. -/
def rsStep (g : List (BitVec 10)) (rem : List (BitVec 10)) (m : BitVec 10) : List (BitVec 10) :=
  let f := m ^^^ rem.headD 0
  List.zipWith (· ^^^ ·) (rem.drop 1 ++ [0]) (g.map (gfMul f))

/-- The 30 check symbols of 514 message symbols, first symbol first. -/
def rsParity (msg : List (BitVec 10)) : List (BitVec 10) :=
  msg.foldl (rsStep ((rsGenerator 30).drop 1)) (List.replicate 30 0)

/-- A codeword: the message symbols, then the check symbols. -/
def rsCodeword (msg : List (BitVec 10)) : List (BitVec 10) := msg ++ rsParity msg

/-- A symbol as bits, least significant first. PRESUMED (log entry 55). -/
def symBits (v : BitVec 10) : List Bool := (List.range 10).map v.getLsbD

/-- Bits as symbols. -/
def bitSyms (n : Nat) (bs : List Bool) : List (BitVec 10) :=
  (List.range n).map fun i => ((bs.drop (10 * i)).take 10).foldr (fun b v => (v <<< 1) ||| (if b then 1 else 0)) 0

/-! ### Parity and marker -/

/-- The parity of a run of bits. -/
def oddParity (bs : List Bool) : Bool := bs.foldl xor false

/-- One even-parity bit after each 127 bits of the coded stream; fuel bounds the blocks. -/
def addParity : Nat → List Bool → List Bool
  | 0, _ => []
  | k + 1, bs => if bs.isEmpty then [] else bs.take 127 ++ [oddParity (bs.take 127)] ++ addParity k (bs.drop 127)

/-- What the receiver makes of a 128-bit block: in one of odd parity it inverts the least reliable bit. -/
def fixParity (block : List Bool) (weakest : Nat) : List Bool :=
  if oddParity block then block.mapIdx fun i b => if i = weakest then !b else b else block

/-- The 64-bit marker of a lane, unscrambled and uncoded, once per 16,384 codewords: its low 8 bits hold the wavelength. -/
def laneMarker (wave : Nat) : Nat := 0x9D2E4B71C058A3 * 256 + wave % 256

/-- Codewords between two markers. -/
def markerInterval : Nat := 16384

/-- A run of 5,140 scrambled bits as a lane sends it. -/
def laneCodeword (scrambled : List Bool) : List Bool := (rsCodeword (bitSyms 514 scrambled)).flatMap symBits

end Sys2Proof.Machine
end

