-- ==== Sys2Proof/Machine/Dma.lean ====
section
/-! DEFINITION. Access of the die controllers to a client's virtual addresses outside any stream: recipe images (R126),
page tables, descriptors and pages (R214 to R227). Each access walks the client's tables; local memory answers at once,
another device and host memory later. -/

namespace Sys2Proof.Machine

/-- Where a die controller may read or write for a client of partition p (R69, R80, R85, R268, R271, R334). -/
def State.dmaCheck (s : State) (p a len : Nat) (write : Bool) : Option Status :=
  match s.popStatus a len with
  | some st => some st
  | none =>
    match place a with
    | .tun d off => if s.segsOwned p d off len then none else some .accessDenied
    | .sp m off =>
      if s.coreIn p m && !(s.core m).leaseRefuses off len write then none else some .accessDenied
    | .arrival .. | .doorbell _ => some .accessDenied
    | .aperture _ _ =>
      match s.apertureSeg a with
      | some (_, w, off) =>
        if fld w 21 14 = p ∧ bit w (if write then 13 else 12) ∧ off + len ≤ 0x40000000 then none else some .accessDenied
      | none => some .accessDenied
    | _ => if write && s.guarded .engine a len then some .accessDenied else none

/-- What an access gives. -/
inductive Piece where
  | got (data : Bytes)     -- done: the bytes read, none for a write
  | sent                   -- the answer comes later
  | wait                   -- no transaction number is free (R107), or local memory accepts no request now (R263, R265, R381)
  | bad (st : Status)
  deriving DecidableEq, Repr

/-- The global address of a client's virtual address for a device access; a fault or stop gives its status. -/
def State.vaWalk (s : State) (p c va : Nat) (write : Bool) : State × (Status ⊕ Nat) :=
  match s.walk p c va with
  | (s, .inl (.stop st)) => (s, .inl st)
  | (s, .inl _) => (s, .inl .translationFault)
  | (s, .inr (leaf, big)) =>
    if bit leaf 4 then (s, .inl .accessDenied)
    else if write && !bit leaf 3 then (s, .inl .translationFault)
    else (s, .inr (leafAddr leaf big va))

/-- Read `len` bytes, within one 4 KiB block, for client c of partition p. -/
def State.vaRead (s : State) (p c va len : Nat) (who : Asker) (why : Purpose) : State × Piece :=
  match s.vaWalk p c va false with
  | (s, .inl st) => (s, .bad st)
  | (s, .inr g) =>
    let a := locOf g
    if devOf g ≠ s.ownId then
      match s.issue { op := 2, dest := devOf g, src := 0, hops := 0, addr := a, len := len } who with
      | (s, .sent ..) => (s, .sent)
      | (s, .wait) => (s, .wait)
      | (s, .refused st) => (s, .bad st)
    else match s.dmaCheck p a len false with
      | some st => (s, .bad st)
      | none =>
        match s.apertureSeg a with
        | some (port, w, o) =>
          if s.qpState port (fld w 31 22) = 1 then
            (s.qpSend port (fld w 31 22) true ((fld w 127 64 + o) % 2 ^ 64) (fld w 63 32) len [] why, .sent)
          else (s, .bad .remoteUnreachable)
        | none =>
          if s.accessWaits a len then (s, .wait)
          else match s.readMem a len with
            | (s, .ok, bs) => (s, .got bs)
            | (s, st, _) => (s, .bad st)

/-- Write bytes, within one 4 KiB block, for client c of partition p. -/
def State.vaWrite (s : State) (p c va : Nat) (bs : Bytes) (who : Asker) (why : Purpose) : State × Piece :=
  match s.vaWalk p c va true with
  | (s, .inl st) => (s, .bad st)
  | (s, .inr g) =>
    let a := locOf g
    if devOf g ≠ s.ownId then
      match s.issue { op := 1, dest := devOf g, src := 0, hops := 0, addr := a, len := bs.length, data := bs } who with
      | (s, .sent ..) => (s, .sent)
      | (s, .wait) => (s, .wait)
      | (s, .refused st) => (s, .bad st)
    else match s.dmaCheck p a bs.length true with
      | some st => (s, .bad st)
      | none =>
        match s.apertureSeg a with
        | some (port, w, _) =>
          if s.qpState port (fld w 31 22) = 1 then (s.postWrite a bs why, .sent) else (s, .bad .remoteUnreachable)
        | none =>
          if s.accessWaits a bs.length then (s, .wait)
          else match s.writeMem a bs with
            | (s, .ok) => (s, .got [])
            | (s, st) => (s, .bad st)

/-- The pieces of a range: none crosses an aligned 4 KiB block of virtual addresses. -/
def piecesOf (va : Nat) : Nat → Nat → Nat → List (Nat × Nat)
  | 0, _, _ => []
  | fuel + 1, off, rest =>
    if rest = 0 then []
    else
      let k := min rest (4096 - (va + off) % 4096)
      (off, k) :: piecesOf va fuel (off + k) (rest - k)

end Sys2Proof.Machine
end

