-- ==== Sys2Proof/Machine/Load.lean ====
section
/-! DEFINITION. Recipe load (R125, R126, R147): the steps of a load, the DMA of the image, validation, set-up, and the
reply to the request. -/

namespace Sys2Proof.Machine

/-- Write the load in progress of a context. -/
def State.setLoad (s : State) (n h : Nat) (l : LoadReq) : State := s.modCtx n h fun x => { x with load := some l }

/-- A piece of the image has failed. -/
def LoadReq.fail (l : LoadReq) (st : Status) : LoadReq := { l with bad := some (l.bad.getD st) }

/-- A piece of the image has failed: an uncorrectable word also posts a KIND 2 fault record (R74, R148). -/
def State.dmaFail (s : State) (n h off : Nat) (l : LoadReq) (st : Status) : State :=
  if st == .eccUncorrectable then s.postBadWord n h (l.srcVa + off) none else s

/-- Request one piece of an image (R126): local memory answers at once, host memory and another device later. The
Bool says that the piece was requested. -/
def State.dmaPiece (s : State) (n h : Nat) (l : LoadReq) (off len : Nat) : State × LoadReq × Bool :=
  let x := s.ctx n h
  match s.vaRead x.part x.client (l.srcVa + off) len (.dma n h off) (.dma n h off) with
  | (s, .got bs) => (s, { l with got := SMap.put off bs l.got }, true)
  | (s, .sent) => (s, { l with out := off :: l.out }, true)
  | (s, .wait) => (s, l, false)
  | (s, .bad st) => (s.dmaFail n h off l st, l.fail st, true)

/-- Request the pieces that are due, until one has to wait. -/
def State.dmaPieces (s : State) (n h : Nat) (l : LoadReq) : List (Nat × Nat) → State × LoadReq
  | [] => (s, { l with due := [] })
  | (off, len) :: t =>
    match s.dmaPiece n h l off len with
    | (s, l, true) => if l.bad.isSome then (s, { l with due := [] }) else s.dmaPieces n h l t
    | (s, l, false) => (s, { l with due := (off, len) :: t })

/-- Begin to fetch [off, off + len) of the image. -/
def State.dmaStart (s : State) (n h off len : Nat) : State :=
  match (s.ctx n h).load with
  | some l =>
    match s.dmaPieces n h l (piecesOf l.srcVa 16 off len) with
    | (s, l) => s.setLoad n h l
  | none => s

/-- Data of an outstanding piece arrives, or its failure. -/
def State.dmaGot (s : State) (n h off : Nat) (st : Status) (data : Bytes) : State :=
  match (s.ctx n h).load with
  | some l =>
    if l.out.contains off then
      let s := s.dmaFail n h off l st
      let l := { l with out := l.out.erase off }
      s.setLoad n h (if st == .ok then { l with got := SMap.put off data l.got } else l.fail st)
    else s
  | none => s

/-- The fetch has ended: every piece has arrived, or one has failed and none is outstanding. -/
def LoadReq.ended (l : LoadReq) : Bool := l.due.isEmpty && l.out.isEmpty

/-- The bytes fetched from offset `off` on, in order. -/
def LoadReq.bytesFrom (l : LoadReq) (off : Nat) : Bytes := (l.got.filter fun e => decide (off ≤ e.1)).flatMap (·.2)

/-- The load ends with a failure after step 1: the context is left EMPTY, and the reply carries the lowest status
(R16, R126). -/
def State.loadFails (s : State) (n h : Nat) (l : LoadReq) (sts : List Status) : State :=
  let s := sts.eraseDups.foldl (fun s st => s.report st n h 0) s
  (s.vacateCtx n h).reply l.dieRing.1 l.dieRing.2 l.hostTag n h (lowest sts)

/-- The conditions of step 1 (R126), for a core that R329 has found on the ring's die and in its partition, and the state
`st` of the target context. R125 wants `SRC_VA` 32 B aligned and names no status for one that is not: it counts here as a
request that is not well formed (DESIGN CHOICE, log entry 63). -/
def State.loadRefusals (s : State) (n : Nat) (st : CtxState) (rq : Nat) : List Status :=
  conds [(!s.presented n, .unitRetired),
         (fld rq 255 208 != 0 || fld rq 159 32 != 0 || fld rq 5 1 != 0 || fld rq 207 160 % 32 != 0, .recipeInvalid),
         (!(st == .empty || st == .ready || st == .done), .busy)]

/-- LOAD_REQUEST (R125, R126 steps 1 and 2): held in its reader while its client is not resident (R346). -/
def State.doLoadRequest (s : State) (d r : Nat) : State :=
  s.reader d r 1 fun s bs =>
    let n := rqCore bs
    let h := rqCtx bs
    let p := s.ringPart d r
    let c := s.ringClient d r
    let rq := leNat (sliceZ bs 8 32)
    if !s.answers p c then s
    else match s.loadRefusals n (s.ctxOf n h p c).state rq with
      | [] =>
        if !s.serves p c n h then s else
        let l : LoadReq := { srcVa := fld rq 207 160, region := fld rq 15 6, start := bit rq 0, dieRing := (d, r),
                             hostTag := rqTag bs }
        let s := s.setIntake d r { s.intake d r with busy := true }
        (s.setCtx n h { state := .loading, part := p, client := c, load := some l,
                         haltReq := (s.ctx n h).haltReq }).dmaStart n h 0 32
      | sts =>
        let s := sts.foldl (fun s st => s.rqCondition d r n st) s
        s.reply d r (rqTag bs) n h (lowest sts)

/-- Step 3 of R126: the header is checked. -/
def State.headerRefusals (s : State) (n h hd base : Nat) : List Status :=
  conds [(!headerOk hd base, .recipeInvalid),
         (!(s.core n).runFree h base (hCount hd) (hProgBase hd) (hProgWords hd), .busy)]

/-- RECIPE_HEADER_FETCHED (R126 steps 2 and 3): the header has come; the rest of the image is fetched. -/
def State.doHeader (s : State) (n h : Nat) : State :=
  match (s.ctx n h).load with
  | none => s
  | some l =>
    if l.header.isSome then s
    else if !l.ended then
      match s.dmaPieces n h l l.due with
      | (s, l) => s.setLoad n h l
    else match l.bad with
      | some st => s.loadFails n h l [st]
      | none =>
        let hd := leNat (l.bytesFrom 0)
        match s.headerRefusals n h hd l.region with
        | [] =>
          let s := s.modCtx n h fun x => { x with base := l.region, count := hCount hd, progBase := hProgBase hd,
                                                  progWords := hProgWords hd, first := hFirst hd }
          (s.setLoad n h { l with header := some hd }).dmaStart n h 32 (32 * (hCount hd - 1))
        | sts => s.loadFails n h l sts

/-- Apply one arm record (R147). -/
def State.arm (s : State) (p r : Nat) : State :=
  if !bit r 31 then s
  else
    let d := fld r 29 24
    let b := fld r 23 16
    match (s.barrier d b).owner with
    | none => s.setBarrier d b { owner := some p, expect := fld r 15 0 }
    | some _ => s

/-- The arm records that refuse the load at step 6: an object armed with another EXPECT, by this partition or by an
earlier record (R147). -/
def State.armClash (s : State) (p : Nat) : List Nat → Bool
  | [] => false
  | r :: t =>
    let b := s.barrier (fld r 29 24) (fld r 23 16)
    (bit r 31 && b.owner.isSome && b.expect != fld r 15 0) || (s.arm p r).armClash p t

/-- Copy the image to the region and its grist words to program memory (R122, R126 step 6). -/
def Core.install (c : Core) (base progBase : Nat) (img : List Nat) : Core :=
  let words := (List.range (hProgWords (imgEntry img 0))).map (imgGrist img)
  { c with
    recipe := (img.zip (List.range img.length)).foldl
      (fun m (e : Nat × Nat) => SMap.putD 0#256 (base + e.2) (BitVec.ofNat 256 e.1) m) c.recipe,
    prog := (words.zip (List.range words.length)).foldl
      (fun m (e : Nat × Nat) => SMap.putD 0#32 (progBase + e.2) (BitVec.ofNat 32 e.1) m) c.prog }

/-- IMAGE_CRC matches entries 1 to ENTRY_COUNT − 1 (R123, R126 step 4). -/
def imageCrc (hd : Nat) (rest : Bytes) : Bool := (crc32c rest).toNat == fld hd 255 224

/-- Steps 6 and 7 of R126: install, arm, clear, latch, READY, and the start that the request asks for. A run that starts
while a switch, a kiln slice or a retirement is waiting for the context is pre-empted before its first command (R348). -/
def State.loadDone (s : State) (n h : Nat) (l : LoadReq) (img : List Nat) : State :=
  let x := s.ctx n h
  let s := s.modCore n fun c => c.install x.base x.progBase img
  let s := (armRecords img).foldl (fun s r => s.arm x.part r) s
  let s := s.setCtx n h { x with state := .ready, params := [], run := 0, status := 0, load := none,
                                 seed := s.reg (0x9100 + x.part) x.client }
  let r := if l.start then s.startRun n h else (s, .ok)
  let leaving := (r.1.part x.part).switch.isSome || r.1.coreHeld n
  let r := if leaving && (r.1.ctx n h).state == .running then (r.1.modCtx n h fun x => { x with preempt := true }, r.2) else r
  let s := if r.2.sticky then r.1.report r.2 n h 0 else r.1
  s.reply l.dieRing.1 l.dieRing.2 l.hostTag n h r.2

/-- RECIPE_IMAGE_FETCHED (R126 steps 4 to 7, R127, R147, R189). -/
def State.doImage (s : State) (n h : Nat) : State :=
  match (s.ctx n h).load with
  | none => s
  | some l =>
    match l.header with
    | none => s
    | some hd =>
      if !l.ended then
        match s.dmaPieces n h l l.due with
        | (s, l) => s.setLoad n h l
      else match l.bad with
        | some st => s.loadFails n h l [st]
        | none =>
          let x := s.ctx n h
          let rest := l.bytesFrom 32
          let img := hd :: (chunks 32 rest).map leNat
          if !imageCrc hd rest then s.loadFails n h l [.sealFail]
          else match s.validate x.part x.client h l.region img with
            | [] => if s.armClash x.part (armRecords img) then s.loadFails n h l [.recipeInvalid] else s.loadDone n h l img
            | sts => s.loadFails n h l sts

end Sys2Proof.Machine
end

