-- ==== Sys2Proof/Machine/Control.lean ====
section
/-! DEFINITION. The commands without ring roles: BARRIER and WAIT (R182), FILL and COPY (R81, R183), PATCH (R184); the
end of a command (R135), the step gate of a gated update (R176, R202), and the moments at which a pre-emption is taken
(R142, R145). -/

namespace Sys2Proof.Machine

/-! ### BARRIER and WAIT (R182, R117 to R119) -/

/-- Die and object that IMM32 names. -/
def barDie (w : Nat) : Nat := fld (cImm w) 29 24
/-- Die and object that IMM32 names. -/
def barObj (w : Nat) : Nat := fld (cImm w) 23 16

/-- The checks of R117 at command start. -/
def State.cmdBarRefusal (s : State) (p w : Nat) : Option Status :=
  firstFail [(s.fused (barDie w), .engineAbsent),
             ((s.barrier (barDie w) (barObj w)).owner != some p, .accessDenied)]

/-- The command leaves its last iteration and frees the core for the other contexts. -/
def State.syncDone (s : State) (n h : Nat) : State :=
  (((s.modCtx n h fun x => { x with state := .running }).acquire n h).modCmd n h fun k =>
    { k with phase := .last, open_ := false })

/-- BARRIER and WAIT once started: the arrival of BARRIER has release semantics, since every earlier write of the
context is acknowledged (R135); then the wait (R119). -/
def State.syncStep (s : State) (n h : Nat) (k : CmdRun) : State :=
  let w := k.word
  let p := (s.ctx n h).part
  match s.cmdBarRefusal p w with
  | some st => s.failCommand n h st
  | none =>
    let s := if cOp w = 0x48 then s.arriveAt (barDie w) (barObj w) else s
    if cOp w = 0x48 ∧ cFlag w 32 then s.modCmd n h fun k => { k with phase := .last, open_ := false }
    else if (s.barrier (barDie w) (barObj w)).reached (opnd (s.opsNow n h k) 0 % 65536) then s.syncDone n h
    else
      ((s.modCtx n h fun x => { x with state := .waiting }).modCore n fun c => c.letGo h).stall n 0x8380

def State.doBarrier (s : State) (n h : Nat) : State :=
  if (s.ctx n h).state == .waiting then s.stall n 0x8380
  else s.invoke n h 0x48 (fun _ _ _ => []) fun s k => s.syncStep n h k
def State.doWaitCmd (s : State) (n h : Nat) : State :=
  if (s.ctx n h).state == .waiting then s.stall n 0x8380
  else s.invoke n h 0x49 (fun _ _ _ => []) fun s k => s.syncStep n h k

/-- A context that waits at BARRIER or WAIT goes on at the command boundary after the condition holds (R48, R119); a halted
one stays (R437). -/
def State.wakeCtx (s : State) (n h : Nat) : State :=
  let x := s.ctx n h
  match x.cmd with
  | none => s
  | some k =>
    if x.state == .waiting && (cOp k.word == 0x48 || cOp k.word == 0x49) && !x.halted then
      if (s.barrier (barDie k.word) (barObj k.word)).reached (opnd (s.opsNow n h k) 0 % 65536) && (s.core n).exec_.isNone
      then s.syncDone n h
      else s.stall n 0x8380
    else s

/-- BARRIER_CONDITION_HOLDS (R119). -/
def State.doBarrierHolds (s : State) (n : Nat) : Waiter → State
  | .stream k => s.wakeStream n k.val
  | .context h => s.wakeCtx n h.val

/-! ### FILL and COPY (R81, R183) -/

/-- A scratchpad range reaches beyond the populated offsets (R70, R81). -/
def beyond (off len : Nat) : Bool := decide (spLen < off + len)

/-- The operand checks of FILL and COPY: one check point (R81, R16). -/
def fillChecks (k : CmdRun) (ops : List Nat) : List Status :=
  let a := opnd ops 0
  let b := opnd ops 1
  let l := opnd ops 2
  if cOp k.word = 0x50 then
    conds [(a % 32 != 0 || b % 32 != 0, .recipeInvalid), (beyond a b, .accessDenied)]
  else
    conds [(a % 32 != 0 || b % 32 != 0 || l % 32 != 0, .recipeInvalid), (beyond a l || beyond b l, .accessDenied),
           (decide (0 < l) && overlap a l b l, .bankConflict)]

/-- The banks that one iteration writes or reads; none for ranges that its checks refuse. -/
def fillBanks (w : Nat) (ops : List Nat) : Nat :=
  let one (off len : Nat) : Nat := if len = 0 ∨ beyond off len then 0 else bankMask off len
  if cOp w = 0x50 then one (opnd ops 0) (opnd ops 1)
  else one (opnd ops 0) (opnd ops 2) ||| one (opnd ops 1) (opnd ops 2)

/-- The banks of every iteration of the command: the lease is taken at its start and held until it completes. -/
def fillMask (x : Ctx) (k : CmdRun) : Nat :=
  (List.range (iterCount k.counts)).foldl (fun m i => m ||| fillBanks k.word (opValues x k.word (iterAt k.counts i))) 0

/-- Take the exclusive lease at the start of the command (R76, R78, R344). -/
def State.fillLease (s : State) (n h : Nat) (k : CmdRun) : State × Option Status :=
  let x := s.ctx n h
  let m := fillMask x k
  if k.lease = m then (s, none)
  else
    let want : List Lease := [⟨m, true⟩]
    match firstFail [(leasesClash (s.core n).leases want, .bankConflict),
                     (s.overBudget n x.part x.client want, .accessDenied)] with
    | some st => (s, some st)
    | none => (s.modCmd n h fun k => { k with lease := m }, none)

/-- `len` bytes of an 8 B pattern. -/
def fillBytes (pat len : Nat) : Bytes := (List.replicate (len / 8) (natLe 8 pat)).flatten

/-- One iteration of FILL or COPY. A COPY reads every source byte before it writes any, so that one that meets an uncorrectable
word writes none of its destination (DESIGN CHOICE, log entry 71: R183 states no order). -/
def State.fillStep (s : State) (n h : Nat) (k : CmdRun) : State :=
  let ops := s.opsNow n h k
  let base := spBase n
  match s.fillLease n h k with
  | (s, some st) => s.failCommand n h st
  | (s, none) =>
    let r : State × Status :=
      if cOp k.word = 0x50 then
        s.writeMem (base + opnd ops 0) (fillBytes (opnd ops 2 + opnd ops 3 * 2 ^ 32) (opnd ops 1))
      else
        match s.readMem (base + opnd ops 0) (opnd ops 2) (tag := cTag k.word) with
        | (s, .ok, bs) => s.writeMem (base + opnd ops 1) bs
        | (s, st, _) => (s, st)
    match r with
    | (s, .ok) => s.endIter n h k
    | (s, .eccUncorrectable) => s.cmdEcc n h .eccUncorrectable
    | (s, st) => s.failCommand n h st

def State.doFill (s : State) (n h : Nat) : State :=
  s.invoke n h 0x50 (fun _ k ops => fillChecks k ops) fun s k => s.fillStep n h k
def State.doCopy (s : State) (n h : Nat) : State :=
  s.invoke n h 0x51 (fun _ k ops => fillChecks k ops) fun s k => s.fillStep n h k

/-! ### PATCH (R184) -/

/-- The value that a PATCH writes. -/
def patchValue (w : Nat) (ops : List Nat) : Nat :=
  match cFlags w % 4 with
  | 0 => cImm w
  | 1 => (opnd ops 0 + cImm w) % 2 ^ 32
  | _ => opnd ops 1

def State.doPatchCmd (s : State) (n h : Nat) : State :=
  s.invoke n h 0x58 (fun _ _ _ => []) fun s k =>
    let v := patchValue k.word (s.opsNow n h k)
    (s.modCtx n h fun x => x.setParam (cOpr k.word 0) v).modCmd n h fun k => { k with phase := .last, open_ := false }

/-! ### The end of a command (R135, R136) -/

/-- The forward run's closing SEAL has completed: for each block that it sealed, the core and its position (R191). -/
def State.noteForward (s : State) (n h : Nat) (k : CmdRun) : State :=
  let x := s.ctx n h
  if x.kind == .forward && cOp k.word == 0x38 && k.index + 1 == x.mashCmd then
    let g := s.gate x.part
    let old := g.forwards.filter fun f => !(f.step == x.step && f.mash == x.mash && f.core == n && f.ctx == h)
    let b := opnd (opValues x k.word (k.iter.map fun _ => 0)) 0
    s.setGate x.part { g with forwards := old ++ [⟨x.step, x.mash, n, h, x.startPos, b⟩] }
  else s

/-- An outgoing client's commit-class command has completed during a switch: its tag is kept (R349). -/
def State.overDone (s : State) (p n h tag : Nat) : State :=
  let q := s.part p
  match q.switch with
  | some w =>
    if w.overruns.contains (n, h) then
      s.setPart p { q with switch := some { w with overruns := w.overruns.filter (· != (n, h)), tag := tag } }
    else s
  | none => s

/-- The status with which a command that has finished completes: CHECK_SEAL reports a difference (R178), a held one
what its verdict says (R198). -/
def CmdRun.outcome (k : CmdRun) : Status :=
  match k.verdict with
  | some st => st
  | none =>
    if cOp k.word = 0x39 ∧ k.failed ≠ 0 then (if cFlag k.word 32 then .resteepMismatch else .sealFail) else .ok

/-- The step operand of an OPT_UPDATE (R176). -/
def State.stepOf (s : State) (n h : Nat) (k : CmdRun) : Nat :=
  opnd (opValues (s.ctx n h) k.word (k.iter.map fun _ => 0)) 3

/-- A gated OPT_UPDATE has completed with ST_OK: it is shadowed when R367 says so (R368). -/
def State.noteShadow (s : State) (n h : Nat) (k : CmdRun) : State :=
  let x := s.ctx n h
  let p := x.part
  let v := s.stepOf n h k
  if gated k.word && x.kind != .shadow && x.kind != .third && s.reg (0x6200 + p) 0 == 1 && s.reg (0x9400 + p) 8 == 0 &&
      (n + v) % 64 == 0 then
    let c := s.core n
    let w : Shadow :=
      { client := x.client, core := n, ctx := h, pos := x.startPos, entry := k.index, tag := cTag k.word, step := v,
        digest := (crc32c (k.seals.flatMap (natLe 4))).toNat, run := x.run, seed := x.seed, params := x.params,
        recipe := (c.recipe.filter fun e => decide (x.base ≤ e.1) && decide (e.1 < x.base + x.count)).map fun e => (e.1 - x.base, e.2),
        prog := (c.prog.filter fun e => decide (x.progBase ≤ e.1) && decide (e.1 < x.progBase + x.progWords)).map fun e =>
          (e.1 - x.progBase, e.2),
        base := x.base, progBase := x.progBase, count := x.count, progWords := x.progWords, since := s.localNs }
    ({ s with shadows := SMap.put p (SMap.get [] s.shadows p ++ [w]) s.shadows } : State).bump 16 (0x6200 + p) 2 1
  else s

/-- COMMAND_COMPLETE (R135): the last iteration has finished and every stream of the command has ended. A command whose
streams that are left are all suspended is held (R138). -/
def State.doCommandComplete (s : State) (n h : Nat) : State :=
  let x := s.ctx n h
  match x.cmd with
  | none => s
  | some k =>
    if k.phase == .last && x.state == .running && ((s.core n).streamsOf h).isEmpty && !(s.core n).maint &&
        (k.holdsCore || (s.core n).exec_.isNone || (s.core n).exec_ == some h) then
      let s := s.overDone x.part n h x.lastTag
      match k.outcome with
      | .ok => ((s.noteForward n h k).noteShadow n h k).completeCommand n h k.word
      | st => s.failCommand n h st
    else if k.phase == .last && x.state == .running && ((s.core n).streamsOf h).all (fun e => e.2.phase == .suspended) &&
        !(s.core n).maint then
      s.modCtx n h fun x => { x with state := .faultHeld }
    else s

/-! ### The step gate (R176, R202) -/

/-- GATED_UPDATE_PROCEED (R176, R202): a gated OPT_UPDATE that waits before its rings open waits on, counting BARRIER;
or, when the rotation of R48 comes to it at a command boundary, it proceeds or fails. -/
def State.doGatedUpdate (s : State) (n h : Nat) : State :=
  let x := s.ctx n h
  match x.cmd with
  | none => s
  | some k =>
    if k.phase == .gate && x.state == .running && !x.preempt && !x.halted then
      match s.gateSays x.part (opnd (s.opsNow n h k) 3) with
      | none => s.stall n 0x8380
      | some st =>
        if (s.core n).exec_.isSome || s.scan n != some h || (s.core n).maint || (s.core n).retire.isSome || !s.awake n then s
        else
          let s := s.modCore n fun c => { c with issued := h }
          if st = .ok then
            ((s.modCmd n h fun k => { k with phase := .run }).modCore n fun c => { c with exec_ := some h }).openUp n h
          else s.failCommand n h st
    else s

/-! ### Pre-emption points (R142, R145) -/

/-- A context is at a pre-emption point: a command boundary, a boundary between iterations of a restartable command, or
WAITING. -/
def Ctx.atPoint (x : Ctx) : Bool :=
  match x.state with
  | .waiting => true
  | .running =>
    match x.cmd with
    | none => true
    | some k => k.phase == .gate || (k.phase == .run && cRest k.word && !k.open_)
  | _ => false

/-- A drain stream of a context can be stopped at its slot boundary (R102, R114, R115): every write that it has issued is
acknowledged, and no accumulate of its slot has left, so that none is ever sent twice (DEDUCED, log entry 63: until then
the pre-emption waits). -/
def Core.drainsStop (c : Core) (h : Nat) : Bool :=
  c.streams.all fun e => e.2.ctx != h || !(e.2.accSent || e.2.writing)

/-- The pre-emption of a context can be taken now: it is asked for, the context is at a pre-emption point, and its streams
can stop. -/
def State.canPreempt (s : State) (n h : Nat) : Bool :=
  (s.ctx n h).preempt && (s.ctx n h).atPoint && (s.core n).drainsStop h

/-- PREEMPTION_TAKEN (R142, R348 step 3, R351): the context is saved; one saved for a kiln slice or for a retirement is
counted (R352, R362). -/
def State.doPreemption (s : State) (n h : Nat) : State :=
  let x := s.ctx n h
  if s.canPreempt n h then
    let forKiln := ((s.core n).kiln || (s.core n).retire.isSome) && (s.part x.part).switch.isNone
    let s := s.overDone x.part n h x.lastTag
    let s := if forKiln then s.bump 32 (0x8D18 + x.client) x.part 1 else s
    (s.saveCtx n h ((s.core n).kiln || (s.core n).retire.isSome)).1
  else s

end Sys2Proof.Machine
end

