-- ==== Sys2Proof/Machine/Sched.lean ====
section
/-! DEFINITION. Residency and the scheduler (R341, R346 to R351) and the accounting of clients (R352). -/

namespace Sys2Proof.Machine

/-! ### Runnable work (R341, R346) -/

/-- The live contexts of the cores of partition p: core, context, state. -/
def State.liveCtxs (s : State) (p : Nat) : List (Nat × Nat × Ctx) :=
  (s.cores.filter fun e => s.coreIn p e.1).flatMap fun e => e.2.ctxs.map fun x => (e.1, x.1, x.2)

/-- The packet at the head of a ring asks for a LOAD or a START. -/
def Intake.asksWork (x : Intake) : Bool :=
  let c := cutPacket x.heads
  let ty := rqType (c.1.flatMap IntakeWord.bytes)
  c.2.2 && (ty == 1 || ty == 2)

/-- A LOAD or START of client c of partition p is held in an intake reader (R346). -/
def State.heldWork (s : State) (p c : Nat) : Bool :=
  s.intakes.any fun e =>
    let cfg := s.intakeCfg (e.1 / 16) (e.1 % 16)
    bit cfg 63 && fld cfg 35 28 == p && fld cfg 27 25 == c && e.2.asksWork

/-- The states of the contexts of client c of partition p, live and saved. -/
def State.ctxStates (s : State) (p c : Nat) : List CtxState :=
  ((s.liveCtxs p).filter fun e => e.2.2.part == p && e.2.2.client == c && e.2.2.state != .empty).map (·.2.2.state) ++
    (s.saved.filter fun v => v.part == p && v.client == c).map (·.st.state)

/-- Client c of partition p has runnable work (R346). -/
def State.runnable (s : State) (p c : Nat) : Bool :=
  (s.ctxStates p c).any (fun st => st == .loading || st.inRun) || s.heldWork p c

/-- A partition is drained (R341). -/
def State.drained (s : State) (p : Nat) : Bool :=
  (List.range 8).all (fun c => !s.runnable p c) &&
    (s.cores.filter fun e => s.coreIn p e.1).all fun e => e.2.streams.all fun t => t.2.ended

/-! ### Choosing a client (R347) -/

/-- A slice of client c in nanoseconds. -/
def State.sliceNs (s : State) (p c : Nat) : Nat := s.reg (0x4100 + p) c * 1000000

/-- The first enabled client of a list that has runnable work and may become resident; an enabled client whose charge is
not below its slice is passed over and pays one slice. -/
def State.choose (s : State) (p : Nat) : List Nat → State × Option Nat
  | [] => (s, none)
  | c :: t =>
    let q := s.part p
    let ch := SMap.get 0 q.charge c
    if s.reg (0x4100 + p) c = 0 then s.choose p t
    else if s.sliceNs p c ≤ ch then
      (s.setPart p { q with charge := SMap.putD 0 c (ch - s.sliceNs p c) q.charge }).choose p t
    else if s.runnable p c then (s, some c)
    else s.choose p t

/-- The clients after the resident one, in ascending number with wrapping. -/
def after (r : Nat) : List Nat := if r < 8 then (List.range 7).map fun i => (r + 1 + i) % 8 else List.range 8

/-- None of a saved context's leases conflicts with a lease active on its core (R79). -/
def State.leasesFree (s : State) (v : Saved) : Bool :=
  let k : Core := { streams := v.streams, rings := v.rings, ctxs := [(v.ctx, v.st)] }
  !k.leases.any fun l => (s.core v.core).leases.any l.conflicts

/-- A saved context resumes on its core, when neither a kiln slice nor a retirement holds the core and its leases are free
(R79, R348, R351). -/
def State.resume (s : State) (v : Saved) : State :=
  if s.coreHeld v.core || !s.leasesFree v then s else s.restoreCtx v

/-- A client becomes resident: its slice begins, and its saved contexts resume (R346, R348 step 5). -/
def State.becomeResident (s : State) (p c : Nat) : State :=
  let q := s.part p
  let s := (s.setReg (0x4000 + p) 3 c).setPart p { q with charge := SMap.del c q.charge, switch := none }
  let mine := s.saved.filter fun v => v.part == p && v.client == c
  mine.foldl State.resume s

/-! ### Switches (R348, R349) -/

/-- A context executes a commit-class command (R349). -/
def State.inCommit (s : State) (n h : Nat) : Bool :=
  match (s.ctx n h).cmd with
  | some k => (s.core n).exec_ == some h && commitClass (cOp k.word)
  | none => false

/-- Save a context that has no run in progress, as part of a switch. -/
def State.saveIdle (s : State) (n h : Nat) : State :=
  let st := (s.ctx n h).state
  if st == .ready || st == .done then (s.saveCtx n h false).1 else s

/-- Ask for the pre-emption of a context whose run is in progress. -/
def State.askPreempt (s : State) (n h : Nat) : State :=
  if (s.ctx n h).state.inRun then s.modCtx n h fun x => { x with preempt := true } else s

/-- A switch from client a to client b begins (R348 step 1). -/
def State.beginSwitch (s : State) (p b : Nat) : State :=
  let live := (s.liveCtxs p).filter fun e => e.2.2.state != .empty
  let overruns := (live.filter fun e => s.inCommit e.1 e.2.1).map fun e => (e.1, e.2.1)
  let s := s.setPart p { s.part p with switch := some ⟨b, s.localNs, overruns, !overruns.isEmpty, 0⟩ }
  live.foldl (fun (s : State) e => (s.askPreempt e.1 e.2.1).saveIdle e.1 e.2.1) s

/-- The scheduler looks at a partition after an event (R347): a client becomes resident where none is, or a switch
begins when the resident client has no runnable work. Fuel bounds the rounds in which clients are passed over. -/
def State.schedule (s : State) (p : Nat) : Nat → State
  | 0 => s
  | fuel + 1 =>
    if !s.built p || (s.part p).closing || (s.part p).switch.isSome then s
    else
      let r := s.resident p
      if r < 8 && s.runnable p r then s
      else match s.choose p (after r) with
        | (s, some c) => if r < 8 then s.beginSwitch p c else s.becomeResident p c
        | (s, none) =>
          if (after r).any fun c => s.reg (0x4100 + p) c != 0 && s.runnable p c then s.schedule p fuel else s

/-- SLICE_END (R347): the resident client's slice has ended on the local time counter. -/
def State.doSliceEnd (s : State) (p : Nat) : State :=
  let r := s.resident p
  if !s.built p || (s.part p).closing || (s.part p).switch.isSome || decide (8 ≤ r) then s
  else match s.choose p (after r) with
    | (s, some c) => s.beginSwitch p c
    | (s, none) => s

/-- SWITCH_COMPLETE (R348 steps 3 to 5, R349): every context of the outgoing client is saved. -/
def State.doSwitchComplete (s : State) (p : Nat) : State :=
  match (s.part p).switch with
  | none => s
  | some w =>
    let live := (s.liveCtxs p).filter fun e => e.2.2.state != .empty
    let s := live.foldl (fun (s : State) e => (s.askPreempt e.1 e.2.1).saveIdle e.1 e.2.1) s
    if ((s.liveCtxs p).any fun e => e.2.2.state != .empty) then s
    else
      let a := s.resident p
      let l := s.localNs - w.since
      let q := s.part p
      let tag := match (s.part p).switch with | some w => w.tag | none => 0
      let s := s.setPart p { q with charge := SMap.putD 0 a (SMap.get 0 q.charge a + l) q.charge }
      let s := s.bump 32 (0x8D10 + a) p 1
      let s := if w.wasOver then
          (((s.bump 32 (0x8D20 + a) p 1).bump 64 (0x8D28 + a) p l)).condition .preemptOverrun s.kdOrigin
            (detail1 p a 0xFFFF 0) tag
        else s
      let s := { s with saved := s.saved.map fun (v : Saved) => if v.part == p && v.client == a then { v with kiln := false } else v }
      (s.becomeResident p w.dest).stir p

/-- Contexts of the resident client that are saved from core n resume there: those saved for a kiln slice or a retirement
(R351), and those that a lease kept from resuming (R79). -/
def State.resumeCore (s : State) (n : Nat) : State :=
  let mine := s.saved.filter fun v => v.core == n && s.resident v.part == v.client && (s.part v.part).switch.isNone
  mine.foldl State.resume s

/-! ### Accounting (R352) -/

/-- The partitions that are BUILT. -/
def State.builtParts (s : State) : List Nat :=
  (s.dict.filter fun e => e.1 % 256 == 0 && decide (0x4000 ≤ e.1 / 256) && decide (e.1 / 256 < 0x4100) && e.2 == 1).map
    fun e => e.1 / 256 - 0x4000

/-- k nanoseconds pass for the clients of partition p. -/
def State.accruePart (s : State) (k p : Nat) : State :=
  (List.range 8).foldl (fun (s : State) c =>
    if s.resident p = c then s.bump 64 (0x8D08 + c) p k
    else if s.runnable p c then s.bump 64 (0x8D00 + c) p k
    else s) s

/-- k nanoseconds pass. -/
def State.accrue (s : State) (k : Nat) : State :=
  if k = 0 then s else s.builtParts.foldl (fun (s : State) p => s.accruePart k p) s

/-- One REF cycle passes while a source runs (R395): the local time counter and the accounts of time advance. -/
def State.tick (s : State) : State :=
  let st := s.reg 0x2000 1
  if st = 1 ∨ st = 2 then
    let t := { s with time := s.time + 1 }
    t.accrue ((t.localNs + 2 ^ 64 - s.localNs) % 2 ^ 64)
  else s

end Sys2Proof.Machine
end

