-- ==== Sys2Proof/Machine/Mash.lean ====
section
/-! DEFINITION. The step gate (R200, R201), the verdict collector (R193, R194, R197 to R199) and arbitration (R195,
R196). -/

namespace Sys2Proof.Machine

/-! ### The gate's entries (R206) -/

/-- Current step of the gate of partition p. -/
def State.gStep (s : State) (p : Nat) : Nat := s.reg (0x9400 + p) 1
/-- State code of the gate (R200). -/
def State.gState (s : State) (p : Nat) : Nat := s.reg (0x9400 + p) 2
/-- The parent word. -/
def State.gParent (s : State) (p : Nat) : Nat := s.reg (0x9400 + p) 4
/-- Move the gate to a state. -/
def State.setGState (s : State) (p v : Nat) : State := s.setReg (0x9400 + p) 2 v

/-- The step after one. -/
def stepAfter (v : Nat) : Nat := (v + 1) % 2 ^ 32

/-- A verdict or vote of a gate is audited (R199 to R201): KIND 1 with the partition and the step. -/
def State.gateNote (s : State) (p : Nat) (st : Status) (step : Nat) : State :=
  s.condition st s.kdOrigin (detail1 p 0xFF 0xFFFF step)

/-! ### Votes (R200, R308) -/

/-- The AUX word of a vote (R308). -/
def voteAux (step dst src kind : Nat) : Nat := step <<< 32 + dst <<< 24 + src <<< 16 + kind

/-- The gate of partition p fails for want of a delivered vote of its step; its FAIL votes follow (R200 item 6). -/
def State.voteLost (s : State) (p step : Nat) (st : Status) : State :=
  let s := s.gateNote p st step
  if s.gStep p = step ∧ s.gState p ≠ 4 ∧ s.gState p ≠ 0 then
    let s := s.setGState p 4
    { s with events := s.events ++ [.gateFailed p] }
  else s

/-- Send one vote to a gate of this device or of another. -/
def State.sendVote (s : State) (p dev q step kind : Nat) : State :=
  if dev = s.ownId then { s with events := s.events ++ [.vote p q step kind] }
  else
    let t : Txn := { op := 5, dest := dev, src := s.ownId, hops := 0, aux := voteAux step q p kind }
    match s.issue t (.vote p step) with
    | (s, .sent _ _) => s
    | (s, .wait) => let g := s.gate p; s.setGate p { g with outbox := g.outbox ++ [(dev, q, step, kind)] }
    | (s, .refused st) => s.voteLost p step st

/-- The children that a gate knows: the senders of its READY votes, and the gates of this device that name it. -/
def State.gChildren (s : State) (p : Nat) : List (Nat × Nat) :=
  let own := s.ownId
  let here := (s.builtParts.filter fun q => q != p && bit (s.gParent q) 31 && fld (s.gParent q) 24 8 == own &&
    fld (s.gParent q) 7 0 == p).map fun q => (own, q)
  here ++ ((s.gate p).ready.filter fun e => !here.contains e)

/-- Send a vote to the parent, when there is one. -/
def State.voteUp (s : State) (p kind : Nat) : State :=
  let w := s.gParent p
  if bit w 31 then s.sendVote p (fld w 24 8) (fld w 7 0) (s.gStep p) kind else s

/-- Send a vote to the children. -/
def State.voteDown (s : State) (p kind : Nat) : State :=
  (s.gChildren p).foldl (fun (s : State) e => s.sendVote p e.1 e.2 (s.gStep p) kind) s

/-- FAIL goes to the parent and to the children (R200 item 6). -/
def State.failVotes (s : State) (p : Nat) : State := (s.voteUp p 3).voteDown p 3

/-- The gate fails (R200 items 2 and 6): FAIL goes once to its parent and children. -/
def State.gateFail (s : State) (p : Nat) : State :=
  if s.gState p = 1 ∨ s.gState p = 2 then (s.setGState p 4).failVotes p else s

/-- The gate becomes OPEN and tells its children (R200 items 4 and 5). -/
def State.gateOpen (s : State) (p : Nat) : State := (s.setGState p 3).voteDown p 2

/-- What a READY gate does (R200 items 4 and 5): a root opens; any other tells its parent, and opens when the parent's OPEN
has come. -/
def State.gateReady (s : State) (p : Nat) : State :=
  if bit (s.gParent p) 31 then
    let s := s.voteUp p 1
    if (s.gate p).opened && s.gState p == 2 then s.gateOpen p else s
  else s.gateOpen p

/-- The gate becomes READY when its counts are complete (R200 item 3). -/
def State.gateCheck (s : State) (p : Nat) : State :=
  if s.gState p = 1 ∧ s.reg (0x9400 + p) 3 = s.reg (0x9400 + p) 0 ∧ s.reg (0x9400 + p) 5 ≤ (s.gate p).ready.length then
    (s.setGState p 2).gateReady p
  else s

/-- A write of `gate.parent` (R200 items 4 and 5): a gate that is READY deals with its new parent. -/
def State.writeGateParent (s : State) (p v : Nat) : State :=
  let old := s.gParent p
  let s := s.setReg (0x9400 + p) 4 v
  if v = old then s
  else
    let s := s.setGate p { s.gate p with opened := false, bankOpen := false }
    if s.gState p = 2 then s.gateReady p else s

/-- A write of `gate.children` (R200 item 3): the counts of a COLLECTING gate may be complete with it. -/
def State.writeGateChildren (s : State) (p v : Nat) : State := (s.setReg (0x9400 + p) 5 v).gateCheck p

/-- A vote for the gate of a BUILT partition q from gate (dev, src) (R200, R201, R308): 1 READY, 2 OPEN, 3 FAIL. An OPEN that
comes before the gate is READY counts when it is (DESIGN CHOICE, log entry 72). -/
def State.takeVote (s : State) (q dev src step kind : Nat) : State :=
  let g := s.gate q
  let st := s.gState q
  if step = s.gStep q then
    match st with
    | 0 => s.gateNote q (if kind = 3 then .resteepMismatch else .ok) step
    | 4 => s
    | _ =>
      match kind with
      | 3 => if st = 3 then s.gateNote q .ok step else s.gateFail q
      | 1 =>
        if g.ready.contains (dev, src) then s
        else (s.setGate q { g with ready := g.ready ++ [(dev, src)] }).gateCheck q
      | _ => if st = 2 then s.gateOpen q else s.setGate q { g with opened := true }
  else if step = stepAfter (s.gStep q) then
    match kind with
    | 1 =>
      s.setGate q { g with bankReady := if g.bankReady.contains (dev, src) then g.bankReady else g.bankReady ++ [(dev, src)] }
    | 2 => s.setGate q { g with bankOpen := true }
    | _ => s.setGate q { g with bankFail := true }
  else s.gateNote q .ok step

/-- A vote reaches a partition (R200, R308): the status of its refusal, or ST_OK. -/
def State.deliverVote (s : State) (q dev src step kind : Nat) : State × Status :=
  let w := s.gParent q
  if !s.built q || kind == 0 || (kind == 2 && !(bit w 31 && fld w 24 8 == dev && fld w 7 0 == src)) then
    (s, .accessDenied)
  else (s.takeVote q dev src step kind, .ok)

/-- A vote between partitions of this device (through the KD die); its refusal fails the sending gate. -/
def State.localVote (s : State) (src q step kind : Nat) : State :=
  match s.deliverVote q s.ownId src step kind with
  | (s, .ok) => s
  | (s, st) => s.voteLost src step st

/-- Votes that waited for a transaction number are sent again. -/
def State.flushVotes (s : State) : State :=
  s.gates.foldl (fun (s : State) e =>
    if (s.gate e.1).outbox.isEmpty then s
    else
      let l := (s.gate e.1).outbox
      l.foldl (fun (s : State) v => s.sendVote e.1 v.1 v.2.1 v.2.2.1 v.2.2.2) (s.setGate e.1 { s.gate e.1 with outbox := [] })) s

/-- A verdict of partition p for a step (R200 items 1, 2 and 7, R201). One for a step whose gate is OPEN is audited, and a
pass is counted whatever the state but IDLE. -/
def State.gateVerdict (s : State) (p step : Nat) (pass : Bool) : State :=
  let st := s.gState p
  let note (s : State) : State := s.gateNote p (if pass then .ok else .resteepMismatch) step
  if step = s.gStep p ∧ st ≠ 0 then
    let s := if pass then (s.bump 32 (0x9400 + p) 3 1).gateCheck p else s.gateFail p
    if st = 3 then note s else s
  else if step = stepAfter (s.gStep p) then
    let g := s.gate p
    s.setGate p (if pass then { g with bankPass := g.bankPass + 1 } else { g with bankFail := true })
  else note s

/-- GATE_TIMEOUT (R200 item 2): `gate.timeout_ms` has passed since the gate entered COLLECTING. -/
def State.doGateTimeout (s : State) (p : Nat) : State :=
  if s.reg (0x9400 + p) 6 = 0 then s else s.gateFail p

/-! ### Verdicts (R194, R197 to R199) -/

/-- Replace or add the key of a step and mash word. -/
def Gate.putKey (g : Gate) (k : MashKey) : Gate :=
  if g.keys.any fun e => e.step == k.step && e.mash == k.mash then
    { g with keys := g.keys.map fun e => if e.step == k.step && e.mash == k.mash then k else e }
  else { g with keys := g.keys ++ [k] }

/-- The key of a step and mash word, when it holds a place. -/
def Gate.key (g : Gate) (step mash : Nat) : Option MashKey := g.keys.find? fun e => e.step == step && e.mash == mash

/-- A key gives up its place once its verdict is formed and all its reports have come (R194). -/
def Gate.trim (g : Gate) : Gate :=
  { g with keys := g.keys.filter fun k => !(k.stage == 3 && decide (k.count ≤ k.reports.length)) }

/-- The held CHECK_SEAL of a context completes with a status once its verdict is known (R193, R198). A saved context
takes it when it resumes. -/
def State.releaseHeld (s : State) (p : Nat) (r : Report) (st : Status) : State :=
  let held (x : Ctx) : Option CmdRun := x.cmd.filter fun k => k.phase == .held && k.pos == 1
  match s.savedOf r.core r.ctx p r.client with
  | some v =>
    match held v.st with
    | some k => s.setCtxOf r.core r.ctx p r.client { v.st with cmd := some { k with verdict := some st } }
    | none => s
  | none =>
    let x := s.ctx r.core r.ctx
    if x.part != p || x.client != r.client then s
    else match held x with
      | some k =>
        if st = .ok then
          s.setCtx r.core r.ctx { x with state := .running, cmd := some { k with phase := .last, verdict := some .ok } }
        else s.failCommand r.core r.ctx st
      | none => s

/-- D: the blocks in which run 2 differed, with their contexts (R197). -/
def MashKey.diffs (k : MashKey) : List (Nat × Nat × Nat) :=
  k.reports.zipIdx.flatMap fun r => r.1.diffs.map fun d => (r.2, d.1, d.2)

/-- The differing blocks of run 3. -/
def MashKey.diffs3 (k : MashKey) : List (Nat × Nat × Nat) := k.third.flatMap fun r => r.2.diffs.map fun d => (r.1, d.1, d.2)

/-- Some report overflowed (R194). -/
def MashKey.overflown (k : MashKey) : Bool := k.reports.any (·.overflow) || k.third.any (·.2.overflow)

/-- Two lists hold the same elements. -/
def sameElems (a b : List (Nat × Nat × Nat)) : Bool := a.all b.contains && b.all a.contains

/-- The verdict of R197: 1 PASS_ARBITRATED, 2 FORWARD_FAULT, 3 NOT_ARBITRATED, 4 UNRESOLVED. -/
def MashKey.decide3 (k : MashKey) (complete : Bool) : Nat :=
  if !complete then 3
  else if k.diffs3.isEmpty && !(k.third.any (·.2.overflow)) then 1
  else if k.overflown then 3
  else if sameElems k.diffs3 k.diffs then 2 else 4

/-- Insert a number into an ascending list, beside an equal one. -/
def insertDup (i : Nat) : List Nat → List Nat
  | [] => [i]
  | j :: t => if i ≤ j then i :: j :: t else j :: insertDup i t

/-- The audit records of a verdict other than PASS (R199). Blocks of two contexts that have the same index are two blocks. -/
def State.verdictRecords (s : State) (p : Nat) (k : MashKey) (v : Nat) : State :=
  let idx := (k.diffs.map fun d => d.2.1).foldl (fun l i => insertDup i l) []
  let top := k.mash <<< 96 + v <<< 88 + (if k.overflown then 0xFFFF else min idx.length 0xFFFF) <<< 72
  let st : Status := if v = 1 then .ok else .resteepMismatch
  (List.range (max 1 (ceilDiv idx.length 6))).foldl (fun (s : State) i =>
    let at_ (j : Nat) : Nat := (idx[6 * i + j]?).getD 0xFFFFFFFF
    s.record { kind := 1, origin := s.kdOrigin, status := st, detail := detail1 p 0xFF 0xFFFF k.step,
               old := top + at_ 0 <<< 32 + at_ 1,
               new := at_ 2 <<< 96 + at_ 3 <<< 64 + at_ 4 <<< 32 + at_ 5 }) s

/-- The cores recorded for block i that a context of a key has checked (R191): the record of the forward run of the same
context, and where none has sealed the block, every record of the key with that index (DEDUCED, log entry 70). -/
def Gate.sealers (g : Gate) (k : MashKey) (r : Report) (i : Nat) : List Forward :=
  let fs := g.forwards.filter fun f => f.step == k.step && f.mash == k.mash && decide (i < f.blocks)
  match fs.filter fun f => f.core == r.core && f.ctx == r.ctx with
  | [] => fs
  | own => own

/-- The cores that a verdict puts on the watch list: die and physical position (R199). -/
def Gate.suspects (g : Gate) (k : MashKey) (v : Nat) : List (Nat × Nat) :=
  let place (n pos : Nat) : Nat × Nat := (n / 256, pos)
  let two := k.reports.filterMap fun r => if r.diffs.isEmpty then none else some (place r.core r.pos)
  let one := k.reports.flatMap fun r => r.diffs.flatMap fun d => (g.sealers k r d.1).map fun f => place f.core f.pos
  let three := k.third.filterMap fun r =>
    if r.2.diffs.any fun d => !k.diffs.contains (r.1, d.1, d.2) then some (place r.2.core r.2.pos) else none
  (match v with
    | 1 => two
    | 2 => one
    | 4 => two ++ one ++ three
    | _ => two ++ one).eraseDups

/-- The sub-index of the counter of a verdict code other than PASS (R206): codes 3 and 4 change places. -/
def verdictCounter (v : Nat) : Nat := if v = 3 then 4 else if v = 4 then 3 else v

/-- A verdict is formed (R197 to R199): 0 PASS and the codes of R199. Counters, records, watch list, the gate, and the
held commands of the contexts that have reported. -/
def State.formVerdict (s : State) (p : Nat) (k : MashKey) (v : Nat) : State :=
  let g := s.gate p
  let st : Status := if v ≤ 1 then .ok else .resteepMismatch
  let k := { k with stage := 3, status := st }
  let s := s.bump 32 (0x8500 + p) 0 1
  let s := if v = 0 then s else (s.bump 32 (0x8500 + p) (verdictCounter v) 1).verdictRecords p k v
  let sus := if v = 0 then [] else g.suspects k v
  let s := sus.foldl (fun (s : State) u => s.watchEvent 0 u.1 u.2 .resteepMismatch) s
  let keep {α : Type} (l : List α) (f : α → Nat × Nat) : List α := l.filter fun e => f e != (k.step, k.mash)
  let s := s.setGate p (({ g with
    forwards := keep g.forwards fun f => (f.step, f.mash),
    bars := keep g.bars fun b => (b.1, b.2.1) }).putKey k).trim
  let s := s.gateVerdict p k.step (v ≤ 1)
  k.reports.foldl (fun (s : State) r => s.releaseHeld p r st) s

/-! ### Reports (R193, R194) -/

/-- A context still runs its third run for a key. -/
def State.endThird (s : State) (p : Nat) (n h c : Nat) : State :=
  match s.savedOf n h p c with
  | some v => if v.st.kind == .third then s.dropSaved n h p c else s
  | none =>
    if (s.ctx n h).kind == .third && (s.ctx n h).part == p then
      ((s.abortStreams n h).vacateCtx n h).modCore n fun c => c.letGo h
    else s

/-- What the collector does once the reports of a key allow it (R194): a verdict, or arbitration. -/
def State.judge (s : State) (p : Nat) (k : MashKey) (clash : Bool) : State :=
  if k.stage ≠ 0 then s
  else if clash then s.formVerdict p k 3
  else if k.reports.length < k.count then s
  else if k.diffs.isEmpty && !k.overflown then s.formVerdict p k 0
  else if s.reg (0x9400 + p) 8 = 1 then s.formVerdict p k 3
  else s.setGate p ((s.gate p).putKey { k with stage := 1 })

/-- A differing report raises ST_RESTEEP_MISMATCH in an audit record (R194). -/
def State.mismatchNote (s : State) (p n : Nat) (x : Ctx) : State :=
  s.condition .resteepMismatch (unitOrigin (n / 256)) (detail1 p x.client n x.step) x.lastTag

/-- The report of a CHECK_SEAL: at most 4,096 differing blocks (R194). -/
def reportOf (n h : Nat) (x : Ctx) (k : CmdRun) : Report :=
  { core := n, ctx := h, client := x.client, pos := x.startPos, diffs := k.note.take 4096,
    overflow := decide (4096 < k.note.length) }

/-- A report of a re-steep run reaches the collector. -/
def State.reportSecond (s : State) (n h : Nat) (x : Ctx) (k : CmdRun) : State :=
  let p := x.part
  let g := s.gate p
  let c := opnd (s.opsNow n h k) 1
  let r := reportOf n h x k
  let delivered (s : State) : State := s.modCmd n h fun k => { k with pos := 1 }
  let same (q : Report) : Bool := q.core == n && q.ctx == h && q.client == x.client
  if x.step != s.gStep p && x.step != stepAfter (s.gStep p) then (delivered s).failCommand n h .accessDenied x.step
  else match g.key x.step x.mash with
    | none =>
      if 256 ≤ g.keys.length then s.stall n 0x8380
      else
        let q : MashKey := { step := x.step, mash := x.mash, count := c, reports := [r] }
        let s := delivered (s.setGate p (g.putKey q))
        let s := if r.diffs.isEmpty && !r.overflow then s else s.mismatchNote p n x
        s.judge p q false
    | some q =>
      if q.reports.any same || q.count ≤ q.reports.length then
        (delivered s).failCommand n h .accessDenied x.step
      else
        let q := { q with reports := q.reports ++ [r] }
        let s := delivered (s.setGate p (g.putKey q))
        let s := if r.diffs.isEmpty && !r.overflow then s else s.mismatchNote p n x
        if q.stage = 3 then
          (s.setGate p (s.gate p).trim).releaseHeld p r q.status
        else s.judge p q (c != q.count)

/-- A report of a third run: its context then returns to EMPTY (R195, R197). -/
def State.reportThird (s : State) (n h : Nat) (x : Ctx) (k : CmdRun) : State :=
  let p := x.part
  let g := s.gate p
  let r := reportOf n h x k
  let s := if r.diffs.isEmpty && !r.overflow then s else s.mismatchNote p n x
  let s := (s.endThird p n h x.client).stir p
  match g.key x.step x.mash with
  | none => s
  | some q =>
    match q.arb.find? fun e => e.1 == n with
    | none => s
    | some e =>
      let q := { q with third := q.third ++ [(e.2, r)] }
      let s := s.setGate p (g.putKey q)
      if q.third.length = q.arb.length then s.formVerdict p q (q.decide3 true) else s

/-- REPORT (R193, R194): the comparison of a held CHECK_SEAL reaches the verdict collector of its partition. -/
def State.doReport (s : State) (n h : Nat) : State :=
  let x := s.ctx n h
  match x.cmd with
  | none => s
  | some k =>
    if k.phase == .held && x.state == .waiting then
      if k.pos ≠ 0 then s.stall n 0x8380
      else if x.kind == .third then s.reportThird n h x k
      else s.reportSecond n h x k
    else s

/-- A run of a mash context has ended (R194, R197): a re-steep that had not reported, or a third run. -/
def State.mashRunEnded (s : State) (n h : Nat) (x : Ctx) : State :=
  let p := x.part
  let g := s.gate p
  match x.kind with
  | .third =>
    let s := s.endThird p n h x.client
    match g.key x.step x.mash with
    | some q => if q.stage = 2 ∧ (q.arb.any fun e => e.1 == n) then s.formVerdict p q 3 else s
    | none => s
  | .resteep =>
    let cur := x.step == s.gStep p || x.step == stepAfter (s.gStep p)
    let after : Bool := match x.cmd with
      | some k => k.verdict.isSome || (k.phase == .held && k.pos == 1) || decide (x.mashCmd < k.index)
      | none => decide (x.mashCmd < x.next)
    if after then s
    else match g.key x.step x.mash with
      | some q => if q.stage = 3 then s else s.formVerdict p q 3
      | none =>
        if cur && decide (g.keys.length < 256) then
          s.formVerdict p { step := x.step, mash := x.mash, count := 0 } 3
        else s
  | _ => s

/-! ### Arbitration (R195, R196) -/

/-- σ of R195. -/
def State.sigma (s : State) (p : Nat) : Nat := if 2 ≤ (s.units p).length then 64 else 1

/-- The target core of a report (R195 step 1). -/
def State.arbTarget (s : State) (p n : Nat) : Nat :=
  s.coreAt p ((s.partIndex p n + s.sigma p) % (max 1 (s.partCores p)))

/-- The image with PROG_START of its stream descriptors moved by a distance, modulo 2^10 (R195 step 3). -/
def moveProg (img : List Nat) (lo hi delta : Nat) : List Nat :=
  let ds := ((List.range (hi + 1 - lo)).flatMap fun i => streamEntries (imgEntry img (lo + i))).eraseDups
  img.zipIdx.map fun e => if ds.contains e.2 then setFld e.1 9 0 ((fld e.1 9 0 + delta) % 1024) else e.1

/-- The context of the third run of a re-steep context (R195 step 3). -/
def thirdCtx (x : Ctx) (base prog pos : Nat) : Ctx :=
  { x with state := .running, base := base, progBase := prog, params := x.startParams, next := x.first, lastTag := 0,
           lastIdx := 0, cmd := none, load := none, preempt := false, layers := [], kind := .third,
           startPos := pos, halted := false, haltReq := false, bounded := some x.mashCmd, status := 0 }

/-- The re-steep context of a report, live or saved, and the core and program memory that hold its image. -/
def State.reportCtx (s : State) (p : Nat) (r : Report) : Ctx × Core :=
  match s.savedOf r.core r.ctx p r.client with
  | some v => (v.st, { recipe := v.recipe, prog := v.prog })
  | none => (s.ctx r.core r.ctx, s.core r.core)

/-- The image of a context from a core's recipe memory. -/
def Core.imageOf (c : Core) (x : Ctx) : List Nat :=
  (List.range x.count).map fun e => (SMap.get 0#256 c.recipe (x.base + e)).toNat

/-- Place an image, its grist words and a context on a target core, and start it: resident, or among the saved contexts
of its client (R195 steps 3 to 5, R368). -/
def State.placeRun (s : State) (p c t h base prog : Nat) (img : List Nat) (words : List W32) (y : Ctx) : State :=
  let put (k : Core) : Core :=
    { k with
      recipe := img.zipIdx.foldl (fun m (e : Nat × Nat) => SMap.putD 0#256 (base + e.2) (BitVec.ofNat 256 e.1) m) k.recipe,
      prog := words.zipIdx.foldl (fun m (e : W32 × Nat) => SMap.putD 0#32 (prog + e.2) e.1 m) k.prog }
  if s.answers p c && !s.coreHeld t then ((s.modCore t put).setCtx t h { y with haltReq := (s.ctx t h).haltReq }).requestWake t
  else
    let k := put {}
    { s with saved := s.saved ++ [{ part := p, client := c, core := t, ctx := h, st := y, streams := [], rings := [],
                                    bytes := [], poison := [], recipe := k.recipe, prog := k.prog, carry := [],
                                    kiln := false }] }

/-- Start the third run of one report on its target core (R195 steps 3 to 5). -/
def State.startThird (s : State) (p : Nat) (r : Report) : State :=
  let t := s.arbTarget p r.core
  let base := s.reg (0x9400 + p) 0xA
  let prog := s.reg (0x9400 + p) 0xB
  let q := s.reportCtx p r
  let x := q.1
  let img := q.2.imageOf x
  match cmdRange img with
  | none => s
  | some (lo, hi) =>
    let words := (List.range x.progWords).map fun j => SMap.get 0#32 q.2.prog (x.progBase + j)
    s.placeRun p r.client t (s.reg (0x9400 + p) 9) base prog (moveProg img lo hi ((1024 + prog - x.progBase) % 1024)) words
      (thirdCtx x base prog (s.physPos t))

/-- The mash barriers of a key return to what they were at its first re-steep start (R196). -/
def State.restoreBars (s : State) (p step mash : Nat) : State :=
  match (s.gate p).bars.find? fun b => b.1 == step && b.2.1 == mash with
  | some b => b.2.2.foldl (fun (s : State) e =>
      s.setBarrier (e.1 / 256) (e.1 % 256) { s.barrier (e.1 / 256) (e.1 % 256) with arrived := e.2.1, phase := e.2.2 }) s
  | none => s

/-- ARBITRATION_START (R195): the third runs of a key start on their target cores, or the key cannot be arbitrated. -/
def State.doArbitration (s : State) (p step mash : Nat) : State :=
  match (s.gate p).key step mash with
  | none => s
  | some k =>
    if k.stage ≠ 1 then s
    else
      let h := s.reg (0x9400 + p) 9
      let ts := k.reports.map fun r => s.arbTarget p r.core
      let free := k.reports.all fun r =>
        let t := s.arbTarget p r.core
        s.presented t && (s.ctxOf t h p r.client).state == .empty &&
          (s.resident p != r.client || (s.ctx t h).state == .empty)
      if !(distinct ts && free) then s.formVerdict p k 3
      else
        let k := { k with stage := 2, arb := ts.zipIdx }
        let s := (s.setGate p ((s.gate p).putKey k)).restoreBars p step mash
        (k.reports.foldl (fun (s : State) r => s.startThird p r) s).stir p

/-! ### The write of gate.step (R201) -/

/-- A key released before its verdict: its held commands complete with ST_ACCESS_DENIED, its third runs end. -/
def State.releaseKey (s : State) (p : Nat) (k : MashKey) : State :=
  if k.stage = 3 then s
  else
    let h := s.reg (0x9400 + p) 9
    let s := k.arb.foldl (fun (s : State) e =>
      match k.reports[e.2]? with
      | some r => s.endThird p e.1 h r.client
      | none => s) s
    k.reports.foldl (fun (s : State) r => s.releaseHeld p r .accessDenied) s

/-- The effect of an accepted write of v to `gate.step` (R201). -/
def State.advanceGate (s : State) (p v : Nat) : State :=
  let g := s.gate p
  let old := s.gStep p
  let next := decide (v = stepAfter old)
  let s := s.setReg (0x9400 + p) 7 (old <<< 32 + s.gState p)
  let s := (s.setReg (0x9400 + p) 1 v).setGState p 1
  let s := s.setReg (0x9400 + p) 3 (if next then min g.bankPass (2 ^ 32 - 1) else 0)
  let stays (st : Nat) : Bool := (st == v || st == stepAfter v) && (next || st != v)
  let gone := g.keys.filter fun k => !stays k.step
  let dead (st m : Nat) : Bool := gone.any fun k => k.step == st && k.mash == m
  let s := s.setGate p { g with
    ready := if next then g.bankReady else [], opened := next && g.bankOpen,
    bankPass := 0, bankReady := [], bankOpen := false, bankFail := false,
    keys := g.keys.filter fun k => stays k.step,
    forwards := g.forwards.filter fun f => !dead f.step f.mash,
    bars := g.bars.filter fun b => !dead b.1 b.2.1 }
  let s := gone.foldl (fun (s : State) k => s.releaseKey p k) s
  if next && g.bankFail then s.gateFail p else s.gateCheck p

/-- A write of `gate.step` (R201): ST_BUSY in COLLECTING and READY. -/
def State.writeGateStep (s : State) (p v : Nat) : State × Status :=
  if s.gState p = 1 ∨ s.gState p = 2 then (s, .busy) else (s.advanceGate p v, .ok)

end Sys2Proof.Machine
end

