-- ==== Sys2Proof/Machine/Lauter.lean ====
section
/-! DEFINITION. Gradient reduction (chapter 10): the reduction plan (R235 to R237), the lauter engines with their
arrival checks, order of summation, failure and reset (R242 to R251), and the commands LAYER_DONE (R180, R245) and
REDUCE_PUSH (R181, R239, R240, R246). -/

namespace Sys2Proof.Machine

/-! ### Plan entries (R235) -/

def eOwner (e : Nat) : Nat := fld e 255 239
def eBase (e : Nat) : Nat := fld e 238 192
def eBlocks (e : Nat) : Nat := fld e 191 168
def eParent (e : Nat) : Nat := fld e 167 151
/-- PARENT_VALID: 0 marks the root. -/
def eHasParent (e : Nat) : Bool := bit e 150
def eRank (e : Nat) : Nat := fld e 149 138
def eChildren (e : Nat) : Nat := fld e 137 126
/-- FORMAT: thinned. -/
def eThin (e : Nat) : Bool := bit e 125
def eEpoch (e : Nat) : Nat := fld e 124 117
def ePart (e : Nat) : Nat := fld e 116 109
def eLayer (e : Nat) : Nat := fld e 93 78
def eLeaves (e : Nat) : Nat := fld e 6 0

/-- The run of an entry covers a global address (R237). -/
def eCovers (e g : Nat) : Bool :=
  eOwner e == devOf g && decide (eBase e ≤ locOf g) && decide (locOf g < eBase e + 4096 * eBlocks e)

/-- Entry i of the active plan. -/
def State.planAt (s : State) (i : Nat) : Nat := (s.plan[i]?).getD 0

/-- The index of the active entry that matches a destination (R237). -/
def State.planFind (s : State) (g : Nat) : Option Nat := s.plan.findIdx? fun e => eCovers e g

/-- Shadow entry i (R236, R254). -/
def State.planShadow (s : State) (i : Nat) : Nat := s.reg (0x9700 + i / 256) (i % 256)

/-- Where a destination run may lie (R236): within the populated LPDDR5X range, or within the lauter buffers with this
device as root. -/
def eRunOk (e : Nat) : Bool :=
  let b := eBase e
  let top := b + 4096 * eBlocks e
  decide (top ≤ 0xF000000000) ||
    (decide (0x12000000000 ≤ b) && decide (top ≤ 0x12040000000) && !eHasParent e)

/-- The entry fails one of the checks of R236 that concern it alone; a field outside its range in R235 fails it too. -/
def State.planBad (s : State) (e : Nat) : Bool :=
  fld e 77 7 != 0 ||
  (!eHasParent e && (eOwner e != s.ownId || eParent e != 0 || eRank e != 0)) ||
  (eHasParent e && eRank e == 0) ||
  eLeaves e + eChildren e == 0 || decide (64 < eLeaves e) || (decide (1 < eLeaves e) && eThin e) ||
  eBase e % 4096 != 0 || eBlocks e == 0 || !eRunOk e ||
  (bit e 108 && (s.fused (fld e 107 102) ||
    (match (s.barrier (fld e 107 102) (fld e 101 94)).owner with | some q => q != ePart e | none => false)))

/-- Two entries of one owner cover a common block. -/
def eClash (a b : Nat) : Bool :=
  eOwner a == eOwner b && overlap (eBase a) (4096 * eBlocks a) (eBase b) (4096 * eBlocks b)

/-- Some two entries of a plan clash. -/
def planClash : List Nat → Bool
  | [] => false
  | e :: t => t.any (eClash e) || planClash t

/-- Some engine has an open block, or a context executes REDUCE_PUSH. -/
def State.reducing (s : State) : Bool :=
  s.mxs.any (fun m => !m.2.blocks.isEmpty) ||
    s.cores.any fun c => c.2.ctxs.any fun x => match x.2.cmd with | some k => cOp k.word == 0x40 | none => false

/-- A write of N to `lauter.plan_commit` (R236); where both refusals hold, the lowest code is answered (R16). -/
def State.writePlanCommit (s : State) (n : Nat) : State × Status :=
  let plan := (List.range n).map s.planShadow
  match conds [(plan.any s.planBad || planClash plan, .accessDenied), (s.reducing, .busy)] with
  | [] =>
    let clear (m : Nat × Mx) : Nat × Mx := (m.1, { m.2 with admits := [], left := [], ended := [] })
    (({ s with plan := plan, mxs := s.mxs.map clear } : State).setReg 0x9210 1 n, .ok)
  | l => (s, lowest l)

/-! ### Sums (R240, R242, R243) -/

/-- Levels of the tree whose number of positions is the smallest power of two that is at least n. -/
def treeLevels (n : Nat) : Nat := if n ≤ 1 then 0 else log2 (n - 1) + 1

/-- The positions of a tree over n leaves. -/
def treeSize (n : Nat) : Nat := 2 ^ treeLevels n

/-- The 1,024 values of a payload: a thinned one is expanded (R240). -/
def blockWords (thin : Bool) (bs : Bytes) : List W32 :=
  if thin then
    let scales := words32 (sliceZ bs 128 16)
    (List.range 1024).map fun i =>
      let v := (scales[i / 256]?).getD 0
      if mapBit bs i then v ^^^ 0x80000000#32 else v
  else words32 (sliceZ bs 0 4096)

/-- The fixed pairwise tree over leaf positions, element by element (R243). -/
def treeSum (vs : List (Option (List W32))) : List W32 :=
  let k := treeLevels vs.length
  match tree (List.zipWith fadd) k (vs ++ List.replicate (2 ^ k - vs.length) none) with
  | some v :: _ => v
  | _ => []

/-- The local partial of a block (R242): thinned or not, and its payload. A single contribution stands unchanged. -/
def localPartial (b : Block) : Bool × Bytes :=
  match b.locals with
  | [(_, k, bs)] => (k == 1, bs)
  | ls => (false, unwords32 (treeSum (ls.map fun e => some (blockWords (e.2.1 == 1) e.2.2))))

/-- The result of the fleet stage (R243): thinned or not, and its payload. A single position stands unchanged. -/
def fleetResult (e : Nat) (b : Block) : Bool × Bytes :=
  if eChildren e = 0 then localPartial b
  else
    let own := if eLeaves e = 0 then none else let p := localPartial b; some (blockWords p.1 p.2)
    let leaf (r : Nat) : Option (List W32) :=
      (SMap.find? (r + 1) b.forwards).map fun p => blockWords (p.1 == 3) p.2
    (false, unwords32 (treeSum (own :: (List.range (eChildren e)).map leaf)))

/-- The additions that a block's round performs (R254). -/
def blockAdds (e : Nat) (b : Block) : Nat :=
  1024 * ((b.locals.length - 1) + (b.forwards.length + (if eLeaves e = 0 then 0 else 1) - 1))

/-- The frames that a block reserves (R248). -/
def blockFrames (e : Nat) : Nat :=
  let p := treeSize (eChildren e + 1)
  eLeaves e + (if p = 1 then 1 else p / 2 + treeLevels (eChildren e + 1))

/-! ### Engines -/

/-- The engine of this device at which a global destination is reduced (R233, R234). -/
def State.engineOf (s : State) (g : Nat) : Option Nat := s.homeEngine (locOf g)

/-- The destination blocks of an entry, by global address / 4,096. -/
def eBlockList (e : Nat) : List Nat :=
  (List.range (eBlocks e)).map fun i => (eOwner e <<< 47 + eBase e) / 4096 + i

/-- A block belongs to an entry. -/
def eHas (e b : Nat) : Bool := eCovers e (b * 4096)

/-- The blocks of an entry that engine m holds. -/
def State.homed (s : State) (m e : Nat) : List Nat := (eBlockList e).filter fun b => s.engineOf (b * 4096) == some m

/-- The counters of open blocks and free frames follow the engine's blocks (R254). -/
def State.mxCounts (s : State) (m : Nat) : State :=
  let bs := (s.mx m).blocks
  (s.setReg 0x8705 m bs.length).setReg 0x8706 m (16384 - (bs.map fun b => b.2.frames).sum)

/-- Change engine m. -/
def State.modMx (s : State) (m : Nat) (f : Mx → Mx) : State := s.setMx m (f (s.mx m))

/-- Write an open block of engine m. -/
def State.putBlock (s : State) (m b : Nat) (x : Block) : State :=
  (s.modMx m fun k => { k with blocks := SMap.put b x k.blocks }).mxCounts m

/-- Free a block's frames. -/
def State.dropBlock (s : State) (m b : Nat) : State :=
  (s.modMx m fun k => { k with blocks := SMap.del b k.blocks }).mxCounts m

/-- A block fails (R250): its frames are freed, the failure is audited, and the gate of the entry's partition gets a
FAIL vote for its current step. -/
def State.failBlock (s : State) (m b : Nat) (entry : Option Nat) (st : Status) : State :=
  let s := (s.dropBlock m b).modMx m fun k => { k with failed := insertAsc b k.failed }
  let s := s.bump 32 0x8702 m 1
  match entry with
  | none => s.condition st (unitOrigin (64 + m))
  | some i =>
    let e := s.planAt i
    let p := ePart e
    let s := s.condition st (unitOrigin (64 + m)) (detail1 p 0xFF 0xFFFF (eLayer e))
    if s.built p then s.takeVote p s.ownId p (s.gStep p) 3 else s

/-- The entry's round ends when every block of it has ended its round on this device; then it arrives once at its
barrier (R249). -/
def State.endEntry (s : State) (i : Nat) : State :=
  let e := s.planAt i
  let n := (s.mxs.map fun m => (m.2.ended.filter (eHas e)).length).sum
  if n < eBlocks e then s
  else
    let clear (m : Nat × Mx) : Nat × Mx := (m.1, { m.2 with ended := m.2.ended.filter fun b => !eHas e b })
    let s : State := { s with mxs := s.mxs.map clear }
    if bit e 108 then s.arriveAt (fld e 107 102) (fld e 101 94) else s

/-- A block's round ends on this device (R249). -/
def State.endRound (s : State) (m b i : Nat) : State :=
  let s := s.dropBlock m b
  let s := (s.bump 64 0x8700 m 1).modMx m fun k => { k with ended := insertAsc b k.ended }
  s.endEntry i

/-- What an engine sends or writes for a block is to be presented again (R248, R263). -/
def State.presentAgain (s : State) (m b : Nat) : State :=
  s.modMx m fun k => { k with retry := k.retry ++ [⟨b * 4096, [], 0, none, .engine⟩] }

/-- An engine at the root writes the sum over the destination block (R249). A write that the package does not accept waits at
the engine and is presented again (R263, R265). One that memory refuses fails the block with its status. -/
def State.rootWrite (s : State) (m b i : Nat) (r : Bool × Bytes) : State :=
  let bs := if r.1 then unwords32 (blockWords true r.2) else sliceZ r.2 0 4096
  let a := locOf (b * 4096)
  if s.accessWaits a 4096 && (s.popStatus a 4096).isNone then s.presentAgain m b
  else match s.writeLocal .engine a bs with
    | (s, .ok) => s.endRound m b i
    | (s, st) => s.failBlock m b (some i) st

/-- A forward to the parent that is to be presented again (R248). -/
def State.forwardAgain (s : State) (m b : Nat) : State :=
  (s.modMx m fun k =>
    { k with blocks := k.blocks.map fun e => if e.1 = b then (e.1, { e.2 with fwdSent := false }) else e }).presentAgain m b

/-- Forward a block's result to the counterpart engine on the parent (R234, R238, R243). -/
def State.sendForward (s : State) (m b i : Nat) (x : Block) : State :=
  let e := s.planAt i
  let r := fleetResult e x
  let kind := if r.1 then 3 else 2
  let payload := if r.1 then r.2.take 144 else sliceZ r.2 0 4096
  let hdr := contribHeader (crc32c payload).toNat (s.reg 0x5000 2) (s.reg 0x9210 2) (eRank e) kind
  let s := s.putBlock m b { x with fwdSent := true }
  if eParent e = s.ownId then
    s.modMx m fun k => { k with queue := k.queue ++ [⟨b * 4096, payload, hdr, none, .engine⟩] }
  else
    let t : Txn := { op := 3, dest := eParent e, src := 0, hops := 0, owner := devOf (b * 4096), addr := locOf (b * 4096),
                     len := payload.length, aux := hdr, data := payload }
    match s.issue t (.forward m b i) with
    | (s, .wait) => s.forwardAgain m b
    | (s, _) => s

/-- The admission of an entry's dies is cleared when every block of it that engine m holds has left the local stage
(R245). -/
def State.leaveLocal (s : State) (m b i : Nat) : State :=
  let e := s.planAt i
  let s := s.modMx m fun k => { k with left := insertAsc b k.left }
  let k := s.mx m
  if (s.homed m e).all k.left.contains then
    s.setMx m { k with admits := k.admits.filter (·.1 != i), left := k.left.filter fun b => !eHas e b }
  else s

/-- A block whose positions are all present is summed; the root writes, any other device forwards (R242 to R244,
R249). -/
def State.advanceBlock (s : State) (m b : Nat) : State :=
  match SMap.find? b (s.mx m).blocks with
  | none => s
  | some x =>
    let i := x.entry
    let e := s.planAt i
    let leaving := !x.leftLocal && eLeaves e != 0 && x.locals.length == eLeaves e
    let x := { x with leftLocal := x.leftLocal || leaving }
    let s := s.putBlock m b x
    let s := if leaving then s.leaveLocal m b i else s
    if x.locals.length = eLeaves e ∧ x.forwards.length = eChildren e ∧ !x.fwdSent then
      let s := s.bump 64 0x8701 m (blockAdds e x)
      if eHasParent e then s.sendForward m b i x else s.rootWrite m b i (fleetResult e x)
    else s

/-! ### Answers -/

/-- The outcome of a forward (R247 to R249): an acknowledgement ends the block's round; ST_BUSY sends it again; a
refusal by the parent fails the block here too. One that never arrived leaves the block to its time limit. -/
def State.forwardResult (s : State) (m b i : Nat) (st : Status) : State :=
  match SMap.find? b (s.mx m).blocks with
  | none => s
  | some x =>
    if !x.fwdSent then s
    else match st with
      | .ok => s.endRound m b i
      | .busy => s.forwardAgain m b
      | .remoteUnreachable => s
      | .epochMismatch =>
        (s.dropEpoch (eParent (s.planAt i))).failBlock m b (some i) st
      | st => s.failBlock m b (some i) st

/-- The request of a stream that a contribution is. -/
def Stream.contribReq (y : Stream) (va : Nat) : Option Req :=
  y.reqs.find? fun q => q.acc && !q.ready && !q.remote && q.va == va

/-- Tell the sender of a payload what became of it (R247, R248). -/
def State.answerContrib (s : State) (m : Nat) (c : Contrib) (st : Status) : State :=
  match c.sender with
  | .remote _ t => s.respond t st
  | .engine =>
    match s.planFind c.dest with
    | some i => s.forwardResult m (c.dest / 4096) i st
    | none => s
  | .stream n k va =>
    match s.stream n k with
    | none => s
    | some y =>
      match y.contribReq va with
      | none => s
      | some q => if st = .ok then s.setStream n k (y.putReq q { q with ready := true }) else s.stopStream n k st

/-! ### Arrival (R247, R248) -/

def cSeal (h : Nat) : Nat := fld h 63 32
def cEpoch (h : Nat) : Nat := fld h 31 24
def cGen (h : Nat) : Nat := fld h 23 16
def cSource (h : Nat) : Nat := fld h 15 4
def cKind (h : Nat) : Nat := fld h 3 2

/-- The sender is a compute die of this device. -/
def Contrib.here (c : Contrib) : Bool := match c.sender with | .stream .. => true | _ => false

/-- KIND agrees with FORMAT and with the sender's place in the plan, and RANK with CHILDREN (R247). -/
def kindOk (e : Nat) (c : Contrib) : Bool :=
  let k := cKind c.header
  (match k with | 0 => !eThin e | 2 => true | _ => eThin e) &&
    (if k ≤ 1 then c.here && eLeaves e != 0
     else !c.here && cSource c.header != 0 && decide (cSource c.header ≤ eChildren e))

/-- The position is taken: a second contribution of a die, one past LOCAL_LEAVES, or a second forward of a RANK. -/
def Block.taken (x : Block) (e : Nat) (h : Nat) : Bool :=
  if cKind h ≤ 1 then (SMap.find? (cSource h) x.locals).isSome || decide (eLeaves e ≤ x.locals.length)
  else (SMap.find? (cSource h) x.forwards).isSome

/-- The refusal of an arrival at engine m by the checks of R247 from the third on, ST_BUSY apart. -/
def State.arrivalRefusal (s : State) (m : Nat) (c : Contrib) (i : Option Nat) : Option Status :=
  match i with
  | none => some .accessDenied
  | some i =>
    let e := s.planAt i
    let h := c.header
    firstFail [
      ((match c.part with | some p => p != ePart e | none => false) ||
        (decide (cKind h ≤ 1) && !(s.mx m).admits.contains (i, cSource h)), .accessDenied),
      (cSeal h != (crc32c c.payload).toNat, .sealFail),
      (cEpoch h != s.reg 0x5000 2, .epochMismatch),
      (!kindOk e c, .accessDenied),
      ((match SMap.find? (c.dest / 4096) (s.mx m).blocks with | some x => x.taken e h | none => false), .accessDenied)]

/-- Add an accepted payload to its block. -/
def Block.add (x : Block) (h : Nat) (payload : Bytes) : Block :=
  if cKind h ≤ 1 then { x with locals := SMap.put (cSource h) (cKind h, payload) x.locals }
  else { x with forwards := SMap.put (cSource h) (cKind h, payload) x.forwards }

/-- An arrival finds its block open, or opens it when the frames can be reserved (R248). -/
def State.openBlock (s : State) (m i b : Nat) : Option Block :=
  match SMap.find? b (s.mx m).blocks with
  | some x => some x
  | none =>
    let need := blockFrames (s.planAt i)
    if need ≤ 16384 - ((s.mx m).blocks.map fun b => b.2.frames).sum then some { entry := i, since := s.localNs, frames := need }
    else none

/-- One payload arrives at engine m (R247). -/
def State.arrival (s : State) (m : Nat) (c : Contrib) : State :=
  let b := c.dest / 4096
  if cGen c.header ≠ s.reg 0x9210 2 ∨ (s.mx m).failed.contains b then
    (s.bump 32 0x8704 m 1).answerContrib m c .ok
  else
    let i := s.planFind c.dest
    match s.arrivalRefusal m c i, i with
    | some st, _ => (s.failBlock m b i st).answerContrib m c st
    | none, none => s
    | none, some i =>
      match s.openBlock m i b with
      | none =>
        let s := s.bump 32 0x8703 m 1
        match c.sender with
        | .stream .. => s.modMx m fun k => { k with retry := k.retry ++ [c] }
        | _ => s.answerContrib m c .busy
      | some x => (s.putBlock m b (x.add c.header c.payload)).answerContrib m c .ok |>.advanceBlock m b

/-- ACCUM: the oldest payload that waits at engine m is checked. -/
def State.doAccum (s : State) (m : Nat) : State :=
  match (s.mx m).queue with
  | [] => s
  | c :: t => (s.modMx m fun k => { k with queue := t }).arrival m c

/-- A stream presents a contribution again, unless its command has been aborted: then it gives the request up (R248). -/
def State.streamAgain (s : State) (m : Nat) (c : Contrib) (n k va : Nat) : State :=
  match s.stream n k with
  | none => s
  | some y =>
    match y.contribReq va with
    | none => s
    | some q => if y.aborted then s.setStream n k { y with reqs := y.reqs.erase q } else s.arrival m c

/-- An engine presents a block's forward, or its write at the root, again (R248, R263). -/
def State.engineAgain (s : State) (m b : Nat) : State :=
  match SMap.find? b (s.mx m).blocks with
  | none => s
  | some x =>
    let e := s.planAt x.entry
    if x.fwdSent then s
    else if eHasParent e then s.sendForward m b x.entry x else s.rootWrite m b x.entry (fleetResult e x)

/-- ACCUM_RETRY: `lauter.retry_us` has passed since the oldest refusal with ST_BUSY, and its sender presents it again
(R248). -/
def State.doAccumRetry (s : State) (m : Nat) : State :=
  match (s.mx m).retry with
  | [] => s
  | c :: t =>
    let s := s.modMx m fun k => { k with retry := t }
    match c.sender with
    | .stream n k va => s.streamAgain m c n k va
    | _ => s.engineAgain m (c.dest / 4096)

/-- LAUTER_BLOCK_TIMEOUT: a block has stayed open longer than `lauter.timeout_ms` (R250). -/
def State.doBlockTimeout (s : State) (m b : Nat) : State :=
  match SMap.find? b (s.mx m).blocks with
  | some x => if s.reg 0x9210 3 = 0 then s else s.failBlock m b (some x.entry) .remoteUnreachable
  | none => s

/-- A write of `lauter.generation` (R251). -/
def State.writeGeneration (s : State) (v : Nat) : State × Status :=
  if v = s.reg 0x9210 2 then (s, .ok)
  else
    let s := s.setReg 0x9210 2 v
    let s : State := { s with
      mxs := s.mxs.map fun (m : Nat × Mx) => (m.1, { m.2 with
        blocks := [], failed := [], admits := [], left := [], ended := [], retry := m.2.retry.filter Contrib.here }),
      lxs := s.lxs.map fun (x : Nat × LinkDie) => (x.1, { x.2 with outst := x.2.outst.map fun (o : Nat × Outst) => (o.1,
        match o.2.asker with | .forward .. => { o.2 with asker := .nobody } | _ => o.2) }) }
    ((List.range 16).foldl (fun (s : State) m => s.mxCounts m) s, .ok)

/-! ### LAYER_DONE (R180, R245) -/

/-- The active entries of a partition for a layer: index and entry. -/
def State.layerEntries (s : State) (p layer : Nat) : List (Nat × Nat) :=
  (s.plan.zipIdx.filter fun e => ePart e.1 == p && eLayer e.1 == layer).map fun e => (e.2, e.1)

/-- A route to a device exists (R311). -/
def State.hasRoute (s : State) (dev : Nat) : Bool := dev == s.ownId || (s.route dev 1 none).isSome

/-- Admit die d to an entry at every engine that holds a block of it. -/
def State.admitDie (s : State) (d : Nat) (ie : Nat × Nat) : State :=
  (List.range 16).foldl (fun (s : State) m =>
    let k := s.mx m
    if k.admits.contains (ie.1, d) || (s.homed m ie.2).isEmpty then s
    else s.setMx m { k with admits := k.admits ++ [(ie.1, d)] }) s

/-- LAYER_DONE: the layer is complete for the run, and the engines take in the issuing die. -/
def State.doLayerDone (s : State) (n h : Nat) : State :=
  s.invoke n h 0x41
    (fun s _ ops =>
      let es := s.layerEntries (s.ctx n h).part (opnd ops 0)
      conds [(es.isEmpty, .accessDenied),
             (es.any (fun e => eHasParent e.2 && !s.hasRoute (eParent e.2)), .remoteUnreachable)])
    (fun s k =>
      let l := opnd (s.opsNow n h k) 0
      let s := (s.layerEntries (s.ctx n h).part l).foldl (fun (s : State) e => s.admitDie (n / 256) e) s
      (s.modCtx n h fun x => { x with layers := insertAsc l x.layers }).endIter n h k)

/-! ### REDUCE_PUSH (R181, R239, R240, R246) -/

/-- The epoch of a device, when it is this one or the epoch cache holds it (R314). -/
def State.epochOf (s : State) (dev : Nat) : Option Nat :=
  if dev = s.ownId then some (s.reg 0x5000 2) else (s.epochs.find? fun e => e.1 == dev).map (·.2)

/-- Fill the epoch cache: 4,096 devices, the least recently used replaced (R314). -/
def State.cacheEpoch (s : State) (dev v : Nat) : State :=
  { s with epochs := ((dev, v) :: s.epochs.filter fun e => e.1 != dev).take 4096 }

/-- The cached entry of a device becomes the most recently used. -/
def State.touchEpoch (s : State) (dev : Nat) : State :=
  match s.epochs.find? fun e => e.1 == dev with
  | some e => s.cacheEpoch e.1 e.2
  | none => s

/-- The parents of the layer's entries. -/
def State.layerParents (s : State) (p layer : Nat) : List Nat :=
  (((s.layerEntries p layer).filter fun e => eHasParent e.2).map fun e => eParent e.2).eraseDups

/-- The checks of R181 and R246 that need no query. -/
def State.pushRefusals (s : State) (n h : Nat) (k : CmdRun) (ops : List Nat) : List Status :=
  let x := s.ctx n h
  let es := s.layerEntries x.part (opnd ops 1)
  conds [(!x.layers.contains (opnd ops 1), .recipeInvalid),
         (es.any (fun e => eThin e.2 != cFlag k.word 32), .recipeInvalid),
         (es.any (fun e => eEpoch e.2 != s.reg 0x5000 2), .epochMismatch),
         (es.any (fun e => eHasParent e.2 &&
            match s.epochOf (eParent e.2) with | some v => v != eEpoch e.2 | none => false), .epochMismatch)]

/-- One thinned group of 256 values (R240): its sign bits, its scale and the new error memory, which is NaN throughout where
the scale is not finite (R241). -/
def thinGroup (g e : List W32) : List Bool × W32 × List W32 :=
  let a := rowMap2 fadd g e
  let sc := fmul (laneSum (a.map fabs)) 0x3B800000#32
  let bits := a.map fun v => v.msb
  let finite := fld sc.toNat 30 23 != 255
  (bits, sc, (a.zip bits).map fun p => if finite then fsub p.1 (if p.2 then fneg sc else sc) else qnan)

/-- The thinned groups of a run of values. -/
def thinGroups : Nat → List W32 → List W32 → List (List Bool × W32 × List W32)
  | 0, _, _ => []
  | k + 1, g, e => thinGroup (g.take 256) (e.take 256) :: thinGroups k (g.drop 256) (e.drop 256)

/-- The 160 B record of up to four groups (R240). -/
def thinRecord (gs : List (List Bool × W32 × List W32)) : Bytes :=
  let bits := gs.flatMap (·.1)
  sliceZ (outBits bits.length bits) 0 128 ++ sliceZ (unwords32 (gs.map (·.2.1))) 0 16 ++ List.replicate 16 0

/-- Four groups at a time. -/
def fours {α : Type} : Nat → List α → List (List α)
  | 0, _ => []
  | k + 1, l => l.take 4 :: fours k (l.drop 4)

/-- What REDUCE_PUSH reads and writes. -/
def kReducePush (k : CmdRun) (ops : List Nat) : Kernel :=
  let n := opnd ops 0
  if cFlag k.word 32 then
    { ins := [(0, 4 * n, false), (1, 4 * n, false)], outs := [(3, 160 * ceilDiv n 1024), (4, 4 * n)],
      run := fun i r =>
        let g := words32 (i 0)
        let e := words32 (i 1)
        let m := min g.length e.length / 256
        let gs := thinGroups m g e
        if r = 3 then
          (fours (if 256 * m = n then ceilDiv m 4 else m / 4) gs).flatMap thinRecord
        else unwords32 (gs.flatMap (·.2.2)) }
  else
    { ins := [(0, 4 * n, false)], outs := [(3, 4 * n)], run := fun i _ => i 0 }

/-- A query of a context's REDUCE_PUSH is outstanding. -/
def State.querying (s : State) (n h : Nat) : Bool :=
  s.lxs.any fun x => x.2.outst.any fun o => o.2.asker == .epoch n h

/-- Before a REDUCE_PUSH opens, the epochs of its parents must be known (R246, R314). -/
def State.learnEpochs (s : State) (n h : Nat) (k : CmdRun) : State × Bool :=
  let ops := s.opsNow n h k
  if s.querying n h then (s, false)
  else if !(s.pushRefusals n h k ops).isEmpty then (s, true)
  else
    let ps := s.layerParents (s.ctx n h).part (opnd ops 1)
    match ps.find? fun d => (s.epochOf d).isNone with
    | none => (ps.foldl (fun (s : State) d => s.touchEpoch d) s, true)
    | some d =>
      match s.issue { op := 8, dest := d, src := 0, hops := 0 } (.epoch n h) with
      | (s, .refused st) => (s.failCommand n h st, false)
      | (s, _) => (s, false)

/-- REDUCE_PUSH. -/
def State.doReducePush (s : State) (n h : Nat) : State :=
  let x := s.ctx n h
  let s := if x.cmd.isNone && cOp (s.entry n x x.next) == 0x40 && s.mayStart n h then s.beginCmd n h else s
  let go (s : State) : State :=
    s.vector n h 0x40 (fun _ k ops => kReducePush k ops) fun s k ops => s.pushRefusals n h k ops
  match s.running n h with
  | none => s
  | some k =>
    if cOp k.word = 0x40 ∧ !k.open_ then
      match s.learnEpochs n h k with
      | (s, true) => go s
      | (s, false) => s
    else go s

/-- The answer to an epoch query (R314): the cache is filled, and the command goes on; without an answer it completes
with ST_REMOTE_UNREACHABLE. -/
def State.epochAnswer (s : State) (n h dev : Nat) (st : Status) (epoch : Nat) : State :=
  if st = .ok then s.cacheEpoch dev epoch
  else match (s.ctx n h).cmd with
    | some k => if cOp k.word = 0x40 ∧ !k.open_ then s.failCommand n h .remoteUnreachable else s
    | none => s

end Sys2Proof.Machine
end

