-- ==== Sys2Proof/Machine/Pour.lean ====
section
/-! DEFINITION. The pour table and key-value pages (R213 to R231): host commands, grants, the walk and the work list;
staging, flushes, spills and prefetches; and KV_APPEND (R169, R221). -/

namespace Sys2Proof.Machine

/-! ### The table (R217, R218) -/

/-- The pour engine of partition p. -/
def State.pour (s : State) (p : Nat) : Pour := SMap.get {} s.pours p
/-- Write it. -/
def State.setPour (s : State) (p : Nat) (x : Pour) : State := { s with pours := SMap.putD {} p x s.pours }

/-- Local address of entry i of the table. -/
def State.pourAddr (s : State) (i : Nat) : Nat := s.reg 0x9000 0 + 64 * i
/-- The table is in force. -/
def State.pourOn (s : State) : Bool := s.reg 0x9000 0 != 0 && !s.pourOff
/-- Host half of entry i, one 32 B read: zero where it cannot be delivered. -/
def State.hostHalf (s : State) (i : Nat) : Nat := leNat ((s.peek (s.pourAddr i) 32).getD [])
/-- The device half of entry i can be read. -/
def State.entryReads (s : State) (i : Nat) : Bool := (s.peek (s.pourAddr i + 32) 32).isSome
/-- Device half of entry i: FREE where it cannot be delivered (log entry 68). -/
def State.devHalf (s : State) (i : Nat) : Nat := leNat ((s.peek (s.pourAddr i + 32) 32).getD [])
/-- Write the device half of entry i: a request of the pour engine, refused as any other in a cask or on a fenced channel
(R267, R268); a refusal is audited. -/
def State.setDevHalf (s : State) (i v : Nat) : State :=
  match s.writeLocal .pour (s.pourAddr i + 32) (natLe 32 v) with
  | (s, .ok) => s
  | (s, st) => s.condition st s.kdOrigin (detail1 0xFF 0xFF 0xFFFF i)
/-- What a pass over the table finds in its words (R74, R261): corrections, and uncorrectable words, which are audited. -/
def State.scanTable (s : State) : State :=
  let b := s.reg 0x9000 0
  (s.flaws.filter fun e => decide (b ≤ e.1) && decide (e.1 < b + 262144)).foldl (fun (s : State) e =>
    match s.readWord e.1 with
    | (s, true) => s
    | (s, false) => s.condition .eccUncorrectable s.kdOrigin (detail1 0xFF 0xFF 0xFFFF ((e.1 - b) / 64))) s

/-- LEN. -/
def dLen (d : Nat) : Nat := fld d 255 231
/-- GRANT. -/
def dGrant (d : Nat) : Nat := fld d 230 218
/-- WAITED. -/
def dWaited (d : Nat) : Nat := fld d 217 202
/-- STATE: 0 FREE, 1 ACTIVE, 2 PAUSED. -/
def dState (d : Nat) : Nat := fld d 185 184
/-- The device half with another LAST_STATUS. -/
def withLast (d : Nat) (st : Status) : Nat := setFld d 183 176 st.code

/-- The host half that governs entry i: as latched at ACTIVATE unless the entry is FREE (R219). -/
def State.govHalf (s : State) (i : Nat) : Nat :=
  if dState (s.devHalf i) = 0 then s.hostHalf i else SMap.get 0 s.latched i

/-- Owning partition. -/
def hPart (h : Nat) : Nat := fld h 48 41
/-- Owning client. -/
def hClient (h : Nat) : Nat := fld h 40 38
/-- Layer-groups of an entry: layers × groups (R216). -/
def hLG (h : Nat) : Nat := (fld h 66 59 + 1) * (fld h 58 53 + 1)
/-- Staging frames per layer-group, S_f. -/
def hSf (h : Nat) : Nat := fld h 70 67 + 1
/-- BASE_POS. -/
def hBase (h : Nat) : Nat := fld h 111 88
/-- PT_VA. -/
def hPt (h : Nat) : Nat := fld h 255 208
/-- STAGE_VA. -/
def hStage (h : Nat) : Nat := fld h 207 160
/-- DESC_VA. -/
def hDesc (h : Nat) : Nat := fld h 159 112

/-- The entries that partition p owns. One whose device half cannot be read is left alone. -/
def State.pourEntries (s : State) (p : Nat) : List Nat := 
  (List.range 4096).filter fun i => s.entryReads i && hPart (s.govHalf i) == p

/-- Frame bytes of partition p. -/
def State.frameBytes (s : State) (p : Nat) : Nat := s.reg (0x9500 + p) 6

/-- Staging address of page k of layer-group lg of an entry (R220). -/
def stageAddr (h fb lg k : Nat) : Nat := hStage h + (lg * hSf h + k % hSf h) * fb

/-! ### Frames (R214, R227) -/

/-- Pool base of tier t of client c. -/
def State.poolBase (s : State) (p c t : Nat) : Nat := s.reg (0x9600 + p) (16 * c + 2 * t)
/-- Frames of the pool. -/
def State.poolFrames (s : State) (p c t : Nat) : Nat :=
  if s.poolBase p c t = 0 then 0 else s.reg (0x9600 + p) (16 * c + 2 * t + 1)

/-- Frames of a pool that hold a page or receive one, ascending. -/
def Pour.used (x : Pour) (c t : Nat) : List Nat :=
  let a := (x.pages.filter fun g => g.client == c && g.tier == t).map (·.frame)
  let b := (x.copies.filter fun g => g.client == c && g.tier == t).map (·.frame)
  (a ++ b).foldl (fun l f => insertAsc f l) []

/-- Free frames of a pool. -/
def State.freeFrames (s : State) (p c t : Nat) : Nat := s.poolFrames p c t - ((s.pour p).used c t).length

/-- Free frame number k, counted from 0, given the frames in use in ascending order. -/
def nthFree (used : List Nat) (k : Nat) : Nat := used.foldl (fun f u => if u ≤ f then f + 1 else f) k

/-- Allocate a frame of a pool: which of the free ones is the device's choice. -/
def State.takeFrame (s : State) (p c t : Nat) : State × Option Nat :=
  let n := s.freeFrames p c t
  if n = 0 then (s, none)
  else ({ s with free := s.free + 1 }, some (nthFree ((s.pour p).used c t) (Config.frameChoice s.free % n)))

/-- Virtual address of a frame. -/
def State.frameAddr (s : State) (p c t f : Nat) : Nat := s.poolBase p c t + f * s.frameBytes p
/-- Virtual address of the seals of a frame: one 4 B seal per 4 KiB, after the pool's last frame (R214). -/
def State.frameSeals (s : State) (p c t f : Nat) : Nat :=
  s.poolBase p c t + s.poolFrames p c t * s.frameBytes p + f * (s.frameBytes p / 1024)

/-! ### Page-table entries (R215, R216) -/

/-- The page-table entry of a page. -/
def Page.word (g : Page) : Nat := 1 <<< 63 + g.tier <<< 61 + b2n g.moving <<< 60 + g.frame <<< 32 + g.serial

/-- Virtual address of the entry of page k, layer-group lg. -/
def ptAddr (h k lg : Nat) : Nat := hPt h + 8 * (k * hLG h + lg)

/-- A failure of an access of the pour engine for entry i is audited (R373). -/
def State.pourNote (s : State) (p c i : Nat) (st : Status) : State :=
  if st.sticky then s.condition st s.kdOrigin (detail1 p c 0xFFFF i) else s

/-- A write of the pour engine for client c: it leaves now, or behind those that wait; the status of a failure known now. -/
def State.pourWrite (s : State) (p c va : Nat) (bs : Bytes) : State × Option Status :=
  let q := s.pour p
  if !q.due.isEmpty then (s.setPour p { q with due := q.due ++ [(c, va, bs)] }, none)
  else match s.vaWrite p c va bs (.pour p q.nextId) (.pour p q.nextId) with
    | (s, .got _) => (s, none)
    | (s, .sent) => (s.setPour p { s.pour p with sent := q.nextId :: q.sent, nextId := q.nextId + 1 }, none)
    | (s, .wait) => (s.setPour p { s.pour p with due := [(c, va, bs)] }, none)
    | (s, .bad st) => (s, some st)

/-- Writes of the pour engine that wait leave in order, as far as they can. -/
def State.pourFlush (s : State) (p : Nat) : State :=
  let q := s.pour p
  if q.due.isEmpty then s
  else q.due.foldl (fun (s : State) e =>
    match s.pourWrite p e.1 e.2.1 e.2.2 with
    | (s, some st) => s.setPour p { s.pour p with bad := some ((s.pour p).bad.getD st) }
    | (s, none) => s) (s.setPour p { q with due := [] })

/-- Every access of the pour engine has been answered. -/
def Pour.quiet (q : Pour) : Bool := q.due.isEmpty && q.sent.isEmpty

/-- The answer to an access of the pour engine (R222, R224). -/
def State.pourGot (s : State) (p id : Nat) (st : Status) (data : Bytes) : State :=
  let q := s.pour p
  if q.sent.contains id then
    s.setPour p { q with
      sent := q.sent.erase id
      asked := if q.asked = some id then none else q.asked
      got := if q.asked = some id ∧ st = .ok then some data else q.got
      bad := if st = .ok then q.bad else some (q.bad.getD st) }
  else s

/-- Write the page-table entry of a page. -/
def State.putPt (s : State) (p i k lg w : Nat) : State :=
  let h := s.govHalf i
  match s.pourWrite p (hClient h) (ptAddr h k lg) (natLe 8 w) with
  | (s, none) => s
  | (s, some st) => s.pourNote p (hClient h) i st

/-- Change a page's record and its page-table entry. -/
def State.setPage (s : State) (p : Nat) (g : Page) : State :=
  let x := s.pour p
  let s := s.setPour p { x with
    pages := (x.pages.filter fun e => !(e.entry == g.entry && e.page == g.page && e.lg == g.lg)) ++ [g] }
  s.putPt p g.entry g.page g.lg g.word

/-- Write zeros over a client's range, 4 KiB at a time; the first failure is answered. -/
def State.zeroVa (s : State) (p c va : Nat) : List (Nat × Nat) → State × Option Status
  | [] => (s, none)
  | (off, len) :: t =>
    match s.pourWrite p c (va + off) (List.replicate len 0#8) with
    | (s, some st) => (s, some st)
    | (s, none) => s.zeroVa p c va t

/-! ### Copies (R226, R227) -/

/-- Write a copy back into its list. -/
def State.setCopy (s : State) (p : Nat) (x : Copy) : State :=
  let q := s.pour p
  s.setPour p { q with copies := q.copies.map fun e => if e.id == x.id then x else e }

/-- Remove a copy: its destination frame is free unless a page names it. -/
def State.dropCopy (s : State) (p id : Nat) : State :=
  let q := s.pour p
  s.setPour p { q with copies := q.copies.filter fun e => e.id != id }

/-- The virtual address of piece `off` of a copy's source. -/
def Copy.srcAt (x : Copy) (fb off : Nat) : Nat :=
  match x.seals with
  | some v => if fb ≤ off then v + (off - fb) else x.src + off
  | none => x.src + off

/-- Request the pieces of the source that are due. -/
def State.copyReads (s : State) (p : Nat) (x : Copy) : List (Nat × Nat) → State × Copy
  | [] => (s, { x with due := [] })
  | (off, len) :: t =>
    match s.vaRead p x.client (x.srcAt (s.frameBytes p) off) len (.copy p x.id off) (.copy p x.id off) with
    | (s, .got bs) => s.copyReads p { x with got := SMap.put off bs x.got } t
    | (s, .sent) => s.copyReads p { x with out := off :: x.out } t
    | (s, .wait) => (s, { x with due := (off, len) :: t })
    | (s, .bad st) => (s, { x with due := [], bad := some st })

/-- The page bytes read. -/
def Copy.data (x : Copy) (fb : Nat) : Bytes := (x.got.filter fun e => decide (e.1 < fb)).flatMap (·.2)

/-- The seals of a page's 4 KiB blocks (R355). -/
def pageSeals (bs : Bytes) : Bytes := unwords32 ((chunks 4096 bs).map crc32c)

/-- Every block read agrees with its seal (R226). -/
def Copy.sealed (x : Copy) (fb : Nat) : Bool :=
  x.seals.isNone || decide ((x.got.filter fun e => decide (fb ≤ e.1)).flatMap (·.2) = pageSeals (x.data fb))

/-- Write the pieces of the destination that are due: data, then seals. -/
def State.copyWrites (s : State) (p : Nat) (x : Copy) (data : Bytes) : List (Nat × Nat) → State × Copy
  | [] => (s, { x with due := [] })
  | (off, len) :: t =>
    let fb := s.frameBytes p
    let va := if fb ≤ off then s.frameSeals p x.client x.tier x.frame + (off - fb)
      else s.frameAddr p x.client x.tier x.frame + off
    let bs := if fb ≤ off then pageSeals data else slice data off len
    match s.vaWrite p x.client va bs (.copy p x.id off) (.copy p x.id off) with
    | (s, .got _) => s.copyWrites p x data t
    | (s, .sent) => s.copyWrites p { x with out := off :: x.out } data t
    | (s, .wait) => (s, { x with due := (off, len) :: t })
    | (s, .bad st) => (s, { x with due := [], bad := some st })

/-- The pieces of a frame, then its seals. -/
def framePieces (fb : Nat) (seals : Bool) : List (Nat × Nat) :=
  ((List.range (fb / 4096)).map fun i => (4096 * i, 4096)) ++ (if seals then [(fb, fb / 1024)] else [])

/-- Take a copy as far as it goes: read, check, write, wait for acknowledgements. -/
def State.copyRun (s : State) (p : Nat) (x : Copy) : State × Copy :=
  let fb := s.frameBytes p
  let r : State × Copy := if x.stage = 0 then s.copyReads p x x.due else (s, x)
  let x := r.2
  let s := r.1
  if x.bad.isSome || !x.due.isEmpty && x.stage == 0 || !x.out.isEmpty && x.stage == 0 then (s, x)
  else
    let x := if x.stage = 0 then
        (if x.sealed fb then { x with stage := 1, due := framePieces fb true } else { x with bad := some .sealFail })
      else x
    if x.bad.isSome || x.stage != 1 then (s, x)
    else
      let r := s.copyWrites p x (x.data fb) x.due
      let x := r.2
      (r.1, if x.bad.isNone && x.due.isEmpty && x.out.isEmpty then { x with stage := 2 } else x)

/-- The answer to a piece of a copy. -/
def State.copyGot (s : State) (p id off : Nat) (st : Status) (data : Bytes) : State :=
  match (s.pour p).copies.find? fun e => e.id == id with
  | none => s
  | some x =>
    if x.out.contains off then
      let x := { x with out := x.out.erase off }
      s.setCopy p (if st != .ok then { x with bad := some (x.bad.getD st) }
        else if x.stage = 0 then { x with got := SMap.put off data x.got } else x)
    else s

/-- Begin a copy to a frame of the first of some tiers that has one free. -/
def State.beginCopy (s : State) (p : Nat) (x : Copy) : List Nat → State × Bool
  | [] => (s, false)
  | t :: ts =>
    match s.takeFrame p x.client t with
    | (s, some f) =>
      let q := s.pour p
      let x := { x with id := q.nextId, tier := t, frame := f, due := framePieces (s.frameBytes p) x.seals.isSome }
      (s.setPour p { q with copies := q.copies ++ [x], nextId := q.nextId + 1 }, true)
    | (s, none) => s.beginCopy p x ts

/-! ### Flushes (R227) -/

/-- A flush fails: it is owed, and LAST_STATUS names why. -/
def State.flushFails (s : State) (p : Nat) (e : Nat × Nat × Nat) (st : Status) : State :=
  let q := s.pour p
  let s := s.setPour p { q with owed := q.owed ++ [e] }
  (s.setDevHalf e.1 (withLast (s.devHalf e.1) st)).bump 32 (0x8600 + p) 3 1

/-- Begin the flush of a full staging frame: entry, page, layer-group. -/
def State.beginFlush (s : State) (p : Nat) (e : Nat × Nat × Nat) : State :=
  let h := s.govHalf e.1
  let x : Copy := { id := 0, kind := .flush, entry := e.1, page := e.2.1, lg := e.2.2, client := hClient h,
                    src := stageAddr h (s.frameBytes p) e.2.2 e.2.1, seals := none, tier := 0, frame := 0 }
  match s.beginCopy p x [0, 1, 2] with
  | (s, true) => s
  | (s, false) => s.flushFails p e .busy

/-! ### Moves (R226, R228, R229) -/

/-- Begin a move of a page to one of some tiers; the Bool says that it began. -/
def State.beginMove (s : State) (p : Nat) (kind : CopyKind) (g : Page) (tiers : List Nat) : State × Bool :=
  let x : Copy := { id := 0, kind := kind, entry := g.entry, page := g.page, lg := g.lg, client := g.client,
                    src := s.frameAddr p g.client g.tier g.frame, seals := some (s.frameSeals p g.client g.tier g.frame),
                    tier := 0, frame := 0 }
  match s.beginCopy p x tiers with
  | (s, true) => (s.setPage p { g with moving := true }, true)
  | (s, false) => (s, false)

/-- Pages of a tier of a client that are not moving, in ascending FLUSH_SERIAL. -/
def Pour.oldest (x : Pour) (c t : Nat) : Option Page :=
  (x.pages.filter fun g => g.client == c && g.tier == t && !g.moving).foldl (fun best g =>
    match best with
    | some b => if g.serial < b.serial then some g else best
    | none => some g) none

/-- Frames of a tier that spills in flight will free (R228): those of its pages of which a spill is a copy. -/
def Pour.freeing (x : Pour) (c t : Nat) : Nat :=
  (x.pages.filter fun g => g.client == c && g.tier == t && g.moving &&
    x.copies.any fun k => k.kind == .spill && k.entry == g.entry && k.page == g.page && k.lg == g.lg).length

/-- Spill pages of tier t of client c until the marks are met (R228). -/
def State.spillTier (s : State) (p c t : Nat) : Nat → State
  | 0 => s
  | fuel + 1 =>
    if s.reg (0x9500 + p) 8 ≤ s.freeFrames p c t + (s.pour p).freeing c t then s
    else match (s.pour p).oldest c t with
      | none => s
      | some g =>
        match s.beginMove p .spill g (if t = 0 then [1, 2] else [2]) with
        | (s, true) => s.spillTier p c t fuel
        | (s, false) => s

/-- Spills of every client whose free frames are below the low mark (R228). -/
def State.spills (s : State) (p : Nat) : State :=
  (List.range 8).foldl (fun (s : State) c =>
    [0, 1].foldl (fun (s : State) t =>
      if s.poolFrames p c t ≠ 0 ∧ s.freeFrames p c t < s.reg (0x9500 + p) 7 then
        s.spillTier p c t ((s.pour p).pages.length + 1)
      else s) s) s

/-- Prefetch pages in a given order while tier 0 has more free frames than the high mark (R229). -/
def State.prefetch (s : State) (p : Nat) (order : List Page) : State :=
  order.foldl (fun (s : State) g =>
    if s.reg (0x9500 + p) 8 < s.freeFrames p g.client 0 then (s.beginMove p .prefetch g [0]).1 else s) s

/-- The pages of an entry that a prefetch would bring back: ascending page, then layer-group. -/
def Pour.awayPages (x : Pour) (i pages lgs : Nat) : List Page :=
  (List.range pages).flatMap fun k => (List.range lgs).filterMap fun lg =>
    x.pages.find? fun g => g.entry == i && g.page == k && g.lg == lg && g.tier != 0 && !g.moving

/-- FLUSH_COMPLETE (R227): the first flush goes on; once every write is acknowledged the page is in its frame. -/
def State.doFlushComplete (s : State) (p : Nat) : State :=
  let s := s.pourFlush p
  match (s.pour p).copies.find? fun e => e.kind == .flush with
  | none => s
  | some x =>
    match s.copyRun p x with
    | (s, x) =>
      let s := s.setCopy p x
      match x.bad with
      | some st =>
        ((s.dropCopy p x.id).condition st s.kdOrigin (detail1 p x.client 0xFFFF x.entry)).flushFails p
          (x.entry, x.page, x.lg) st
      | none =>
        if x.stage ≠ 2 then s
        else
          let q := s.pour p
          let n := SMap.get 0 q.serials x.client
          let s := s.setPour p { q with serials := SMap.putD 0 x.client ((n + 1) % 2 ^ 32) q.serials }
          let s := s.setDevHalf x.entry (withLast (s.devHalf x.entry) .ok)
          let s := (s.dropCopy p x.id).setPage p ⟨x.entry, x.page, x.lg, x.client, x.tier, x.frame, n, false⟩
          let s := match s.zeroVa p x.client x.src (framePieces (s.frameBytes p) false) with
            | (s, some st) => s.pourNote p x.client x.entry st
            | (s, none) => s
          (s.bump 32 (0x8600 + p) 0 1).spills p

/-- MOVE_COMPLETE (R226): the first move goes on; once every write is acknowledged it waits for the next construction;
a failed one is abandoned. -/
def State.doMoveComplete (s : State) (p : Nat) : State :=
  match (s.pour p).copies.find? fun e => e.kind != .flush && e.stage != 2 with
  | none => s
  | some x =>
    match s.copyRun p x with
    | (s, x) =>
      let s := s.setCopy p x
      let s : State := match x.bad with
        | some st =>
          let page := (s.pour p).pages.find? fun g => g.entry == x.entry && g.page == x.page && g.lg == x.lg
          let s := (s.dropCopy p x.id).condition st s.kdOrigin (detail1 p x.client 0xFFFF x.entry)
          let s := s.bump 32 (0x8600 + p) 3 1
          match page with
          | some g => s.setPage p { g with moving := false }
          | none => s
        | none =>
          if x.stage ≠ 2 then s
          else s.bump 32 (0x8600 + p) (if x.kind == .spill then 1 else 2) 1
      if s.reg (0x9500 + p) 1 = 2 then s.spills p else s

/-! ### Construction (R222) -/

/-- Step 1: moves whose copy is complete switch (R226). -/
def State.switchMoves (s : State) (p : Nat) : State :=
  ((s.pour p).copies.filter fun e => e.kind != .flush && e.stage == 2).foldl (fun (s : State) x =>
    match (s.pour p).pages.find? fun g => g.entry == x.entry && g.page == x.page && g.lg == x.lg with
    | some g => (s.dropCopy p x.id).setPage p { g with tier := x.tier, frame := x.frame, moving := false }
    | none => s.dropCopy p x.id) s

/-- Step 2 for one entry: its grant is committed, and its staging frames that are full are flushed. -/
def State.commitEntry (s : State) (p i : Nat) : State :=
  let d := s.devHalf i
  let g := dGrant d
  if g = 0 then s
  else
    let len := dLen d
    let s := s.setDevHalf i (setFld (setFld d 255 231 (len + g)) 230 218 0)
    let lgs := hLG (s.govHalf i)
    let full := (List.range ((len + g) / 256 - len / 256)).flatMap fun k =>
      (List.range lgs).map fun lg => (i, len / 256 + k, lg)
    full.foldl (fun (s : State) e => s.beginFlush p e) s

/-- A write of v to `pour.step` (R222): refused, or steps 1 and 2. -/
def State.writePourStep (s : State) (p v : Nat) : State × Status :=
  if !s.pourOn || s.reg (0x9500 + p) 5 = 0 || !bit (s.reg (0x9500 + p) 4) 31 then (s, .accessDenied)
  else if s.reg (0x9500 + p) 1 = 1 then (s, .busy)
  else
    let s := (((s.setReg (0x9500 + p) 0 v).setReg (0x9500 + p) 1 1).scanTable).switchMoves p
    let owed := (s.pour p).owed
    let s := s.setPour p { s.pour p with owed := [] }
    let s := owed.foldl (fun (s : State) e => s.beginFlush p e) s
    ((s.pourEntries p).foldl (fun (s : State) i => s.commitEntry p i) s, .ok)

/-- The refusals of an ACTIVATE (R219). -/
def State.activateRefusals (s : State) (h : Nat) : List Status :=
  let p := hPart h
  let c := hClient h
  conds [(fld h 18 0 != 0 || hBase h % 256 != 0 || decide (4096 < fld h 87 75) ||
           !(decide (1 ≤ fld h 52 49) && decide (fld h 52 49 ≤ 4)) || hPt h % 4096 != 0 || hStage h % 4096 != 0 ||
           hDesc h % 4096 != 0, .recipeInvalid),
         (!s.built p || s.poolFrames p c 0 = 0, .accessDenied)]

/-- ACTIVATE of entry i: its fields are latched and its staging frames zero-filled. -/
def State.activate (s : State) (p i : Nat) : State × Status :=
  let h := s.hostHalf i
  match s.activateRefusals h with
  | [] =>
    let fb := s.frameBytes p
    let all := (List.range (hLG h * hSf h)).flatMap fun f => (framePieces fb false).map fun e => (f * fb + e.1, e.2)
    match s.zeroVa p (hClient h) (hStage h) all with
    | (s, some st) => (s, st)
    | (s, none) =>
      let d := setFld (setFld (setFld (setFld (s.devHalf i) 255 231 0) 230 218 0) 217 202 0) 185 184 1
      (({ s with latched := SMap.put i h s.latched }).setDevHalf i d, .ok)
  | sts => (s.beside sts s.kdOrigin (detail1 p (hClient h) 0xFFFF i), lowest sts)

/-- Free the pages, copies and page-table entries of an entry (R219). -/
def State.freeEntry (s : State) (p i : Nat) (clearPt : Bool) : State :=
  let s := if clearPt then
      ((s.pour p).pages.filter fun g => g.entry == i).foldl (fun (s : State) g => s.putPt p i g.page g.lg 0) s
    else s
  let q := s.pour p
  let s := s.setPour p { q with pages := q.pages.filter (fun g => g.entry != i),
                                copies := q.copies.filter (fun g => g.entry != i),
                                owed := q.owed.filter fun e => e.1 != i }
  let d := setFld (setFld (setFld (s.devHalf i) 255 231 0) 230 218 0) 185 184 0
  { (s.setDevHalf i d) with latched := SMap.del i s.latched }

/-- Take the host command of entry i (R219): a status other than ST_OK in LAST_STATUS sets its sticky bit (R373). -/
def State.pourCommand (s : State) (p i : Nat) : State :=
  let h := s.hostHalf i
  let d := s.devHalf i
  if fld h 34 19 = fld d 201 186 then s
  else
    let st := dState d
    let go (s : State) (v : Nat) : State × Status := (s.setDevHalf i (setFld (s.devHalf i) 185 184 v), .ok)
    let r : State × Status :=
      match fld h 37 35 with
      | 0 => (s, .ok)
      | 1 => if st = 0 then s.activate p i else (s, .accessDenied)
      | 2 => if st = 1 then go s 2 else (s, .accessDenied)
      | 3 => if st = 2 then go s 1 else (s, .accessDenied)
      | 4 => if st = 1 ∨ st = 2 then (s.freeEntry p i true, .ok) else (s, .accessDenied)
      | _ => (s, .recipeInvalid)
    (r.1.pourNote p (hClient h) i r.2).setDevHalf i (withLast (setFld (r.1.devHalf i) 201 186 (fld h 34 19)) r.2)

/-- An entry is eligible (R223). -/
def State.eligible (s : State) (p i : Nat) : Bool :=
  let d := s.devHalf i
  dState d == 1 && fld (s.hostHalf i) 87 75 != 0 && !((s.pour p).owed.any fun e => e.1 == i) &&
    decide (hBase (s.govHalf i) + dLen d < 2 ^ 24)

/-- Put an entry into an order: descending PRIO, then descending WAITED, then ascending index (R223). -/
def insertPrio (key : Nat → Nat × Nat) (i : Nat) : List Nat → List Nat
  | [] => [i]
  | j :: t =>
    let a := key i
    let b := key j
    if b.1 < a.1 || (b.1 == a.1 && b.2 < a.2) then i :: j :: t else j :: insertPrio key i t

/-- The grant of an entry with a budget left (R223). -/
def grantOf (h want len left : Nat) : Nat :=
  min (min want (256 * hSf h - len % 256)) (min (2 ^ 24 - hBase h - len) left)

/-- Give the grants of a step: entries in order, budget and sequences left; the granted entries are answered. -/
def State.grants (s : State) (p : Nat) : List Nat → Nat → Nat → State × List Nat
  | [], _, _ => (s, [])
  | i :: t, left, seqs =>
    let d := s.devHalf i
    if left = 0 ∨ seqs = 0 then
      let s := s.setDevHalf i (setFld d 217 202 (min 65535 (dWaited d + 1)))
      (s.bump 32 (0x8600 + p) 4 1).grants p t left seqs
    else
      let g := grantOf (s.govHalf i) (fld (s.hostHalf i) 87 75) (dLen d) left
      let s := s.setDevHalf i (setFld (setFld d 230 218 g) 217 202 0)
      match s.grants p t (left - g) (seqs - 1) with
      | (s, l) => (s, i :: l)

/-- What a step of the walk gives. -/
inductive WalkEnd where
  | addr (k : Nat)     -- the key rows' address of a block
  | done
  | wait               -- an access has still to be issued or answered
  | bad (st : Status)
  deriving DecidableEq, Repr

/-- The key rows' address that a page-table entry gives (R224). -/
def State.pageAddr (s : State) (p c w : Nat) : WalkEnd :=
  if bit w 63 then .addr (s.frameAddr p c (fld w 62 61) (fld w 55 32)) else .bad .accessDenied

/-- The key rows' address of block j of layer-group lg (R224): its page's frame, or its staging frame. A page-table entry on
another device or a host comes later. -/
def State.blockAddr (s : State) (p i lg j : Nat) : State × WalkEnd :=
  let h := s.govHalf i
  let c := hClient h
  let q := s.pour p
  if dLen (s.devHalf i) / 256 ≤ j then (s, .addr (stageAddr h (s.frameBytes p) lg j))
  else match q.got, q.asked with
    | some bs, _ => (s.setPour p { q with got := none }, s.pageAddr p c (leNat bs))
    | none, some _ => (s, .wait)
    | none, none =>
      match s.vaRead p c (ptAddr h j lg) 8 (.pour p q.nextId) (.pour p q.nextId) with
      | (s, .got bs) => (s, s.pageAddr p c (leNat bs))
      | (s, .sent) =>
        (s.setPour p { s.pour p with sent := q.nextId :: q.sent, asked := some q.nextId, nextId := q.nextId + 1 }, .wait)
      | (s, .wait) => (s, .wait)
      | (s, .bad st) => (s, .bad st)

/-- Nothing of an entry is left to write: `done` when every write has been acknowledged (R222), or the failure met. -/
def State.walkSettled (s : State) (p : Nat) : State × List (Nat × Nat) × WalkEnd :=
  let q := s.pour p
  if !q.quiet then (s, [], .wait)
  else match q.bad with
    | none => (s, [], .done)
    | some st => (s.setPour p { q with bad := none }, [], .bad st)

/-- An access of the walk of an entry failed with a status. -/
def State.walkFails (s : State) (p : Nat) (st : Status) : State × List (Nat × Nat) × WalkEnd :=
  (s.setPour p { s.pour p with bad := some st }).walkSettled p

/-- Write the descriptors of an entry (R224): a list of layer-group and block. It answers what is left to do. -/
def State.walkBlocks (s : State) (p i nb : Nat) : List (Nat × Nat) → State × List (Nat × Nat) × WalkEnd
  | [] => s.walkSettled p
  | (lg, j) :: t =>
    if (s.pour p).bad.isSome then s.walkSettled p
    else if !(s.pour p).due.isEmpty then (s, (lg, j) :: t, .wait)
    else
      match s.blockAddr p i lg j with
      | (s, .bad st) => s.walkFails p st
      | (s, .addr k) =>
        let h := s.govHalf i
        let w := ((k + s.frameBytes p / 2) / 4096 % 2 ^ 32) <<< 32 + k / 4096 % 2 ^ 32
        (match s.pourWrite p (hClient h) (hDesc h + 8 * (lg * nb + j)) (natLe 8 w) with
          | (s, some st) => s.walkFails p st
          | (s, none) => s.walkBlocks p i nb t)
      | (s, _) => (s, (lg, j) :: t, .wait)

/-- Blocks of each layer-group list of entry i. -/
def State.blocksOf (s : State) (i : Nat) : Nat := ceilDiv (dLen (s.devHalf i) + dGrant (s.devHalf i)) 256

/-- The layer-groups and blocks of entry i, in the order of the walk. -/
def State.walkList (s : State) (i : Nat) : List (Nat × Nat) :=
  (List.range (hLG (s.govHalf i))).flatMap fun lg => (List.range (s.blocksOf i)).map fun j => (lg, j)

/-- Entry i has been walked: its LAST_STATUS (R218), and its work-list record, or none when it is left out (R224, R225). -/
def State.walkEntry (s : State) (p i : Nat) : WalkEnd → State × List (Nat × Nat)
  | .bad st =>
    let s := s.setDevHalf i (withLast (setFld (s.devHalf i) 230 218 0) st)
    (s.condition st s.kdOrigin (detail1 p (hClient (s.govHalf i)) 0xFFFF i), [])
  | _ =>
    let d := s.devHalf i
    let r := s.blocksOf i <<< 88 + dGrant d <<< 75 + (hBase (s.govHalf i) + dLen d) <<< 51 + i
    (s.setDevHalf i (withLast d .ok), [(i, r)])

/-- Walk entries in selection order as far as they go; `first` is what the first of them has still to do. -/
def State.walkAll (s : State) (p : Nat) : Option (List (Nat × Nat)) → List Nat → State × Walk
  | _, [] => (s, { todo := [] })
  | first, i :: t =>
    match s.walkBlocks p i (s.blocksOf i) (first.getD (s.walkList i)) with
    | (s, rest, .wait) => (s, { todo := i :: t, blocks := some rest })
    | (s, _, e) =>
      match s.walkEntry p i e with
      | (s, r) => match s.walkAll p none t with | (s, w) => (s, { w with recs := r ++ w.recs })

/-- Steps 3 and 4 (R219, R223): host commands, selection and grants; the walk is due. -/
def State.beginWalk (s : State) (p : Nat) : State :=
  let s := s.scanTable
  let s := (s.pourEntries p).foldl (fun (s : State) i => s.pourCommand p i) s
  let el := (s.pourEntries p).filter (s.eligible p)
  let key (i : Nat) : Nat × Nat := (fld (s.hostHalf i) 74 71, dWaited (s.devHalf i))
  let order := el.foldl (fun l i => insertPrio key i l) []
  match s.grants p order (s.reg (0x9500 + p) 2) (s.reg (0x9500 + p) 3) with
  | (s, granted) => s.setPour p { s.pour p with walk := some { todo := granted } }

/-- The work list (R225), and step 6: spills and prefetches begin, the barrier is arrived at, and the step is released. -/
def State.releaseStep (s : State) (p : Nat) (recs : List (Nat × Nat)) : State :=
  let s := s.setPour p { s.pour p with walk := none }
  let step := s.reg (0x9500 + p) 0
  let head := natLe 16 (step <<< 96 + recs.length)
  let s := match s.writeLocal .pour (s.reg (0x9500 + p) 5) (head ++ recs.flatMap fun r => natLe 16 r.2) with
    | (s, .ok) => s
    | (s, st) => s.condition st s.kdOrigin (detail1 p 0xFF 0xFFFF 0)
  let s := s.spills p
  let away := recs.flatMap fun r =>
    (s.pour p).awayPages r.1 (dLen (s.devHalf r.1) / 256) (hLG (s.govHalf r.1))
  let s := s.prefetch p away
  let b := s.reg (0x9500 + p) 4
  let s := s.arriveAt (fld b 29 24) (fld b 23 16)
  (s.setReg (0x9500 + p) 1 2).complete { kind := 2, status := .ok, part := p, client := 0, data := step }

/-- A failure among the accesses made before the walk is audited; it names no entry. -/
def State.settlePour (s : State) (p : Nat) : State :=
  match (s.pour p).bad with
  | some st => (s.setPour p { s.pour p with bad := none }).pourNote p 0xFF 0 st
  | none => s

/-- The walk goes on from where it stood (R224); with every entry walked the step is released. -/
def State.goOnWalk (s : State) (p : Nat) (w : Walk) : State :=
  match s.walkAll p w.blocks w.todo with
  | (s, w') =>
    let w := { w' with recs := w.recs ++ w'.recs }
    if w.todo.isEmpty && (s.pour p).quiet then s.releaseStep p w.recs else s.setPour p { s.pour p with walk := some w }

/-- POUR_RELEASE (R222 steps 3 to 6): once every flush has completed or failed. The release waits until every write has been
acknowledged; until then the row takes the construction as far as it goes. -/
def State.doPourRelease (s : State) (p : Nat) : State :=
  if s.reg (0x9500 + p) 1 ≠ 1 ∨ ((s.pour p).copies.any fun e => e.kind == .flush) then s
  else
    let s := s.pourFlush p
    let s := if (s.pour p).walk.isSome then s else s.beginWalk p
    match (s.pour p).walk with
    | none => s
    | some w =>
      if w.blocks.isNone && w.recs.isEmpty && !(s.pour p).quiet then s
      else (if w.blocks.isNone then s.settlePour p else s).goOnWalk p w

/-- Writing `pour.table_base` zero-fills the table (R217), a 4 KiB block at a time: a block in the cask or on a fenced channel
is not written, which is audited (R267, R268). The generation counters of the granules keep their values: R88 names the
zero-fill neither among the writes that advance them nor among those that do not (DESIGN CHOICE, log entry 22). -/
def State.zeroTable (s : State) (base : Nat) : State :=
  if base = 0 then s
  else
    let s := (List.range 64).foldl (fun (s : State) i =>
      let a := base + 4096 * i
      match (s.popStatus a 4096).or (if s.inCask a 4096 || s.inMirror a 4096 then some .accessDenied else none) with
      | some st => s.condition st s.kdOrigin (detail1 0xFF 0xFF 0xFFFF (64 * i))
      | none =>
        let inn (x : Nat) : Bool := decide (a ≤ x) && decide (x < a + 4096)
        { s with mem := SMap.delIf inn s.mem, poison := s.poison.filter fun w => !inn w, flaws := SMap.delIf inn s.flaws }) s
    { s with latched := [] }

/-- The dissolve of a partition: its entries become FREE and their frames are released (R219, R342). -/
def State.dropPour (s : State) (p : Nat) : State :=
  let s := if s.pourOn then
      ((s.pourEntries p).filter fun i => dState (s.devHalf i) != 0).foldl (fun (s : State) i => s.freeEntry p i false) s
    else s
  s.setPour p {}

/-! ### KV_APPEND (R169, R221) -/

/-- The checks of KV_APPEND, in order (R221). -/
def State.kvRefusals (s : State) (n h : Nat) (k : CmdRun) (ops : List Nat) : List Status :=
  let p := (s.ctx n h).part
  let i := opnd ops 0
  let t := opnd ops 1
  let pos := opnd ops 2
  let g := s.govHalf i
  let d := s.devHalf i
  let b := fmtBits (cFmtOut k.word) / 8
  match firstFail [
    (!s.pourOn || decide (4095 < i) || dState d != 1 || hPart g != p, .accessDenied),
    (s.reg (0x9500 + p) 1 == 1, .busy),
    (cFmtOut k.word != fld g 52 49 || opnd ops 3 * b != s.frameBytes p / 512, .accessDenied),
    (decide (pos < hBase g + dLen d) || decide (hBase g + dLen d + dGrant d < pos + t), .accessDenied),
    (decide (256 < pos % 256 + t), .accessDenied)] with
  | some st => [st]
  | none => []

/-- KV_APPEND: the converted key rows, then the converted value rows. -/
def kKvAppend (k : CmdRun) (ops : List Nat) : Kernel :=
  let w := k.word
  let n := opnd ops 1 * opnd ops 3
  let mode (_ : Nat) : Mode := modeOf (cMode w) 0 0 0 0
  { ins := [(0, roleBytes (cFmtA w) n, false), (1, roleBytes (cFmtA w) n, false)],
    outs := [(3, 2 * roleBytes (cFmtOut w) n)],
    run := fun i _ =>
      let part (r : Nat) : Bytes :=
        convElems (cFmtOut w) mode (firstElems (cFmtA w) n (availElems (cFmtA w) n (i r)) (i r))
      if availElems (cFmtA w) n (i 0) = n then part 0 ++ part 1 else part 0 }

def State.doKvAppend (s : State) (n h : Nat) : State :=
  s.vector n h 0x1B (fun _ k ops => kKvAppend k ops) fun s k ops => s.kvRefusals n h k ops

end Sys2Proof.Machine
end

