-- ==== Sys2Proof/Machine/Lpddr.lean ====
section
/-! DEFINITION. Memory upkeep: scrubbers (R75, R261), maintenance reads (R82), refresh polls (R265), LPDDR5X training
and zero-fill at P4 (R256 to R258, R266, R476), and the start-up phases as far as they need them (R410). -/

namespace Sys2Proof.Machine

/-! ### Phases (R410, R413) -/

/-- The device has halted in its phase. -/
def State.haltedBoot (s : State) : Bool := bit (s.reg 0x2030 0) 7
/-- The shutdown latch is set. -/
def State.latch (s : State) : Bool := bit (s.reg 0x2030 0) 6

/-- Phase k is in progress and the device has not halted. -/
def State.inPhase (s : State) (k : Nat) : Bool := s.phase == k && !s.haltedBoot

/-- Enter a phase; the milliseconds of the one left are recorded (R418). -/
def State.setPhase (s : State) (k : Nat) : State :=
  let old := s.phase
  let ms := (s.localNs - s.power.phaseAt) / 1000000
  let s := s.setReg 0x2030 2 (setFld (s.reg 0x2030 2) (32 * old + 31) (32 * old) (min ms (2 ^ 32 - 1)))
  let s := s.setReg 0x2030 0 (setFld (s.reg 0x2030 0) 2 0 k)
  { s with power := { s.power with phaseAt := s.localNs } }

/-- A halt (R413): `HALTED` and an audit record. -/
def State.haltBoot (s : State) (st : Status) (subject : Nat := 0) : State :=
  (s.setReg 0x2030 0 (setFld (s.reg 0x2030 0) 7 7 1)).condition st s.kdOrigin (detail1 0xFF 0xFF 0xFFFF subject)

/-- MOD_ALERT_N is asserted: in a halt, and while the shutdown latch is set (R413, R415, R417). -/
def State.modAlert (s : State) : Bool := s.haltedBoot || s.latch

/-! ### Scrubbers (R75, R261) -/

/-- A scrubber visits one word: a correctable error is corrected and counted; an uncorrectable one is poisoned, counted
and sets the sticky bit. -/
def State.scrubWord (s : State) (u detail : Nat) (w : Nat) : State :=
  if s.poisoned w then s
  else match s.flawOf w with
    | 0 => s
    | 1 => (s.readWord w).1
    | _ => (s.foundBad w).condition .eccUncorrectable (unitOrigin u) detail

/-- SP_SCRUB_VISIT: the next row of every bank. -/
def State.doSpScrub (s : State) (n : Nat) : State :=
  if !s.presented n then s
  else
    let row := (s.core n).scrubRow
    let ws := (List.range 32).flatMap fun b => (List.range 4).map fun i => spBase n + b * 0x3000 + row * 32 + 8 * i
    (ws.foldl (fun (s : State) w => s.scrubWord (n / 256) (detail1 0xFF 0xFF n 0) w) s).modCore n fun c =>
      { c with scrubRow := (row + 1) % 384 }

/-- The tun offset of byte x of a bank (R83). -/
def tunOffset (bank x : Nat) : Nat := (x / 4096) * 65536 + bank * 4096 + x % 4096

/-- TUN_SCRUB_VISIT: the next 1 KiB row of a bank; rows of retired segments are passed over. -/
def State.doTunScrub (s : State) (d t : Nat) : State :=
  if s.fused d || s.fencedDie d then s
  else
    let row := SMap.get 0 s.tunRows (d * 16 + t)
    let off := tunOffset t (row * 1024)
    let ws := if s.reg (0x3180 + d) (off / 0x400000) = 2 then []
      else (List.range 128).map fun i => tunBase d + off + 8 * i
    let s := ws.foldl (fun (s : State) w => s.scrubWord d (detail1 0xFF 0xFF 0xFFFF (off / 0x400000)) w) s
    { s with tunRows := SMap.putD 0 (d * 16 + t) ((row + 1) % 45056) s.tunRows }

/-- The first address of layer j (R258). -/
def State.layerBase (s : State) (j : Nat) : Nat := ((List.range j).map fun i => (s.layer i).length * chBytes).sum

/-- The local address of a channel address, the inverse of the decode of R258; none for a channel outside the map. -/
def State.lpEncode (s : State) (p c ca : Nat) : Option Nat :=
  let good := s.goodChannels p
  match good.findIdx? (· == c) with
  | none => none
  | some i =>
    let inn := ((ca / 256) * good.length + i) * 256 + ca % 256
    let j := inn / chBytes
    let l := s.layer j
    (l.findIdx? (· == p)).map fun k =>
      s.layerBase j + (((inn % chBytes) / 4096) * l.length + k) * 4096 + inn % 4096

/-- LPDDR_SCRUB_VISIT: the next word of a channel. -/
def State.doLpScrub (s : State) (p c : Nat) : State :=
  let k := SMap.get 0 s.lpWords (p * 8 + c)
  match s.lpEncode p c (32 * k) with
  | none => s
  | some a =>
    let s := s.scrubWord (64 + p) (detail1 0xFF 0xFF 0xFFFF (p * 8 + c)) a
    { s with lpWords := SMap.putD 0 (p * 8 + c) ((k + 1) % (chBytes / 32)) s.lpWords }

/-! ### Maintenance reads (R82) -/

/-- The parameters of a maintenance read lie in their ranges. -/
def maintOk (r : MaintRead) : Bool :=
  [1, 2, 4, 8].contains r.elemBytes && decide (1 ≤ r.rows ∧ r.rows ≤ 384 ∧ 1 ≤ r.cols ∧ r.cols ≤ 384)

/-- The offsets of the elements, in the order in which they are emitted. -/
def maintOffsets (r : MaintRead) : List Nat :=
  let at_ (i j : Nat) : Nat := r.start + i * r.rowStride + j * r.colStride
  if r.transpose then (List.range r.cols).flatMap fun j => (List.range r.rows).map fun i => at_ i j
  else (List.range r.rows).flatMap fun i => (List.range r.cols).map fun j => at_ i j

/-- Core n is in maintenance mode (R82): during P5, and while a kiln slice isolates it. Recovery from a fault, which is the
retirement of R362, holds the core in it only inside one step. -/
def State.inMaint (s : State) (n : Nat) : Bool := (s.core n).maint || s.inPhase 5

/-- Read the elements in order, up to the first that fails. An element outside the core's own aperture is refused as one at
an unpopulated offset is (R70, R82). -/
def State.maintElems (s : State) (n len : Nat) : List Nat → State × Status × Bytes
  | [] => (s, .ok, [])
  | o :: t =>
    if 0x80000 < o + len then (s, .accessDenied, [])
    else match s.readLocal (spBase n + o) len with
    | (s, .ok, bs) =>
      match s.maintElems n len t with
      | (s, .ok, rest) => (s, .ok, bs ++ rest)
      | r => r
    | (s, st, _) => (s, st, [])

/-- MAINTENANCE_READ: refused with ST_BUSY while the core is in service. A status other than ST_OK and ST_BUSY is recorded,
with its sticky bit; the read belongs to no client, so no fault record is posted (R6, R74, R373). -/
def State.doMaintRead (s : State) (n : Nat) (r : MaintRead) : State :=
  let refuse (s : State) (st : Status) : State :=
    { s.condition st (unitOrigin (n / 256)) (detail1 0xFF 0xFF n 0) with maintOut := some (st, []) }
  if s.fused (n / 256) then refuse s .engineAbsent
  else if !s.inMaint n then { s with maintOut := some (.busy, []) }
  else if !maintOk r then refuse s .accessDenied
  else match s.maintElems n r.elemBytes (maintOffsets r) with
    | (s, .ok, bs) => { s with maintOut := some (.ok, bs) }
    | (s, st, _) => refuse s st

/-! ### Refresh (R262, R265) -/

/-- REFRESH_POLL: the multiplier follows the readout, and the channels' write link errors are counted. -/
def State.doRefreshPoll (s : State) (m readout : Nat) (errs : List Nat) : State :=
  let old := s.reg 0x3030 m
  let s := s.setReg 0x3030 m readout
  let s := if readout = 5 ∧ old ≠ 5 then s.condition .ok (unitOrigin (64 + m)) (detail1 0xFF 0xFF 0xFFFF m) else s
  ((errs.take 8).zipIdx).foldl (fun (s : State) e => s.bump 32 (0x8820 + m) e.2 e.1) s

/-! ### P4: training, map, zero-fill (R256 to R258, R266, R476) -/

/-- LPDDR_TRAINING_DONE: channels that failed training, and those of packages whose MX die is fenced, are retired; the
map is built and the usable capacity published; the packages' identities are recorded. -/
def State.doTraining (s : State) (failed : List (Nat × Nat)) (ids : List Nat) : State :=
  if s.inPhase 4 && !s.power.trained then
    let dead := (List.range 16).filter fun p => s.fencedDie (64 + p)
    let bad := failed ++ dead.flatMap fun p => (List.range 8).map fun c => (p, c)
    let s := bad.foldl (fun (s : State) e => if bit (s.reg 0x3010 e.1) e.2 then s else s.retireChannel e.1 e.2 false) s
    let s := ((ids.take 16).zipIdx).foldl (fun (s : State) e => s.setReg 0x1013 e.2 e.1) s
    let s := s.setReg 0x3000 0 s.lpUsable
    { s with power := { s.power with trained := true } }
  else s

/-- What R476 finds of a structure [base, base + len): none when its placement stands. -/
def State.placement (s : State) (base len : Nat) : Option Status :=
  if base + len ≤ s.reg 0x3000 0 then none
  else if base + len ≤ 0xF000000000 then some .unitRetired
  else some .accessDenied

/-- The record of a disabled structure (R476): 1 cask, 2 pour table, 3 audit mirror. -/
def State.misplaced (s : State) (k : Nat) (st : Status) : State :=
  s.condition st s.kdOrigin (detail1 0xFF 0xFF 0xFFFF k)

/-- The cask is checked at P4 (R268, R476). -/
def State.checkCask (s : State) : State :=
  if s.reg 0x3040 1 = 0 then s.setReg 0x3040 2 0
  else match s.placement (s.reg 0x3040 0) (s.reg 0x3040 1) with
    | none => s.setReg 0x3040 2 1
    | some st => (s.setReg 0x3040 2 0).misplaced 1 st

/-- The pour table is checked at P4 (R217, R476): 4,096 entries of 64 B. -/
def State.checkPour (s : State) : State :=
  if s.reg 0x9000 0 = 0 then { s with pourOff := false }
  else match s.placement (s.reg 0x9000 0) 0x40000 with
    | none => { s with pourOff := false }
    | some st => ({ s with pourOff := true } : State).misplaced 2 st

/-- The bytes of the audit ring, by slot, as far as records have been written (R462). -/
def State.auditRing (s : State) : List (Nat × Nat) :=
  (s.dict.filter fun e => decide (0x120000 ≤ e.1) && decide (e.1 < 0x130000)).map fun e => (e.1 - 0x120000, e.2)

/-- The audit mirror is checked at P4 and refilled from the KD ring (R462, R476). -/
def State.checkMirror (s : State) : State :=
  let b := s.reg 0x1100 2
  let len := 64 * Config.auditSlots
  if b = 0 then s.setReg 0x1100 3 0
  else
    let clash := s.reg 0x3040 2 == 1 && overlap b len (s.reg 0x3040 0) (s.reg 0x3040 1)
    match (s.placement b len).toList ++ (if clash then [Status.accessDenied] else []) with
    | st :: sts => (s.setReg 0x1100 3 0).misplaced 3 (lowest (st :: sts))
    | [] =>
      (s.auditRing.foldl (fun (s : State) e => (s.writeMem (b + 64 * e.1) (natLe 64 e.2)).1) s).setReg 0x1100 3 1

/-- A local address lies in the LPDDR5X range. -/
def inLpddr (a : Nat) : Bool := decide (a < 0x10000000000)

/-- ZERO_FILL_DONE: every usable byte reads zero, no word is poisoned, every generation counter is 0; the structures of
R476 are checked; P5 begins. -/
def State.doZeroFill (s : State) : State :=
  if s.inPhase 4 && s.power.trained then
    let s : State := { s with
      mem := s.mem.filter fun e => !inLpddr e.1, poison := s.poison.filter fun w => !inLpddr w,
      flaws := s.flaws.filter fun e => !inLpddr e.1, gens := s.gens.filter fun e => !inLpddr (e.1 * 65536) }
    s.checkCask.checkPour.checkMirror.setPhase 5
  else s

end Sys2Proof.Machine
end

