-- ==== Sys2Proof/Machine/Windows.lean ====
section
/-! DEFINITION. Invalidation (R278), resume requests (R280, R281), remote-access windows (R284 to R289), and writes
whose reply follows later. -/

namespace Sys2Proof.Machine

/-- What the handler of a dictionary write answers: a status now, or one that follows later. -/
inductive WriteResult where
  | done (st : Status)
  | later (what : WaitOn) (left : List (Nat × Nat × Nat × Nat))
  deriving DecidableEq, Repr

/-! ### Translation roots (R274, R293) -/

/-- A context of a client is loaded: not EMPTY, live or saved. -/
def State.clientLoaded (s : State) (p c : Nat) : Bool :=
  (s.saved.any fun v => v.part == p && v.client == c) ||
    s.cores.any fun k => k.2.ctxs.any fun x => x.2.part == p && x.2.client == c && x.2.state != .empty

/-- A write of `xlate.root`. -/
def State.writeRoot (s : State) (p c v : Nat) : State × Status :=
  if v ≠ 0 ∧ (v % 4096 ≠ 0 ∨ s.reg 0x3000 0 < v + 4096) then (s, .accessDenied)
  else if s.clientLoaded p c then (s, .busy)
  else (s.setReg (0x3800 + p) c v, .ok)

/-! ### Invalidation (R278, R293) -/

/-- The virtual range that an invalidation names: first byte and length. -/
def invRange (v : Nat) : Nat × Nat :=
  if fld v 63 48 = 0 then (0, 2 ^ 48) else (fld v 47 16 * 65536, fld v 63 48 * 65536)

/-- The virtual range of a TLB entry. -/
def TlbE.range (e : TlbE) : Nat × Nat := if e.big then (e.vpn * 2 ^ 21, 2 ^ 21) else (e.vpn * 65536, 65536)

/-- A context number of a core belongs to a client. -/
def Core.ofClient (k : Core) (p c h : Nat) : Bool := (k.ctx h).part == p && (k.ctx h).client == c

/-- The TLB entries of a client that an invalidation drops on a core: those that overlap its range. -/
def Core.tlbHit (k : Core) (p c : Nat) (r : Nat × Nat) (e : TlbE) : Bool :=
  k.ofClient p c e.ctx && overlap e.range.1 e.range.2 r.1 r.2

/-- The place in `left` of a translation that a stream's pass has resolved, where a request has its slot offset. -/
def pageMark : Nat := 0x80000

/-- The pages of a stream's pass that lie in a range: its requests still go there (R114). -/
def Stream.passPages (y : Stream) (rs : List (Nat × Nat)) : List Nat :=
  (y.resolved.filter fun e => rs.any fun g => overlap (e.1 / 2 * 65536) 65536 g.1 g.2).map (·.1)

/-- What was translated for a client's streams by entries in a range, or by a dropped entry, and is not over: requests in flight,
and the pages that a pass has resolved. -/
def State.inFlight (s : State) (p c : Nat) (r : Nat × Nat) : List (Nat × Nat × Nat × Nat) :=
  s.cores.flatMap fun k =>
    let rs := r :: (k.2.tlb.filter (k.2.tlbHit p c r)).map TlbE.range
    k.2.streams.flatMap fun e =>
      if k.2.ofClient p c e.2.ctx then
        ((e.2.reqs.filter fun q => rs.any fun g => overlap q.va q.len g.1 g.2).map fun q => (k.1, e.1, q.va, q.off)) ++
          (e.2.passPages rs).map fun i => (k.1, e.1, i, pageMark)
      else []

/-- A write of `xlate.invalidate`: the TLB entries of the client that overlap the range are dropped; the reply waits for
the requests that they translated. A context that has become EMPTY has left no entry (`State.vacateCtx`). -/
def State.writeInvalidate (s : State) (p c v : Nat) : State × WriteResult :=
  let r := invRange v
  let left := s.inFlight p c r
  let drop (k : Core) : Core := { k with tlb := k.tlb.filter fun e => !k.tlbHit p c r e }
  ({ s with cores := s.cores.map fun (k : Nat × Core) => (k.1, drop k.2) }, .later (.invalidate p c) left)

/-- A request that an invalidation waits for is still in flight, or still to come from a pass. -/
def State.stillFlying (s : State) (q : Nat × Nat × Nat × Nat) : Bool :=
  match s.stream q.1 q.2.1 with
  | some y =>
    if q.2.2.2 = pageMark then y.resolved.any fun e => e.1 == q.2.2.1
    else y.reqs.any fun r => r.va == q.2.2.1 && r.off == q.2.2.2
  | none => false

/-! ### Resume requests (R280, R281) -/

/-- The pending fault of a stream with a record number. -/
def faultOf (m : SMap Stream) (h k seq : Nat) : Option (Stream × PFault) :=
  match SMap.find? k m with
  | some y =>
    match y.fault with
    | some f => if y.ctx = h ∧ f.seq = seq then some (y, f) else none
    | none => none
  | none => none

/-- A FAULT_HELD context goes on once its suspended stream is resolved (R138). -/
def State.unhold (s : State) (n h : Nat) : State :=
  s.modCtx n h fun x => { x with state := if x.state == .faultHeld then .running else x.state }

/-- RETRY on a live stream: it walks again from level 0 and re-executes its slot from the checkpoint. -/
def State.retryStream (s : State) (n k va : Nat) (y : Stream) : State :=
  let s := s.modCore n fun c => { c with tlb := c.tlb.filter fun e =>
    !(e.ctx == y.ctx && decide (e.range.1 ≤ va) && decide (va < e.range.1 + e.range.2)) }
  let s := (s.setStream n k { y with phase := .running, fault := none }).unhold n y.ctx
  match s.readResident n k with
  | (s, none) => s
  | (s, some st) => s.stopStream n k st

/-- A write of `xlate.resume` for client c of partition p. -/
def State.writeResume (s : State) (p c v : Nat) : State × Status :=
  let n := fld v 13 0
  let h := fld v 15 14
  let k := fld v 19 16
  let seq := fld v 35 20
  let retry := !bit v 36
  if !s.coreIn p n then (s, .accessDenied)
  else match s.savedOf n h p c with
    | some x =>
      match faultOf x.streams h k seq with
      | none => (s, .accessDenied)
      | some (y, f) =>
        let x' := { x with streams := SMap.put k { y with fault := some { f with resume := some retry } } x.streams }
        ({ s with saved := s.saved.map fun z => if z = x then x' else z }, .ok)
    | none =>
      if !(s.core n).ofClient p c h then (s, .accessDenied)
      else match faultOf (s.core n).streams h k seq with
        | none => (s, .accessDenied)
        | some (y, f) =>
          if retry then (s.retryStream n k f.va y, .ok) else ((s.unhold n h).stopStream n k .accessDenied, .ok)

/-! ### Windows (R284) -/

/-- Write the descriptor of window w. -/
def State.setWin (s : State) (w v : Nat) : State := s.setReg (0x3B00 + w / 256) (w % 256) v
/-- A write of a window descriptor: STATE and INCARNATION keep their values (R284). -/
def State.writeWin (s : State) (w v : Nat) : State × Status :=
  let old := s.win w
  if winState old ≠ 0 then (s, .busy) else (s.setWin w (setFld v 225 208 (fld old 225 208)), .ok)

/-- Two source sets share a source. -/
def winShare (a b : Nat) : Bool :=
  bit a 173 == bit b 173 && decide (fld a 190 174 ≤ fld b 207 191) && decide (fld b 190 174 ≤ fld a 207 191)

/-- The range of a descriptor lies in what its partition may open (R285): within LPDDR5X, within the partition's tun
segments, or within the arrival addresses of the partition's objects. ARRIVE goes with the last alone. -/
def State.winRangeOk (s : State) (d : Nat) : Bool :=
  let b := winBase d
  let len := winLen d
  match place b with
  | .lpddr => !bit d 172 && decide (b + len ≤ 0x10000000000)
  | .tun die off => !bit d 172 && decide (off + len ≤ tunLen) && s.segsOwned (winPart d) die off len
  | .arrival .. =>
    bit d 172 && decide (b + len ≤ 0x13000400000) &&
      (List.range (len / 256)).all fun i =>
        let o := (b - 0x13000000000) / 256 + i
        (s.barrier (o / 256) (o % 256)).owner == some (winPart d)
  | _ => false

/-- The third stage of an open (R285). -/
def State.winBad (s : State) (w d : Nat) : Bool :=
  fld d 255 226 != 0 || fld d 77 0 != 0 || winLen d == 0 ||
  (bit d 173 && (fld d 207 191 != fld d 190 174 || decide (3 < fld d 190 174))) ||
  !s.built (winPart d) || s.reg (0x4100 + winPart d) (winClient d) == 0 ||
  fld d 172 170 == 0 || !s.winRangeOk d ||
  windows.any fun v =>
    let e := s.win v
    v != w && winState e != 0 && winShare d e && overlap (winBase d) (winLen d) (winBase e) (winLen e)

/-- Open window w (R285, R288): the status, and the descriptor's new state and incarnation. -/
def State.openWindow (s : State) (w : Nat) : State × Status :=
  let d := s.win w
  if winState d ≠ 0 then (s, .busy)
  else if (match SMap.find? w s.winShut with
      | some t => decide (s.localNs - t < s.reg 0x3C00 1 * 1000)
      | none => false) then (s, .busy)
  else if s.winBad w d then (s, .accessDenied)
  else (s.setWin w (setFld (setFld d 225 224 1) 223 208 ((winInc d + 1) % 65536)), .ok)

/-- Close window w (R287): OPEN becomes CLOSING, and each link die fixes its close point within 5 µs; a close of a CLOSING
window joins it. -/
def State.closeWindow (s : State) (w : Nat) : State × WriteResult :=
  let d := s.win w
  match winState d with
  | 0 => (s, .done .ok)
  | 1 =>
    ({ s.setWin w (setFld d 225 224 2) with winClose := SMap.put w (s.localNs, s.free) s.winClose, free := s.free + 1 },
     .later (.window w) [])
  | _ => (s, .later (.window w) [])

/-- A write of `win.ctl` (R293). -/
def State.writeWinCtl (s : State) (v : Nat) : State × WriteResult :=
  match fld v 31 30 with
  | 1 => match s.openWindow (fld v 11 0) with | (s, st) => (s, .done st)
  | 2 => s.closeWindow (fld v 11 0)
  | _ => (s, .done .accessDenied)

/-- The close of a window completes: it is CLOSED, and an audit record is written (R287). -/
def State.shutWindow (s : State) (w : Nat) : State :=
  let d := s.win w
  if winState d ≠ 2 then s
  else
    let s := (s.setWin w (setFld d 225 224 0)).condition .ok s.kdOrigin (detail1 (winPart d) (winClient d) 0xFFFF w)
    { s with winShut := SMap.put w s.localNs s.winShut, winClose := SMap.del w s.winClose }

/-- Admission of a remote request that arrives at local time `at_`, at link die `x` when it comes over the fabric (R286): the
status of its refusal, or ST_OK. Refusals are counted. -/
def State.admitRemote (s : State) (src : WinSrc) (x : Option Nat) (at_ a len : Nat) (r : WinRight) : State × Status :=
  match s.admission src x at_ a len r with
  | .ok => (s, .ok)
  | .windowClosed => (s.bump 32 0x8902 0 1, .windowClosed)
  | st => (s.bump 32 0x8902 1 1, st)

end Sys2Proof.Machine
end

