-- ==== Sys2Proof/Machine/Links.lean ====
section
/-! DEFINITION. Ludjafa ports: training (R301 to R305), link-level retry (R297 to R300), and what a port that leaves
service does to routes and transactions (R302, R309, R311, R312, R314). -/

namespace Sys2Proof.Machine

/-! ### Outcomes of requests to other devices (R308, R309) -/

/-- The outstanding request of a stream with a fabric transaction. -/
def Stream.remoteReq (y : Stream) (txn : Nat) : Option Req := y.reqs.find? fun q => q.remote && !q.ready && q.txn == txn

/-- The outcome of a request that this device issued reaches whoever waits for it. -/
def State.outcome (s : State) (x txn : Nat) (o : Outst) (st : Status) (epoch : Nat) (data : Bytes) : State :=
  match o.asker with
  | .stream n k _ =>
    match s.stream n k with
    | none => s
    | some y =>
      match y.remoteReq (x * 4096 + txn) with
      | some q => s.setStream n k (y.putReq q { q with ready := true, status := st, data := data })
      | none => s
  | .forward m b i => s.forwardResult m b i st
  | .vote p step => if st = .ok then s else s.voteLost p step st
  | .dma n h off => s.dmaGot n h off st data
  | .copy p id off => s.copyGot p id off st data
  | .pour p id => s.pourGot p id st data
  | .epoch n h => s.epochAnswer n h o.dest st epoch
  | .nobody => s

/-- Free a transaction number and deliver the outcome; a contribution refused with ST_EPOCH_MISMATCH drops the cached epoch of
its target (R314); votes that waited for a number are sent. -/
def State.settleTxn (s : State) (x txn : Nat) (st : Status) (epoch : Nat) (data : Bytes) : State :=
  let l := s.lx x
  match SMap.find? txn l.outst with
  | none => s
  | some o =>
    let s := s.setLx x { l with outst := SMap.del txn l.outst }
    let s := if o.op = 3 ∧ st = .epochMismatch then s.dropEpoch o.dest else s
    (s.outcome x txn o st epoch data).flushVotes

/-- A request of this device with a transaction number. -/
def Txn.isOwn (s : State) (x txn : Nat) (t : Txn) : Bool := t.src == s.ownId && !isResp t.op && t.srcLink == x && t.txn == txn

/-- TRANSACTION_ABANDON (R309): no response has come 2,000 µs after issue. A request that still waits to be sent leaves its
queue, so that no response can come on the number once it is reused. -/
def State.doAbandon (s : State) (x txn : Nat) : State :=
  match SMap.find? txn (s.lx x).outst with
  | none => s
  | some o =>
    let g := s.port o.port
    let s := s.setPort o.port { g with outq := g.outq.filter fun e => !Txn.isOwn s x txn e.2 }
    (s.bump 32 0x8A04 x 1).settleTxn x txn .remoteUnreachable 0 []

/-! ### Ports that leave service (R302, R311, R312, R314) -/

/-- The valid route entries: device and word. -/
def State.routes (s : State) : List (Nat × Nat) :=
  (s.dict.filter fun e => decide (0x510000 ≤ e.1) && decide (e.1 < 0x530000) && bit e.2 31).map fun e =>
    (e.1 - 0x510000, e.2)

/-- Abandon this device's transactions for a device that are unacknowledged on a port that has gone down (R312). -/
def State.abandonFor (s : State) (dev : Nat) : State :=
  let dead := s.lxs.flatMap fun l =>
    (l.2.outst.filter fun (o : Nat × Outst) => o.2.dest == dev && o.2.down).map fun o => (l.1, o.1)
  dead.foldl (fun (s : State) d => s.doAbandon d.1 d.2) s

/-- A request that this device cannot send on: refused at its source or with a response (R311, R312); a response is
discarded. -/
def State.refuseTxn (s : State) (t : Txn) : State :=
  if isResp t.op then s
  else if t.src = s.ownId then s.settleTxn t.srcLink t.txn .remoteUnreachable 0 []
  else s.respond t .remoteUnreachable

/-- Send a transaction that was queued on a port which has left service, or which its device no longer uses, on the port in
use (R312). A transaction in transit never goes back on the port it came in on (R311). -/
def State.requeue (s : State) (e : Nat × Txn) : State :=
  let t := e.2.aged s.localNs
  let from_ := if t.bufs = 0 then none else some t.port
  if !isResp t.op && s.holds.contains t.dest then (s.refuseTxn t).freeBufs t
  else match s.route t.dest t.level from_ with
    | some (g, date) => s.enqueue g date t
    | none => (s.refuseTxn t).freeBufs t

/-- Take what waits for a device out of every port's queue, in order of port and queue. -/
def State.takeQueued (s : State) (dev : Nat) : State × List (Nat × Txn) :=
  ({ s with ports := s.ports.map fun (p : Nat × Port) => (p.1, { p.2 with outq := p.2.outq.filter fun e => e.2.dest != dev }) },
   s.ports.flatMap fun (p : Nat × Port) => p.2.outq.filter fun e => e.2.dest == dev)

/-- The port in use for a device has changed (R312): the hold begins, what is unacknowledged on a port that went down is
abandoned, requests that wait are refused, and responses go on the new port. -/
def State.rerouted (s : State) (dev : Nat) : State :=
  match (({ s with holds := insertAsc dev s.holds } : State).abandonFor dev).takeQueued dev with
  | (s, q) => q.foldl (fun (s : State) e => s.requeue e) s

/-- Failover (R311): every entry whose port in use is out of service and whose ALT is in service uses ALT from now on. -/
def State.failover (s : State) : State :=
  (s.routes.filter fun e => !bit e.2 27 && bit e.2 30).foldl (fun (s : State) e =>
    if !s.inService (fld e.2 6 0) && s.inService (fld e.2 14 8) then
      (s.setReg (0x5100 + e.1 / 256) (e.1 % 256) (setFld e.2 27 27 1)).rerouted e.1
    else s) s

/-- Release the spare slice of a port (R302, R303): it can no longer be locked on λ8. -/
def State.freeSpare (s : State) (g : Nat) : State :=
  let x := s.port g
  if x.spare then (s.setPort g { x with spare := false, locked := x.locked % 256 }).setReg 0x5070 (g / 8) (s.reg 0x5070 (g / 8) + 1) else s

/-- The training frame of a port (R301) of a type, for one lane. -/
def State.trainingFrame (s : State) (g ty lane : Nat) : Nat :=
  let x := s.port g
  let rep := b2n x.repair
  let body := (s.ownId <<< 239) + (s.reg 0x5000 1 <<< 231) + (s.reg 0x5000 2 <<< 223)
    + (((x.rxNext + 4095) % 4096) <<< 211) + (rep <<< 210) + ((g / 8) <<< 206) + ((g % 8) <<< 203)
    + ((if x.spare then x.locked % 512 else x.locked % 256) <<< 194) + (b2n x.spare <<< 193) + (lane <<< 189)
    + (ty <<< 187) + (3 <<< 31)
  let bs := natLe 252 body
  leNat (bs ++ natLe 4 (crc32 bs).toNat)

/-- Send training frames of a type on a list of wavelengths; LANE is the wavelength index (R301). -/
def State.sendTraining (s : State) (g ty : Nat) (lanes : List Nat) : State :=
  { s with out := s.out ++ lanes.map fun l => .fabric g l (s.trainingFrame g ty l) }

/-- Send MAP frames: λ8 is lit only by a port that holds a spare slice, and by every port in DETECT (R302, R303). -/
def State.sendMap (s : State) (g : Nat) : State :=
  s.sendTraining g 1 (List.range (if (s.port g).spare || s.portState g == 1 then 9 else 8))

/-- The buffers that transactions received on port g hold are gone with the port's counts (R300, R302). -/
def State.loseBufs (s : State) (g : Nat) : State :=
  let clear (t : Txn) : Txn := if t.port = g then { t with bufs := 0 } else t
  let sender : Sender → Sender
    | .remote x t => .remote x (clear t)
    | o => o
  { s with
    lxs := s.lxs.map fun (l : Nat × LinkDie) => (l.1, { l.2 with
      inq := l.2.inq.map clear
      outst := l.2.outst.map fun (o : Nat × Outst) => (o.1, if o.2.port = g then { o.2 with down := true } else o.2) })
    ports := s.ports.map fun (p : Nat × Port) => (p.1, { p.2 with outq := p.2.outq.map fun e => (e.1, clear e.2) })
    mxs := s.mxs.map fun (m : Nat × Mx) => (m.1, { m.2 with queue := m.2.queue.map fun c => { c with sender := sender c.sender } }) }

/-- A port enters DETECT (1) or DISABLED (0) (R302): retry buffer, partial transactions and sequence counters are
dropped, its spare slice is released; routes fail over, and what was queued is routed anew. -/
def State.portDown (s : State) (g st : Nat) : State :=
  let x := s.port g
  let was := s.portState g
  let s := s.freeSpare g
  let s := ((((s.setReg 0x5020 g st).setReg 0x5030 g 0).setReg 0x5040 g 0).setReg 0x5050 g 0).setReg 0x5060 g 0x1E00
  let s := (s.setPort g {}).loseBufs g
  let s := if was = 5 then { s with epochs := [] } else s
  let s := if was = 5 ∨ was = 6 then s.failover else s
  let s := x.outq.foldl (fun (s : State) e => s.requeue (e.1, if e.2.port = g then { e.2 with bufs := 0 } else e.2)) s
  if st = 1 then s.sendMap g else s

/-- An ACTIVE port enters REPAIR (R305): flits stop, MAP frames go out on all lanes, and the sequence state is kept. -/
def State.enterRepair (s : State) (g : Nat) (lost : Nat) : State :=
  let x := s.port g
  let s := s.setPort g { x with repair := true, locked := x.locked &&& (511 - lost % 512), peerMask := none, cfgSent := false,
                                cfgGot := none, doneSent := false, doneGot := false, oldPeer := s.reg 0x5040 g }
  (({ s.setReg 0x5020 g 6 with epochs := [] } : State)).sendMap g

/-! ### Training (R302 to R304) -/

/-- The fields of a training frame (R301). -/
def frDevice (f : Nat) : Nat := fld f 255 239
def frLevel (f : Nat) : Nat := fld f 238 231
def frEpoch (f : Nat) : Nat := fld f 230 223
def frLx (f : Nat) : Nat := fld f 209 206
def frPort (f : Nat) : Nat := fld f 205 203
/-- GOOD_MASK and SPARE_HELD. -/
def frReport (f : Nat) : Nat × Bool := (fld f 202 194, bit f 193)

/-- A 256 B unit passes the CRC of R298. -/
def crcOk (f : Nat) : Bool := fld f 2047 2016 == (crc32 (natLe 252 (f % 2 ^ 2016))).toNat

/-- A training frame of a type, well formed (R12, R298, R301). -/
def frameOk (f ty : Nat) : Bool :=
  crcOk f && fld f 32 31 == 3 && fld f 188 187 == ty && fld f 170 33 == 0 && fld f 30 0 == 0 && fld f 2015 256 == 0

/-- LIGHT_DETECTED: a lane of a port in DETECT has received light for 1 ms. -/
def State.doLight (s : State) (g lane : Nat) : State :=
  if s.portState g = 1 then
    let x := s.port g
    (s.setPort g { x with light := x.light ||| 2 ^ lane }).setReg 0x5020 g 2
  else s

/-- A lane among λ0 to λ7 is not usable by the port's own lock or by its peer's latest report. -/
def Port.lacks (x : Port) : Bool :=
  let peer := match x.peerMask with | some (m, _) => m | none => 255
  (x.locked &&& peer) % 256 != 255

/-- Reserve spare slices for the ports of a link die that train and lack a lane, in ascending port number (R303). -/
def State.reserveSpares (s : State) (x : Nat) : State :=
  (List.range 8).foldl (fun (s : State) p =>
    let g := 8 * x + p
    let q := s.port g
    if (s.portState g = 3 ∨ s.portState g = 6) ∧ q.lacks ∧ !q.spare ∧ !q.cfgSent ∧ s.reg 0x5070 x ≠ 0 then
      ((s.setPort g { q with spare := true }).setReg 0x5070 x (s.reg 0x5070 x - 1)).sendMap g
    else s) s

/-- The largest of 8, 4, 2 and 1 that does not exceed n; 0 for 0 (R303). -/
def widthOf (n : Nat) : Nat := if 8 ≤ n then 8 else if 4 ≤ n then 4 else if 2 ≤ n then 2 else n

/-- MAP ends (R303): substitution, width and active lanes are fixed; an unused reservation is released; CONFIG begins,
or the pause when no lane is left. -/
def State.fixLanes (s : State) (g : Nat) (peer : Nat × Bool) : State :=
  let x := s.port g
  let usable := x.locked &&& peer.1
  let bad := (List.range 8).find? fun l => !bit usable l
  let subst := if bit usable 8 && x.spare && peer.2 then bad else none
  let logical := (List.range 8).filter fun l => bit usable l || subst == some l
  let w := widthOf logical.length
  let s := (s.setReg 0x5030 g w).setReg 0x5060 g ((match subst with | some l => l | none => 15) * 512 + usable)
  let s := if subst.isNone then s.freeSpare g else s
  let x := s.port g
  if w = 0 then s.setPort g { x with paused := true, active := 0 }
  else
    let act := logical.take w
    let s := s.setPort g { x with active := act.foldl (fun m l => m + 2 ^ l) 0, cfgSent := true, cfgTime := s.localNs }
    let s := if s.portState g = 3 then s.setReg 0x5020 g 4 else s
    s.sendTraining g 2 (act.map (s.waveOf g))

/-- The port exchanges MAP frames: in MAP, or in REPAIR before CONFIG. -/
def State.mapping (s : State) (g : Nat) : Bool :=
  (s.portState g == 3 || s.portState g == 6) && !(s.port g).cfgSent && !(s.port g).paused

/-- LOCK_COMPLETE: lock acquisition ends; the port enters MAP. In MAP and REPAIR it reports lanes locked since, λ8
only with a spare slice. -/
def State.doLock (s : State) (g locked : Nat) : State :=
  let x := s.port g
  let m := if x.spare then locked % 512 else locked % 256
  if s.portState g = 2 then
    (((s.setPort g { x with locked := m }).setReg 0x5020 g 3).sendMap g).reserveSpares (g / 8)
  else if s.mapping g then ((s.setPort g { x with locked := m }).sendMap g).reserveSpares (g / 8)
  else s

/-- MAP_FRAME (R303, R305): a report of the peer. The lanes are fixed when every lane is usable, or when the peer
repeats its report and this port's own has not changed. -/
def State.doMapFrame (s : State) (g f : Nat) : State :=
  if !frameOk f 1 then s
  else if s.portState g = 5 then s.enterRepair g 0
  else if !s.mapping g then s
  else
    let x := s.port g
    let rep := frReport f
    let s := (s.setPort g { x with peerMask := some rep }).reserveSpares (g / 8)
    let y := s.port g
    let full := (y.locked &&& rep.1) % 256 == 255
    if full || (x.peerMask == some rep && y.spare == x.spare) then s.fixLanes g rep else s

/-- The port is in CONFIG, or in the CONFIG of a REPAIR (R302). -/
def State.configuring (s : State) (g : Nat) : Bool :=
  (s.portState g == 4 || s.portState g == 6) && (s.port g).cfgSent

/-- Put flits on a port again (R299). -/
def State.resend (s : State) (g : Nat) (fl : List Sent) : State :=
  fl.foldl (fun (s : State) f => s.sendFlit g (some f)) (s.bump 64 0x8A00 g fl.length)

/-- The entries of a retry buffer after an acknowledged number; all of them when it is not among them. -/
def afterSeq (l : List Sent) (n : Nat) : List Sent :=
  match l.findIdx? fun f => f.seq == n with
  | some i => l.drop (i + 1)
  | none => l

/-- The port enters ACTIVE when both ends have sent DONE (R304). After REPAIR the sender resumes from the peer's
SEQ_RESUME + 1; otherwise the counters and credits start afresh. -/
def State.goActive (s : State) (g : Nat) : State :=
  let x := s.port g
  if !(x.doneSent && x.doneGot) then s
  else match x.cfgGot with
    | none => s
    | some f =>
      let keep := x.repair && bit f 210
      let fl := if keep then afterSeq x.retry (fld f 222 211) else []
      let base : Port := if x.repair then { x with retry := fl, resends := 0 } else
        { x with seq := 0, retry := [], resends := 0, sent := [], crSeen := [], rxNext := 0, rxAny := false, nak := false,
                 gap := false, freed := [], crVc := 0, partial_ := [] }
      let s := (s.setPort g { base with repair := false, peerMask := none, cfgSent := false, cfgGot := none,
                                        doneSent := false, doneGot := false, flits := 0 }).setReg 0x5020 g 5
      let s := (if x.repair then s.resend g fl else s).failover
      s.pumpPort g (x.outq.length + 1)

/-- CONFIG_FRAME (R304): the peer's first is recorded and answered with DONE. -/
def State.doConfigFrame (s : State) (g f : Nat) : State :=
  if !frameOk f 2 then s
  else if s.portState g = 5 then s.enterRepair g 0
  else if !s.configuring g || (s.port g).cfgGot.isSome then s
  else
    let x := s.port g
    let peer := 2 ^ 31 + (frLx f * 8 + frPort f) * 2 ^ 24 + frDevice f
    let refuse (s : State) : State :=
      (s.portDown g 0).condition .accessDenied (unitOrigin (80 + g / 8)) (detail1 0xFF 0xFF 0xFFFF g)
    if frDevice f = s.ownId ∨ frLevel f = 0 then refuse s
    else if x.repair && x.oldPeer != peer then s.portDown g 1
    else
      let lvl := min (s.reg 0x5000 1) (frLevel f)
      let s := (s.setReg 0x5040 g peer).setReg 0x5050 g (setFld (setFld (s.reg 0x5050 g) 15 8 lvl) 7 0 (frEpoch f))
      let s := (s.setPort g { x with cfgGot := some f, doneSent := true }).cacheEpoch (frDevice f) (frEpoch f)
      (s.sendTraining g 3 ((bitList x.active 9).map (s.waveOf g))).goActive g

/-- DONE_FRAME (R304): the one-way delay is recorded, and the port may enter ACTIVE. -/
def State.doDoneFrame (s : State) (g f rt : Nat) : State :=
  if !frameOk f 3 then s
  else if s.portState g = 5 then s.enterRepair g 0
  else if !s.configuring g then s
  else
    let delay := (rt - fld f 186 171) / 2
    let s := s.setReg 0x5050 g (setFld (s.reg 0x5050 g) 31 16 (min delay 65535))
    (s.setPort g { s.port g with doneGot := true }).goActive g

/-- The symbols corrected among those received exceed the ratio of `fab.lane_fail_ser` (R305, R315). -/
def State.serOver (s : State) (corrected symbols : Nat) : Bool :=
  ((f32 (BitVec.ofNat 32 (s.reg 0x5000 5))).mul (.fin false symbols 0)).lt (.fin false corrected 0)

/-- LANE_FAIL: what the receiver of one lane reports for 1 ms, its lock and its decoder's counts (R305, R315). The counts are
kept; a lane of an ACTIVE port that has lost lock or exceeds a limit fails. -/
def State.doLaneFail (s : State) (g lane : Nat) (lost : Bool) (marked corrected symbols : Nat) : State :=
  let s := (s.bump 64 0x8A02 g corrected).bump 32 0x8A03 g marked
  if s.portState g = 5 ∧ (lost ∨ s.reg 0x5000 4 ≤ marked ∨ s.serOver corrected symbols) then s.enterRepair g (2 ^ lane) else s

/-- LOSS_OF_LIGHT (R302). -/
def State.doDark (s : State) (g : Nat) : State := if s.portState g = 5 then s.portDown g 1 else s

/-- MAP_PAUSE_EXPIRY (R302). -/
def State.doPauseExpiry (s : State) (g : Nat) : State := if (s.port g).paused then s.portDown g 1 else s

/-- PORT_STATE_TIMEOUT: the bound of MAP, CONFIG or REPAIR has passed (R302). MAP ends with the reports that are in: with none
of the peer, or no usable lane, its width is 0 and its pause begins (log entry 69). -/
def State.doPortTimeout (s : State) (g : Nat) : State :=
  match s.portState g with
  | 3 => if (s.port g).paused then s else s.fixLanes g ((s.port g).peerMask.getD (0, false))
  | 4 | 6 => s.portDown g 1
  | _ => s

/-- A DISABLED port of a powered link die leaves for DETECT when it is enabled and the device ID is set (R302, R306). -/
def State.portUp (s : State) (g : Nat) : State :=
  if s.portState g = 0 ∧ s.reg 0x5010 g = 1 ∧ s.reg 0x5000 0 ≠ 0xFFFFFFFF ∧ !s.fencedDie (80 + g / 8) ∧ 6 ≤ s.phase then
    (s.setReg 0x5020 g 1).sendMap g
  else s

/-- A write of `fab.port_enable` (R302, R305, R315). -/
def State.writePortEnable (s : State) (g v : Nat) : State × Status :=
  match v with
  | 0 => ((s.setReg 0x5010 g 0).portDown g 0, .ok)
  | 1 => ((s.setReg 0x5010 g 1).portUp g, .ok)
  | _ =>
    let s := (s.setReg 0x5010 g 1).portUp g
    (if s.portState g = 5 then s.enterRepair g 0 else s, .ok)

/-! ### Flits (R297 to R300) -/

/-- Send again everything that is not acknowledged; after sixteen resends in a row without progress the port goes to DETECT
(R299). -/
def State.goBack (s : State) (g : Nat) : State :=
  let x := s.port g
  if x.retry.isEmpty then s
  else if 16 ≤ x.resends then s.portDown g 1
  else (s.setPort g { x with resends := x.resends + 1 }).resend g x.retry

/-- RETRY_TIMER (R299). -/
def State.doRetryTimer (s : State) (g : Nat) : State := if s.portState g = 5 then s.goBack g else s

/-- The acknowledgement and credit fields of a flit that is not discarded (R298 to R300). -/
def State.takeAck (s : State) (g f : Nat) : State :=
  let x := s.port g
  let rest := if bit f 39 then afterSeq x.retry (fld f 51 40) else x.retry
  let vc := fld f 22 20
  let old := SMap.get 0 x.crSeen vc
  let new := fld f 19 8
  let x := { x with
    retry := rest, resends := if rest.length < x.retry.length then 0 else x.resends,
    crSeen := if (new + 4096 - old) % 4096 < 2048 then SMap.put vc new x.crSeen else x.crSeen }
  let s := s.setPort g x
  if bit f 38 then s.goBack g else s

/-- The first discarded or out-of-order KIND 1 flit after an accepted one sets NAK (R299). -/
def State.noteGap (s : State) (g : Nat) : State :=
  let x := s.port g
  if x.gap then s else s.setPort g { x with nak := true, gap := true }

/-- A request is well formed (R307, R308). -/
def Txn.reqOk (t : Txn) : Bool :=
  t.resv == 0 && t.data.length == t.len &&
  match t.op with
  | 1 | 2 =>
    t.owner == 0 && t.aux == 0 && decide (32 ≤ t.len) && decide (t.len ≤ 4096) && t.len % 32 == 0 &&
      decide (t.addr % 4096 + t.len ≤ 4096)
  | 3 => fld t.aux 1 0 == 0 && t.addr % 4096 == 0 && t.len == (if fld t.aux 2 2 = 1 then 144 else 4096)
  | 4 => t.owner == 0 && t.aux == 0 && t.len == 0
  | 5 => t.owner == 0 && fld t.aux 15 2 == 0 && t.len == 0
  | 6 | 7 => t.owner == 0 && fld t.aux 63 12 == 0 && t.len == 0
  | 8 => t.owner == 0 && t.aux == 0 && t.len == 0
  | _ => false

/-- A READ carries its length and no data. -/
def Txn.readOk (t : Txn) : Bool := t.op == 2 && t.data.isEmpty && ({ t with data := List.replicate t.len 0 } : Txn).reqOk

/-- A response is well formed by itself (R308). -/
def Txn.respOk (t : Txn) : Bool :=
  t.resv == 0 && t.owner == 0 && fld t.aux 63 48 == 0 && fld t.aux 15 8 == 0 && t.data.length == t.len &&
    (t.op == 0xA || t.len == 0)

/-- A transaction for this device has arrived whole: ACCUM goes to its engine, the others to the link die's queue. -/
def State.deliver (s : State) (x : Nat) (t : Txn) : State :=
  if isResp t.op then
    if t.respOk then let l := s.lx x; s.setLx x { l with inq := l.inq ++ [t] }
    else (s.bump 32 0x8A05 x 1).freeBufs t
  else if !(t.reqOk || t.readOk) then (s.respond t .accessDenied).freeBufs t
  else if t.op = 3 then
    let gaddr := t.owner * 2 ^ 47 + t.addr
    match s.engineOf gaddr with
    | some m => s.modMx m fun k => { k with queue := k.queue ++ [⟨gaddr, t.data, t.aux, none, .remote x t⟩] }
    | none => (s.respond t .accessDenied).freeBufs t
  else let l := s.lx x; s.setLx x { l with inq := l.inq ++ [t] }

/-- A transaction in transit is forwarded, refused or discarded (R309, R311, R312). -/
def State.transit (s : State) (g : Nat) (t : Txn) : State :=
  let drop (s : State) : State := (if isResp t.op then s else s.respond t .remoteUnreachable).freeBufs t
  if t.hops = 0 then drop (s.bump 32 0x8A05 (g / 8) 1)
  else if !isResp t.op && s.holds.contains t.dest then drop s
  else match s.route t.dest t.level (some g) with
    | some (o, date) => s.enqueue o date { t with hops := t.hops - 1 }
    | none => drop s

/-- The LAST flit of a transaction has been accepted on port g (R308, R309). Bytes that hold no whole header are
discarded. -/
def State.gotTxn (s : State) (g vc bufs : Nat) (bs : Bytes) : State :=
  let t0 := txnOfBytes bs g vc bufs
  let t := { t0 with age := min 1023 (t0.age + max 1 (ceilDiv (fld (s.reg 0x5050 g) 31 16) 1000)), since := s.localNs }
  if bs.length < 32 then (s.bump 32 0x8A05 (g / 8) 1).freeBufs t
  else if 1000 < t.age then
    let s := (s.bump 32 0x8A05 (g / 8) 1).freeBufs t
    if isResp t.op then s else s.respond t .remoteUnreachable
  else if t.dest = s.ownId then s.deliver (g / 8) t
  else s.transit g t

/-- The payload of a KIND 1 flit in order (R298, R300, R307): it holds its buffer until its transaction leaves the device or
is served. A FIRST flit drops what its channel holds of an unfinished transaction. -/
def State.takePayload (s : State) (g f : Nat) : State :=
  let x := s.port g
  let vc := fld f 37 35
  let old := SMap.get [] x.partial_ vc
  let dropped := if bit f 34 then ceilDiv old.length 244 else 0
  let sofar := (if bit f 34 then [] else old) ++ natLe (fld f 30 23) (f / 2 ^ 64 % 2 ^ 1952)
  let x := { x with rxNext := (x.rxNext + 1) % 4096, rxAny := true, gap := false,
                    freed := SMap.putD 0 vc ((SMap.get 0 x.freed vc + dropped) % 4096) x.freed,
                    partial_ := if bit f 33 then SMap.del vc x.partial_ else SMap.put vc sofar x.partial_ }
  let s := s.setPort g x
  if bit f 33 then s.gotTxn g vc (max 1 (ceilDiv sofar.length 244)) sofar else s

/-- FLIT: a received flit on an ACTIVE port. Of a flit whose bits cannot be trusted no KIND is known, and it may have been one
of KIND 1. -/
def State.doFlit (s : State) (g f : Nat) (marked : Bool) : State :=
  if s.portState g ≠ 5 then s
  else
    let bad := marked || !crcOk f || fld f 7 0 != 0 || fld f 32 31 == 2
    let s :=
      if bad then
        let s := s.bump 32 0x8A01 g 1
        if marked || !crcOk f || fld f 32 31 == 1 then s.noteGap g else s
      else if fld f 32 31 = 3 then s.enterRepair g 0
      else
        let s := s.takeAck g f
        if fld f 32 31 = 1 ∧ s.portState g = 5 then
          if fld f 63 52 = (s.port g).rxNext then s.takePayload g f else s.noteGap g
        else s
    if s.portState g = 5 then
      let n := s.out.length
      let s := s.pumpPort g ((s.port g).outq.length + 1)
      if s.out.length = n ∧ (fld f 32 31 = 1 ∨ (s.port g).nak) then s.sendFlit g none else s
    else s

/-! ### Transactions at their target (R283, R286, R289, R308) -/

/-- Run the oldest transaction that waits at link die x when it has the opcode; it leaves the queue when done. -/
def State.onTxn (s : State) (x op : Nat) (f : State → Txn → State) : State :=
  let l := s.lx x
  match l.inq with
  | [] => s
  | t :: rest => if t.op = op then f ((s.setLx x { l with inq := rest }).freeBufs t) t else s

/-- The access of the oldest transaction waits: for a segment under test (R383), or for a place of its package (R263,
R265). -/
def State.txnHeld (s : State) (x : Nat) : Bool :=
  match (s.lx x).inq with
  | t :: _ => (t.op == 1 || t.op == 2) && s.accessWaits t.addr t.len
  | [] => false

/-- An admitted request reaches LPDDR5X or tun only. -/
def inWindowMem (a : Nat) : Bool := match place a with | .lpddr | .tun .. => true | _ => false

/-- Answer a request from the fabric. An uncorrectable word that it met, and a fused-off die that it names, leave an audit
record (R6, R74). -/
def State.answerTxn (s : State) (x : Nat) (t : Txn) (st : Status) (data : Bytes := []) : State :=
  (if st = .eccUncorrectable ∨ st = .engineAbsent then s.condition st (unitOrigin (80 + x)) else s).respond t st data

/-- Admission of a transaction at link die x (R286). -/
def State.admitTxn (s : State) (x : Nat) (t : Txn) (len : Nat) (r : WinRight) : State × Status :=
  s.admitRemote (.device t.src) (some x) t.since t.addr len r

/-- WRITE: a save-area segment is not addressable (R345). -/
def State.doTxnWrite (s : State) (x : Nat) : State :=
  if s.txnHeld x then s
  else s.onTxn x 1 fun s t =>
    match s.admitTxn x t t.len .write with
    | (s, .ok) =>
      if !inWindowMem t.addr || s.inSaveArea t.addr then s.respond t .accessDenied
      else match s.writeLocal .engine t.addr t.data with | (s, st) => s.answerTxn x t st
    | (s, st) => s.respond t st

/-- READ. -/
def State.doTxnRead (s : State) (x : Nat) : State :=
  if s.txnHeld x then s
  else s.onTxn x 2 fun s t =>
    match s.admitTxn x t t.len .read with
    | (s, .ok) =>
      if !inWindowMem t.addr || s.inSaveArea t.addr then s.respond t .accessDenied
      else match s.readLocal t.addr t.len with | (s, st, bs) => s.answerTxn x t st bs
    | (s, st) => s.respond t st

/-- ARRIVE: admitted as any request, and then an arrival when its address is an object's (R272, R286). -/
def State.doTxnArrive (s : State) (x : Nat) : State :=
  s.onTxn x 4 fun s t =>
    match s.admitTxn x t 32 .arrive with
    | (s, .ok) =>
      match place t.addr with
      | .arrival d b 0 => if s.fused d then s.answerTxn x t .engineAbsent else (s.arriveAt d b).respond t .ok
      | _ => s.respond t .accessDenied
    | (s, st) => s.respond t st

/-- GATE_VOTE. -/
def State.doTxnVote (s : State) (x : Nat) : State :=
  s.onTxn x 5 fun s t =>
    match s.deliverVote (fld t.aux 31 24) t.src (fld t.aux 23 16) (fld t.aux 63 32) (fld t.aux 1 0) with
    | (s, st) => s.respond t st

/-- A device may open and close a window (R289). -/
def State.controls (s : State) (dev w : Nat) : Bool := bit (s.win w) 95 && fld (s.win w) 94 78 == dev

/-- WIN_OPEN. -/
def State.doTxnOpen (s : State) (x : Nat) : State :=
  s.onTxn x 6 fun s t =>
    let w := fld t.aux 11 0
    if !s.controls t.src w then s.respond t .accessDenied
    else match s.openWindow w with
      | (s, st) => s.respond t st [] (if st = .ok then winInc (s.win w) else 0)

/-- WIN_CLOSE: answered when the close completes. -/
def State.doTxnClose (s : State) (x : Nat) : State :=
  s.onTxn x 7 fun s t =>
    let w := fld t.aux 11 0
    if !s.controls t.src w then s.respond t .accessDenied
    else match s.closeWindow w with
      | (s, .done st) => s.respond t st
      | (s, .later what left) =>
        { s with waits := s.waits ++ [⟨what, s.kdOrigin, 0, 0, 0, [], .fabric t, left⟩] }

/-- EPOCH_QUERY: always answered, with this device's level and epoch. -/
def State.doTxnEpoch (s : State) (x : Nat) : State := s.onTxn x 8 fun s t => s.respond t .ok

/-- A response fits the request that it answers (R308): READ_DATA answers a READ, with its length of data when the status is
ST_OK and none otherwise; RESP answers any other. -/
def Outst.fits (o : Outst) (t : Txn) : Bool :=
  (t.op == 0xA) == (o.op == 2) && (t.op != 0xA || t.len == (if fld t.aux 7 0 = 0 then o.len else 0))

/-- RESP and READ_DATA: matched by SRC_LINK and TXN; one that does not fit its request is malformed, discarded and counted. -/
def State.doTxnResp (s : State) (x op : Nat) : State :=
  s.onTxn x op fun s t =>
    match SMap.find? t.txn (s.lx t.srcLink).outst with
    | none => s
    | some o =>
      if o.fits t then s.settleTxn t.srcLink t.txn (.ofCode (fld t.aux 7 0)) (fld t.aux 31 24) t.data
      else s.bump 32 0x8A05 x 1

/-! ### Routes and holds (R310 to R312, R314) -/

/-- A write of a route entry: USING_ALT is cleared; a change of the port in use begins the hold of R312; an entry whose
PRIMARY is out of service fails over at once. -/
def State.writeRoute (s : State) (dev v : Nat) : State × Status :=
  let old := s.routeOf dev
  let new := setFld v 27 27 0
  let s := s.setReg (0x5100 + dev / 256) (dev % 256) new
  ((if bit old 31 && portInUse old != portInUse new then s.rerouted dev else s).failover, .ok)

/-- REROUTE_HOLD_EXPIRY (R312). -/
def State.doHoldExpiry (s : State) (dev : Nat) : State := { s with holds := s.holds.filter (· != dev) }

/-- EPOCH_CACHE_EXPIRY (R314). -/
def State.doEpochExpiry (s : State) (dev : Nat) : State := { s with epochs := s.epochs.filter fun e => e.1 != dev }

end Sys2Proof.Machine
end

