-- ==== Sys2Proof/Machine/HostPorts.lean ====
section
/-! DEFINITION. The host ports (R316 to R321), host apertures (R334), and the tail counts of completion and fault
rings (R333). The rows carry no packet numbers: a message arrives whole, and an acknowledgement takes the oldest
message that it can (log entry 30). -/

namespace Sys2Proof.Machine

/-! ### The answers to device-issued messages (R320, R333, R334) -/

/-- The request of a stream that a message of an aperture carries. -/
def Stream.aperReq (y : Stream) (va : Nat) (write : Bool) : Option Req :=
  y.reqs.find? fun r => r.va == va && !r.ready && !r.remote && r.write == write && r.owner.isNone

/-- The answer to an aperture request of a stream. -/
def State.streamAnswer (s : State) (n k va : Nat) (write : Bool) (st : Status) (data : Bytes) : State :=
  match s.stream n k with
  | none => s
  | some y =>
    match y.aperReq va write with
    | some r => s.setStream n k (y.putReq r { r with ready := true, status := st, data := data })
    | none => s

/-- Count acknowledged records: the first count not acknowledged, and those acknowledged beyond it. -/
def ackCount : Nat → Nat → List Nat → Nat × List Nat
  | 0, n, l => (n, l)
  | fuel + 1, n, l => if l.contains n then ackCount fuel ((n + 1) % 2 ^ 32) (l.filter (· != n)) else (n, l)

/-- A record of a client's ring is acknowledged (R333). -/
def Post.ack (x : Post) (fault : Bool) (n : Nat) : Post :=
  if fault then
    let r := ackCount (x.fqGot.length + 1) x.fqAcked (n :: x.fqGot)
    { x with fqAcked := r.1, fqGot := r.2 }
  else
    let r := ackCount (x.cqGot.length + 1) x.cqAcked (n :: x.cqGot)
    { x with cqAcked := r.1, cqGot := r.2 }

/-- The effect of a completed message. -/
def State.acked (s : State) (w : Wqe) (data : Bytes) : State :=
  match w.purpose with
  | .record p c f n => s.setPost p c ((s.post p c).ack f n)
  | .tail .. => s
  | .streamWrite n k va => s.streamAnswer n k va true .ok []
  | .streamRead n k va => s.streamAnswer n k va false .ok data
  | .dma n h off => s.dmaGot n h off .ok data
  | .copy p id off => s.copyGot p id off .ok data
  | .pour p id => s.pourGot p id .ok data
  | .debug => s.dbgHost .ok data
  | .other => s

/-- A fault record is lost with its queue pair: it and every record after it that the tail does not cover yet are
dropped and counted, and the ring goes on from there (R333; log entry 31). -/
def State.faultLost (s : State) (p c n : Nat) : State :=
  let x := s.post p c
  if (x.fqCount + 2 ^ 32 - n) % 2 ^ 32 = 0 ∨ 2 ^ 31 ≤ (x.fqCount + 2 ^ 32 - n) % 2 ^ 32 then s
  else
    let s := s.bump 32 (0x8B90 + c) p ((x.fqCount + 2 ^ 32 - n) % 2 ^ 32)
    s.setPost p c { x with fqCount := n, fqGot := [] }

/-- What becomes of a message that its queue pair can no longer carry (R320, R333, R334). -/
def State.lostMsg (s : State) (w : Wqe) : State :=
  match w.purpose with
  | .record p c false n =>
    let x := s.post p c
    s.setPost p c { x with again := x.again ++ [(n, leNat w.data)] }
  | .record p c true n => s.faultLost p c n
  | .tail p c f _ =>
    let x := s.post p c
    s.setPost p c (if f then { x with fqTail := 2 ^ 32 } else { x with cqTail := 2 ^ 32 })
  | .streamWrite n k va => s.streamAnswer n k va true .remoteUnreachable []
  | .streamRead n k va => s.streamAnswer n k va false .remoteUnreachable []
  | .dma n h off => s.dmaGot n h off .remoteUnreachable []
  | .copy p id off => s.copyGot p id off .remoteUnreachable []
  | .pour p id => s.pourGot p id .remoteUnreachable []
  | .debug => s.dbgHost .remoteUnreachable []
  | .other => s

/-- A queue pair takes a state in which it carries nothing (R320): its messages end. -/
def State.qpEnd (s : State) (p q st : Nat) : State :=
  let x := s.qp p q
  let s := (s.setQp p q (if st = 0 then {} else { x with unacked := [] })).setQpState p q st
  let s := s.setHport p { s.hport p with inq := (s.hport p).inq.filter fun m => m.1 != q }
  x.unacked.foldl State.lostMsg s

/-- A queue pair enters ERROR (R320). -/
def State.qpError (s : State) (p q : Nat) : State := s.qpEnd p q 2

/-- Send again everything that is not acknowledged. -/
def State.qpResend (s : State) (p q : Nat) : State :=
  ((s.qp p q).unacked.filter (·.sent)).foldl (fun (s : State) w => s.sendRoce p q w.msg) s

/-- Every record that waits goes out where it can (R333). -/
def State.pumpAll (s : State) : State :=
  (s.posts.map fun e => e.1).foldl (fun (s : State) k => s.pumpClient (k / 8) (k % 8)) s

/-- Frames that a port has received (R335). -/
def State.rxFrames (s : State) (p k : Nat) : State := s.bump 64 0x8B00 p k

/-- Bytes of a request in the receive buffer. -/
def RxMsg.bytes : RxMsg → Nat
  | .write _ _ data | .send data => data.length
  | .read .. => 0

/-- The occupancy of a port's receive buffer: the data of the requests that wait in it (DESIGN CHOICE, log entry 67). -/
def State.rxHeld (s : State) (p : Nat) : Nat := ((s.hport p).inq.map fun m => m.2.bytes).sum

/-- Flow control of a port (R317): above 1.5 MiB XOFF goes out with the maximum quanta, below 1 MiB again XON. -/
def State.flowControl (s : State) (p : Nat) : State :=
  let x := s.hport p
  let prio := s.reg (0x5800 + p) 4
  if !s.linkUp p then s
  else if !x.xoff && decide (0x180000 < s.rxHeld p) then
    ((s.setHport p { x with xoff := true }).bump 32 0x8B01 p 1).emit (.pfc p prio 0xFFFF)
  else if x.xoff && decide (s.rxHeld p < 0x100000) then (s.setHport p { x with xoff := false }).emit (.pfc p prio 0)
  else s

/-- A CE mark on a RoCE packet draws a CNP, at most one for each interval (R318). -/
def State.markCe (s : State) (p q : Nat) (ce : Bool) : State :=
  let x := s.hport p
  let due := match SMap.find? q x.cnpAt with
    | some t => decide (s.reg (0x5800 + p) 5 * 1000 ≤ s.localNs - t)
    | none => true
  if ce && due then
    ((s.setHport p { x with cnpAt := SMap.put q s.localNs x.cnpAt }).bump 32 0x8B02 p 1).sendRoce p q .cnp
  else s

/-- A RoCE message of k frames arrives for queue pair q (R317, R318, R320, R335): nothing arrives on a port whose link is
down; its frames are counted; a queue pair that is not READY takes nothing. -/
def State.roceIn (s : State) (p q k : Nat) (ce : Bool) (f : State → State) : State :=
  if !s.linkUp p then s
  else
    let s := s.rxFrames p k
    if s.qpState p q = 1 then f (s.markCe p q ce) else s

/-- ACK: the oldest message not acknowledged is complete when it is a write (log entry 30). -/
def State.doAck (s : State) (p q : Nat) (ce : Bool) : State :=
  s.roceIn p q 1 ce fun s =>
    let x := s.qp p q
    match x.unacked with
    | w :: t =>
      if w.read || !w.sent then s
      else ((s.setQp p q { x with unacked := t, retries := 0, rnrs := 0 }).acked w []).qpPump p q
    | [] => s

/-- RDMA_READ_RESPONSE: the oldest READ is complete, and with it every write before it. Data of another length, or an
answer to no READ, is a protocol violation (R320). -/
def State.doReadResponse (s : State) (p q : Nat) (ce : Bool) (data : Bytes) : State :=
  s.roceIn p q (s.packets p q data.length) ce fun s =>
    let x := s.qp p q
    let before := x.unacked.takeWhile fun w => !w.read
    match x.unacked.drop before.length with
    | w :: t =>
      if !w.sent || w.len != data.length then s.qpError p q
      else
        let s := s.setQp p q { x with unacked := t, retries := 0, rnrs := 0 }
        ((before.foldl (fun (s : State) b => s.acked b []) s).acked w data).qpPump p q
    | [] => s.qpError p q

/-- NAK: ERROR (R320). -/
def State.doNak (s : State) (p q : Nat) (ce : Bool) : State := s.roceIn p q 1 ce fun s => s.qpError p q

/-- RNR_NAK: the messages are sent again after the delay it names, or the queue pair's RNR retries are exhausted
(R320). -/
def State.doRnrNak (s : State) (p q : Nat) (ce : Bool) : State :=
  s.roceIn p q 1 ce fun s =>
    let x := s.qp p q
    let lim := fld (s.qpCtx p q) 246 244
    if x.unacked.all fun w => !w.sent then s
    else if lim ≠ 7 ∧ lim ≤ x.rnrs then s.qpError p q
    else (s.setQp p q { x with rnrs := x.rnrs + 1 }).qpResend p q

/-- QP_RETRANSMIT_TIMEOUT (R320). -/
def State.doQpTimeout (s : State) (p q : Nat) : State :=
  let x := s.qp p q
  if s.qpState p q ≠ 1 || x.unacked.all fun w => !w.sent then s
  else if fld (s.qpCtx p q) 249 247 ≤ x.retries then s.qpError p q
  else (s.setQp p q { x with retries := x.retries + 1 }).qpResend p q

/-! ### Rates and pauses (R317 to R319) -/

/-- The line rate of a host port in bit/s (R316). -/
def lineRate : Nat := 400000000000

/-- CNP: the rate halves, down to 1 Gbit/s (R318). -/
def State.doCnp (s : State) (p q : Nat) : State :=
  if s.linkUp p && s.qpState p q != 0 then
    let x := s.qp p q
    (s.rxFrames p 1).setQp p q { x with rate := max 1000000000 (x.rate / 2) }
  else s

/-- CNP_RATE_RECOVERY: 55 µs without a CNP have passed (R318). -/
def State.doCnpRecovery (s : State) (p q : Nat) : State :=
  if s.qpState p q = 0 then s
  else
    let x := s.qp p q
    s.setQp p q { x with rate := min lineRate (x.rate + 4000000000) }

/-- PFC_FRAME: quanta 0 resume the priority, others pause it (R317; log entry 32). -/
def State.doPfc (s : State) (p quanta : Nat) : State :=
  if !s.linkUp p then s
  else
    let s := s.rxFrames p 1
    let x := s.hport p
    if quanta ≠ 0 then s.setHport p { x with paused := true }
    else { (s.setHport p { x with paused := false, held := [] }) with out := s.out ++ x.held }

/-- PFC_REFRESH: occupancy is high, and XOFF goes out with the maximum quanta (R317). -/
def State.doPfcRefresh (s : State) (p : Nat) : State :=
  if !s.linkUp p then s
  else ((s.setHport p { s.hport p with xoff := true }).bump 32 0x8B01 p 1).emit (.pfc p (s.reg (0x5800 + p) 4) 0xFFFF)

/-! ### Requests from hosts (R321) -/

/-- The partition and client to which a queue pair is bound (R320). -/
def State.qpPart (s : State) (p q : Nat) : Nat := fld (s.qpCtx p q) 239 232
def State.qpClient (s : State) (p q : Nat) : Nat := fld (s.qpCtx p q) 231 229

/-- Sequence numbers of a message that has been taken. -/
def State.rxAdvance (s : State) (p q len : Nat) : State :=
  let x := s.qp p q
  s.setQp p q { x with rxPsn := (x.rxPsn + s.packets p q len) % 2 ^ 24 }

/-- Acknowledge a message of `len` bytes. -/
def State.sendAck (s : State) (p q len : Nat) : State :=
  let n := ((s.qp p q).rxPsn + s.packets p q len + 2 ^ 24 - 1) % 2 ^ 24
  (s.rxAdvance p q len).sendRoce p q (.ack n)

/-- The AETH syndrome of NAK Remote Access Error. PRESUMED (log entry 33). -/
def nakRemoteAccess : Nat := 0x62

/-- Refuse a request: the NAK leaves first, then the audit record, then ERROR (R320, R321). -/
def State.nakAccess (s : State) (p q : Nat) (st : Status) : State :=
  let d := detail1 (s.qpPart p q) (s.qpClient p q) 0xFFFF 0
  (((s.sendRoce p q (.nak (s.qp p q).rxPsn nakRemoteAccess)).condition st s.kdOrigin d)).qpError p q

/-- What a request with R_Key 0 reaches (R321, R323, R331). -/
inductive HostPage where
  | writePort (d r off : Nat)
  | doorbell (d r : Nat)
  | status (d r : Nat)
  | head (p c : Nat) (fault : Bool)
  | outside
  deriving DecidableEq, Repr

/-- The page of a local address: `len` bytes from it. -/
def hostPage (a len : Nat) : HostPage :=
  match place a with
  | .doorbell o =>
    if o < 0x4000000 then
      let d := o / 0x100000
      let r := o / 0x10000 % 16
      let x := o % 0x10000
      if x + len ≤ 0x8000 then .writePort d r x
      else if x = 0x8000 ∧ len = 8 then .doorbell d r
      else if x = 0x8008 ∧ len = 8 then .status d r
      else .outside
    else if 0x80000000 ≤ o ∧ o < 0x80100000 ∧ o % 0x1000 < 0x800 ∧ len = 4 then
      let p := (o - 0x80000000) / 0x1000
      let c := o % 0x1000 / 0x100
      if o % 0x100 = 0 then .head p c false else if o % 0x100 = 8 then .head p c true else .outside
    else .outside
  | _ => .outside

/-- Ring r of die d is bound to a queue pair (R321). -/
def State.ringBound (s : State) (p q d r : Nat) : Bool :=
  let w := s.intakeCfg d r
  bit w 63 && fld w 47 46 == p && fld w 45 36 == q

/-- The window that a request names is the one that R286 selects, and it is bound as the queue pair is (R321), and
reaches no save area (R345): the status of a refusal. -/
def State.hostWindow (s : State) (p q rkey a len : Nat) (r : WinRight) : State × Status :=
  match s.winSelect (.host p) a with
  | some w =>
    if rkey ≠ w ∨ winPart (s.win w) ≠ s.qpPart p q ∨ winClient (s.win w) ≠ s.qpClient p q ∨ !inWindowMem a ∨
        s.inSaveArea a then (s.bump 32 0x8902 1 1, .accessDenied)
    else s.admitRemote (.host p) none s.localNs a len r
  | none => s.admitRemote (.host p) none s.localNs a len r

/-- The host has consumed records of a ring (R331). -/
def State.headWrite (s : State) (p c : Nat) (fault : Bool) (v : Nat) : State :=
  let x := s.post p c
  if fault then s.setPost p c { x with fqHead := v }
  else ((s.setPost p c { x with cqHead := v }).pumpClient p c).stir p

/-- A write with R_Key 0 to a page that the queue pair reaches; none when it does not (R321). -/
def State.pageWrite (s : State) (p q va : Nat) (data : Bytes) : Option State :=
  match hostPage va data.length with
  | .writePort d r off => if s.ringBound p q d r then some (s.intakeBytes d r off data) else none
  | .doorbell d r => if s.ringBound p q d r then some (s.doorbell d r (leNat data)) else none
  | .head u c f => if s.qpPart p q = u ∧ s.qpClient p q = c then some (s.headWrite u c f (leNat data)) else none
  | _ => none

/-- Serve an RDMA write (R321). -/
def State.rxWrite (s : State) (p q va rkey : Nat) (data : Bytes) : State :=
  match if rkey = 0 then s.pageWrite p q va data else none with
  | some s => s.sendAck p q data.length
  | none =>
    match s.hostWindow p q rkey va data.length .write with
    | (s, .ok) =>
      match s.writeLocal .host va data with
      | (s, .ok) => s.sendAck p q data.length
      | (s, st) => s.nakAccess p q st
    | (s, st) => s.nakAccess p q st

/-- The status word of a ring (R323). -/
def State.ringStatus (s : State) (d r : Nat) : Nat := s.intakeFree d r <<< 16 + (s.intake d r).words

/-- Answer an RDMA READ. -/
def State.sendData (s : State) (p q : Nat) (data : Bytes) : State :=
  let n := (s.qp p q).rxPsn
  (s.rxAdvance p q data.length).sendRoce p q (.data n data)

/-- Serve an RDMA read (R321, R323). -/
def State.rxRead (s : State) (p q va rkey len : Nat) : State :=
  match if rkey = 0 then hostPage va len else .outside with
  | .status d r =>
    if s.ringBound p q d r then s.sendData p q (natLe 8 (s.ringStatus d r)) else s.nakAccess p q .accessDenied
  | _ =>
    match s.hostWindow p q rkey va len .read with
    | (s, .ok) =>
      match s.readLocal va len with
      | (s, .ok, bs) => s.sendData p q bs
      | (s, st, _) => s.nakAccess p q st
    | (s, st) => s.nakAccess p q st

/-- The intake ring to which a queue pair is bound: the first in order of die and ring (log entry 34). -/
def State.ringOf (s : State) (p q : Nat) : Option (Nat × Nat) :=
  ((List.range 1024).find? fun i => s.ringBound p q (i / 16) (i % 16)).map fun i => (i / 16, i % 16)

/-- Serve a SEND (R324, R326): it carries a whole packet and commits it. -/
def State.rxSend (s : State) (p q : Nat) (data : Bytes) : State :=
  match s.ringOf p q with
  | none => s.nakAccess p q .accessDenied
  | some (d, r) =>
    if s.intakeFree d r < 64 then s.sendRoce p q (.rnrNak (s.reg (0x5800 + p) 6))
    else
      let s := if (s.intake d r).got == 0 && !(s.intake d r).curVoid then
          (s.intakeBytes d r 0 data).intakeCommit d r data.length
        else s.intakeVoid d r
      s.sendAck p q data.length

/-! ### The receive buffer (R263, R317) -/

/-- A request at the head of a receive buffer waits: for its segment under test, or for its package (R257, R263, R265). -/
def State.rxWaits (s : State) : RxMsg → Bool
  | .write va _ data => inWindowMem va && s.accessWaits va data.length
  | .read va _ len => inWindowMem va && s.accessWaits va len
  | .send _ => false

/-- Serve a request. -/
def State.rxServe (s : State) (p q : Nat) : RxMsg → State
  | .write va rkey data => s.rxWrite p q va rkey data
  | .read va rkey len => s.rxRead p q va rkey len
  | .send data => s.rxSend p q data

/-- Serve the requests of a receive buffer in order, up to the first that waits; fuel bounds their number. -/
def State.rxServeN (p : Nat) : Nat → State → State
  | 0, s => s
  | k + 1, s =>
    let x := s.hport p
    match x.inq with
    | [] => s
    | m :: t => if s.rxWaits m.2 then s else State.rxServeN p k ((s.setHport p { x with inq := t }).rxServe p m.1 m.2)

/-- A port takes what its receive buffer holds as far as it can, and then tells its peer (R263, R317). -/
def State.rxPump (s : State) (p : Nat) : State := (State.rxServeN p (s.hport p).inq.length s).flowControl p

/-- A request of k frames arrives: it joins the receive buffer behind those that wait. -/
def State.rxTake (s : State) (p q k : Nat) (ce : Bool) (m : RxMsg) : State :=
  s.roceIn p q k ce fun s => (s.setHport p { s.hport p with inq := (s.hport p).inq ++ [(q, m)] }).rxPump p

/-- RDMA_WRITE. -/
def State.doRdmaWrite (s : State) (p q : Nat) (ce : Bool) (va rkey : Nat) (data : Bytes) : State :=
  s.rxTake p q (s.packets p q data.length) ce (.write va rkey data)

/-- COMMIT_DOORBELL: the same write, at the doorbell of ring r of die d (R323). -/
def State.doCommitDoorbell (s : State) (p q : Nat) (ce : Bool) (d r v : Nat) : State :=
  s.doRdmaWrite p q ce (0x13001000000 + d * 0x100000 + r * 0x10000 + 0x8000) 0 (natLe 8 v)

/-- RDMA_READ. -/
def State.doRdmaRead (s : State) (p q : Nat) (ce : Bool) (va rkey len : Nat) : State :=
  s.rxTake p q 1 ce (.read va rkey len)

/-- SEND. -/
def State.doSend (s : State) (p q : Nat) (ce : Bool) (data : Bytes) : State :=
  s.rxTake p q (s.packets p q data.length) ce (.send data)

/-! ### Completion tails (R333) -/

/-- Write the tail count of one ring when acknowledged records are not covered yet. -/
def State.tailOf (s : State) (p c : Nat) (fault : Bool) : State :=
  let w := s.hostRings p c
  let x := s.post p c
  let n := if fault then x.fqAcked else x.cqAcked
  let a := if fault then fld w 111 64 else fld w 207 160
  if bit w 0 && s.canPost a && n != (if fault then x.fqTail else x.cqTail) then
    (s.setPost p c (if fault then { x with fqTail := n } else { x with cqTail := n })).postWrite a (natLe 8 n) (.tail p c fault n)
  else s

/-- COMPLETION_TAIL_WRITE. -/
def State.doTail (s : State) (p c : Nat) : State := (s.tailOf p c false).tailOf p c true

/-! ### Address resolution and echo (R316) -/

/-- MAC address of a port. -/
def State.macOf (s : State) (p : Nat) : Nat := s.reg (0x5800 + p) 0 % 2 ^ 48

/-- An Ethernet frame of a port: untagged, or with its 802.1Q tag (R316, R335). -/
def State.ethernet (s : State) (p dst ethertype : Nat) (body : Bytes) : Bytes :=
  let vlan := s.reg (0x5800 + p) 3
  natBe 6 dst ++ natBe 6 (s.macOf p) ++ (if vlan = 0 then [] else natBe 2 0x8100 ++ natBe 2 vlan) ++ natBe 2 ethertype ++ body

/-- The one's-complement sum of a header in 16-bit words. -/
def inetSum : Bytes → Nat
  | a :: b :: t => a.toNat * 256 + b.toNat + inetSum t
  | [a] => a.toNat * 256
  | [] => 0

/-- The Internet checksum of a header. -/
def inetChecksum (bs : Bytes) : Nat :=
  let f := fun (x : Nat) => x % 65536 + x / 65536
  65535 - f (f (f (inetSum bs)))

/-- ARP_REQUEST: answered when it asks for the port's own address (R316). Frame layout PRESUMED (log entry 33). -/
def State.doArp (s : State) (p target sender mac : Nat) : State :=
  if !s.linkUp p then s
  else
    let s := s.rxFrames p 1
    let own := s.reg (0x5800 + p) 1
    if own ≠ 0 ∧ own = target then
      let body := natBe 2 1 ++ natBe 2 0x0800 ++ natBe 1 6 ++ natBe 1 4 ++ natBe 2 2 ++ natBe 6 (s.macOf p) ++ natBe 4 own
        ++ natBe 6 mac ++ natBe 4 sender
      s.emit (.frame p (s.ethernet p mac 0x0806 body))
    else s

/-- An IPv6 packet. -/
def ipv6Packet (src dst next : Nat) (hops : Nat) (payload : Bytes) : Bytes :=
  natBe 4 0x60000000 ++ natBe 2 payload.length ++ natBe 1 next ++ natBe 1 hops ++ natBe 16 src ++ natBe 16 dst ++ payload

/-- The ICMPv6 message with its checksum over the pseudo-header. -/
def icmp6 (src dst : Nat) (ty : Nat) (body : Bytes) : Bytes :=
  let len := 4 + body.length
  let c := inetChecksum (natBe 16 src ++ natBe 16 dst ++ natBe 4 len ++ natBe 4 58 ++ natBe 1 ty ++ natBe 3 0 ++ body)
  natBe 1 ty ++ natBe 1 0 ++ natBe 2 c ++ body

/-- The IPv6 address of a port, as its 16 bytes in network order. -/
def State.ipv6Of (s : State) (p : Nat) : Nat := (natLe 16 (s.reg (0x5800 + p) 2)).foldl (fun a b => a * 256 + b.toNat) 0

/-- NEIGHBOUR_SOLICITATION (R316). -/
def State.doNeighbour (s : State) (p target sender mac : Nat) : State :=
  if !s.linkUp p then s
  else
    let s := s.rxFrames p 1
    let own := s.ipv6Of p
    if own ≠ 0 ∧ own = target then
      let body := natBe 4 0x60000000 ++ natBe 16 own ++ natBe 1 2 ++ natBe 1 1 ++ natBe 6 (s.macOf p)
      s.emit (.frame p (s.ethernet p mac 0x86DD (ipv6Packet own sender 58 255 (icmp6 own sender 136 body))))
    else s

/-- The IPv4 packet of an ICMP echo reply. -/
def ipv4Echo (src dst : Nat) (data : Bytes) : Bytes :=
  let icmp := natBe 1 0 ++ natBe 1 0 ++ natBe 2 (inetChecksum (natBe 4 0 ++ data)) ++ data
  let h (c : Nat) := natBe 2 0x4500 ++ natBe 2 (20 + icmp.length) ++ natBe 4 0 ++ natBe 1 64 ++ natBe 1 1 ++ natBe 2 c
    ++ natBe 4 src ++ natBe 4 dst
  h (inetChecksum (h 0)) ++ icmp

/-- ICMP_ECHO: the echoed bytes are those from the identifier on (R316). The reply goes to the link address that the
request came from, which the row does not carry. -/
def State.doEcho (s : State) (p : Nat) (v6 : Bool) (target sender : Nat) (data : Bytes) : State :=
  if !s.linkUp p then s
  else
    let s := s.rxFrames p 1
    let own := if v6 then s.ipv6Of p else s.reg (0x5800 + p) 1
    if own ≠ 0 ∧ own = target then
      s.emit (.packet p (if v6 then ipv6Packet own sender 58 64 (icmp6 own sender 129 data) else ipv4Echo own sender data))
    else s

/-! ### Writes of the host-port entries (R320, R322, R331) -/

/-- A write of a queue-pair context (R320): STATE keeps its value but for what VALID does. -/
def State.writeQp (s : State) (p q v : Nat) : State × Status :=
  let old := s.qpCtx p q
  let st := s.qpState p q
  let mask (x : Nat) := setFld (setFld x 228 226 0) 225 225 0
  let bad := fld v 224 0 != 0 ||
    (bit v 225 && (fld v 257 255 == 0 || decide (5 < fld v 257 255) || fld v 254 250 == 0))
  if bad then (s, .accessDenied)
  else if st = 1 ∧ mask v ≠ mask old then (s, .busy)
  else
    let put (s : State) (n : Nat) : State := s.setReg (0x5810 + 4 * p + q / 256) (q % 256) (setFld v 228 226 n)
    if !bit v 225 then (put (s.qpEnd p q 0) 0, .ok)
    else if st = 0 then
      (((put s 1).setQp p q { txPsn := fld v 311 288, rxPsn := fld v 287 264 }).pumpAll, .ok)
    else (put s st, .ok)

/-- The depths of a die's valid rings with ring r holding word v (R322). -/
def State.ringDepths (s : State) (d r v : Nat) : Nat :=
  ((List.range 16).map fun i => let w := if i = r then v else s.intakeCfg d i
    if bit w 63 then intakeDepth w else 0).sum

/-- A write of `intake.ring` (R322). -/
def State.writeIntake (s : State) (d r v : Nat) : State × Status :=
  let x := s.intake d r
  let p := fld v 35 28
  let refused := conds [
    (decide (16384 < s.ringDepths d r v), .accessDenied),
    (!((s.units p).any fun u => u / 4 == d && s.built p), .accessDenied),
    (!bit (s.hostRings p (fld v 27 25)) 0, .accessDenied),
    (x.words != 0 || x.got != 0 || x.curVoid, .busy)]
  match refused with
  | [] => (s.setReg (0x5830 + d) r v, .ok)
  | l => (s, lowest l)

/-- An intake ring of a client is valid. -/
def State.hasIntake (s : State) (p c : Nat) : Bool :=
  (List.range 1024).any fun i => let w := s.intakeCfg (i / 16) (i % 16); bit w 63 && fld w 35 28 == p && fld w 27 25 == c

/-- An address lies in a host aperture. -/
def inAperture (a : Nat) : Bool := match place a with | .aperture .. => true | _ => false

/-- A write of `host.rings` (R331). The counts of the rings start from 0; records that wait are kept (log entry 31). -/
def State.writeRings (s : State) (p c v : Nat) : State × Status :=
  let bad := fld v 55 1 != 0 || bit v 0 && !(inAperture (fld v 255 208) && inAperture (fld v 207 160) && inAperture (fld v 159 112) &&
    inAperture (fld v 111 64) && fld v 255 208 % 32 == 0 && fld v 159 112 % 32 == 0 && decide (fld v 63 60 ≤ 10) &&
    decide (fld v 59 56 ≤ 10))
  match conds [(bad, .accessDenied), (s.clientLoaded p c || s.hasIntake p c, .busy)] with
  | [] =>
    let x := s.post p c
    (((s.setReg (0x5900 + p) c v).setPost p c
      { cqSeq := x.cqSeq, backlog := x.again.map (·.2) ++ x.backlog }).pumpClient p c, .ok)
  | l => (s, lowest l)

/-- A write of `host.aperture` (R334): non-zero reserved bits are refused, as an unassigned bit of any entry is (R12). -/
def State.writeAperture (s : State) (p k v : Nat) : State × Status :=
  if fld v 10 0 ≠ 0 then (s, .accessDenied) else ((s.setReg (0x5820 + p) k v).pumpAll, .ok)

/-! ### Links (R319) -/

/-- HOST_LINK_DOWN: the port stops sending; what it held back is lost. -/
def State.portLost (s : State) (p : Nat) : State :=
  (s.setReg (0x5800 + p) 7 0).setHport p {}

end Sys2Proof.Machine
end

