-- ==== Sys2Proof/Machine/Resilience.lean ====
section
/-! DEFINITION. Optimiser shadow checks (R367 to R370), retirement of a core in service (R361 to R363), and seal regions
(R356). -/

namespace Sys2Proof.Machine

/-! ### Shadow checks -/

/-- The shadow checks of partition p that are not decided. -/
def State.shadowList (s : State) (p : Nat) : List Shadow := SMap.get [] s.shadows p
/-- Write them. -/
def State.setShadows (s : State) (p : Nat) (l : List Shadow) : State := { s with shadows := SMap.putD [] p l s.shadows }
/-- Replace check k. -/
def State.setShadow (s : State) (p k : Nat) (w : Shadow) : State := s.setShadows p ((s.shadowList p).set k w)

/-- Check k is decided. -/
def State.dropShadow (s : State) (p k : Nat) : State :=
  (s.setShadows p ((s.shadowList p).eraseIdx k)).setReg (0x6200 + p) 2 (s.reg (0x6200 + p) 2 - 1)

/-- The core of a shadow run, or of its tie run (R368, R369). -/
def State.shadowTarget (s : State) (p : Nat) (w : Shadow) : Nat :=
  let np := max 1 (s.partCores p)
  let i := s.partIndex p w.core
  let g := s.sigma p
  if !w.tie then s.coreAt p ((i + g) % np)
  else if (i + 2 * g) % np = i then s.coreAt p ((i + g + 1) % np)
  else s.coreAt p ((i + 2 * g) % np)

/-- The context of a shadow run (R368). -/
def Shadow.ctxOf (w : Shadow) (p base prog pos : Nat) : Ctx :=
  { state := .running, part := p, client := w.client, base := base, count := w.count, progBase := prog,
    progWords := w.progWords, first := w.entry, params := w.params, run := w.run, seed := w.seed, next := w.entry,
    kind := .shadow, step := w.step, startPos := pos, bounded := some w.entry, startParams := w.params }

/-- SHADOW_START (R368): a shadow or tie run starts on its target core; it waits while the target context is not EMPTY. -/
def State.doShadowStart (s : State) (p k : Nat) : State :=
  match (s.shadowList p)[k]? with
  | none => s
  | some w =>
    let t := s.shadowTarget p w
    let h := s.reg (0x9400 + p) 9
    let base := s.reg (0x9400 + p) 0xA
    let prog := s.reg (0x9400 + p) 0xB
    let free := s.presented t && (s.ctxOf t h p w.client).state == .empty &&
      (s.resident p != w.client || (s.ctx t h).state == .empty) && !(s.core t).kiln && !(s.core t).maint
    let fits := decide (base + w.count ≤ 1024) && decide (prog + w.progWords ≤ 1024)
    if w.running || !free || !fits then s
    else
      let img := (List.range w.count).map fun e => (SMap.get 0#256 w.recipe e).toNat
      match cmdRange img with
      | none => s
      | some (lo, hi) =>
        let words := (List.range w.progWords).map (SMap.get 0#32 w.prog)
        let s := s.setShadow p k { w with target := t, running := true, place := s.physPos t, result := none }
        (s.placeRun p w.client t h base prog (moveProg img lo hi ((1024 + prog - w.progBase) % 1024)) words
          (w.ctxOf p base prog (s.physPos t))).stir p

/-- The run of a shadow context has ended: it returns to EMPTY, and its digest waits for the comparison (R368). -/
def State.shadowRunEnded (s : State) (n h : Nat) (x : Ctx) (st : Status) : State :=
  if x.kind != .shadow then s
  else
    let p := x.part
    let s := match s.savedOf n h p x.client with
      | some v => if v.st.kind == RunKind.shadow then s.dropSaved n h p x.client else s
      | none => if (s.ctx n h).kind == RunKind.shadow then s.vacateCtx n h else s
    let digest : Option Nat := match st, x.cmd with
      | .ok, some k => some (crc32c (k.seals.flatMap (natLe 4))).toNat
      | _, _ => none
    s.setShadows p ((s.shadowList p).map fun (w : Shadow) =>
      if w.running && w.target == n && w.result.isNone then { w with result := some digest } else w)

/-- A FAIL vote of a shadow check of step v (R370). -/
def State.shadowVote (s : State) (p v : Nat) : State :=
  let cur := s.gStep p
  let past := decide ((cur + 2 ^ 32 - stepAfter v) % 2 ^ 32 < 2 ^ 31)
  if past && (s.gState p == 1 || s.gState p == 2) then s.gateFail p
  else s.setGate p { s.gate p with bankFail := true }

/-- The cores that a shadow outcome names each draw one fault event (R364, R366, R369). -/
def State.blame (s : State) (l : List (Nat × Nat)) : State :=
  ((l.map fun e => (e.1 / 256, e.2)).eraseDups).foldl (fun (s : State) e => s.watchEvent 0 e.1 e.2 .resteepMismatch) s

/-- A skipped shadow or tie run is counted and audited (R368). -/
def State.skipNote (s : State) (p : Nat) (w : Shadow) : State :=
  (s.bump 32 (0x8C00 + p) 2 1).condition .ok s.kdOrigin (detail1 p w.client w.core w.step) w.tag

/-- Check k is skipped: a shadow is over, a skipped tie run blames both cores (R368, R369). -/
def State.shadowSkip (s : State) (p k : Nat) (w : Shadow) : State :=
  let s := (s.skipNote p w).dropShadow p k
  if w.tie then (s.blame [(w.core, w.pos), w.otherAt]).shadowVote p w.step else s

/-- The digests of a shadow run differ: the mismatch is recorded, and a tie run is due (R369, R370). -/
def State.shadowDiffers (s : State) (p k : Nat) (w : Shadow) (d : Nat) : State :=
  let s := s.bump 32 (0x8C00 + p) 1 1
  let s := s.condition .resteepMismatch s.kdOrigin (detail1 p w.client w.core w.step) w.tag
  (s.setReg (0x6200 + p) 3 w.step).setShadow p k
    { w with tie := true, running := false, result := none, own := some d, otherAt := (w.target, w.place), since := s.localNs }

/-- The outcome of a tie run (R369). -/
def State.tieOutcome (s : State) (p k : Nat) (w : Shadow) (d : Nat) : State :=
  let s := s.dropShadow p k
  if d = w.digest then s.blame [w.otherAt]
  else if w.own = some d then (s.blame [(w.core, w.pos)]).shadowVote p w.step
  else (s.blame [(w.core, w.pos), w.otherAt, (w.target, w.place)]).shadowVote p w.step

/-- SHADOW_COMPLETE (R369): the digests are compared. A run that did not complete with ST_OK counts as skipped. -/
def State.doShadowComplete (s : State) (p k : Nat) : State :=
  match (s.shadowList p)[k]? with
  | none => s
  | some w =>
    match w.result with
    | none => s
    | some none => s.shadowSkip p k w
    | some (some d) =>
      if w.tie then s.tieOutcome p k w d
      else
        let s := s.bump 32 (0x8C00 + p) 0 1
        if d = w.digest then s.dropShadow p k else s.shadowDiffers p k w d

/-- SHADOW_WINDOW_EXPIRY (R368): not started within `shadow.window_ms`. -/
def State.doShadowExpiry (s : State) (p k : Nat) : State :=
  match (s.shadowList p)[k]? with
  | none => s
  | some w => if w.running then s else s.shadowSkip p k w

/-! ### Spares and retirement (R361 to R363) -/

/-- The physical position of spare i of a die (R21). -/
def sparePos (i : Nat) : Nat := 17 * i + 16

/-- Spare i of die d is a candidate: unused, not retired, and its last kiln slice passed (R361). -/
def State.spareOk (s : State) (d i : Nat) : Bool :=
  !s.posRetired d (sparePos i) && (s.coreAtPos d (sparePos i)).isNone && fld (s.reg (0x6850 + d) i) 23 16 == 0

/-- The candidates of a die. -/
def State.spares (s : State) (d : Nat) : List Nat := (List.range 16).filter (s.spareOk d)

/-- The nearer of two spares to a physical row; the lower one on a tie. -/
def nearer (row : Nat) (best : Option Nat) (i : Nat) : Option Nat :=
  let far (j : Nat) : Nat := (row - j) + (j - row)
  match best with
  | none => some i
  | some b => if far i < far b then some i else some b

/-- The spare that takes the number of a retired position (R361). -/
def State.chooseSpare (s : State) (d pos : Nat) : Option Nat := ((s.spares d).foldl (nearer (pos / 17)) none).map sparePos

/-- The marks of the array at a physical position (R32, R33). -/
def State.arrayMap (s : State) (d pos : Nat) : ArrayMap := SMap.get {} s.kiln.maps (d * 512 + pos)

/-- The presented columns of an array: presented column j is the j-th good physical column from the west (R32). -/
def ArrayMap.cols (m : ArrayMap) : List Nat := ((List.range 34).filter fun x => !m.badCols.getLsbD x).take 32

/-- The presented rows: presented row i is the i-th good physical row from the north (R33). -/
def ArrayMap.rows (m : ArrayMap) : List Nat := ((List.range 33).filter fun x => !m.badRows.getLsbD x).take 32

/-- The presented width W = min(32, g) (R32). -/
def ArrayMap.width (m : ArrayMap) : Nat := m.cols.length

/-- The bits of `core.array_state` that the marks decide (R51). -/
def ArrayMap.bits (m : ArrayMap) : Nat :=
  popCount m.badCols.toNat 34 <<< 24 + b2n (m.badRows != 0) <<< 3 + b2n (!m.nXposeOk) <<< 2 + b2n (!m.wXposeOk) <<< 1

/-- The physical column and row of presented cell (i, j) of core n (R32, R33, R36). -/
def State.cellAt (s : State) (n i j : Nat) : Option (Nat × Nat) :=
  let m := s.arrayMap (n / 256) (s.physPos n)
  match m.rows[i]?, m.cols[j]? with
  | some r, some c => some (r, c)
  | _, _ => none

/-- The entries of R50 of presented core n follow the core map. -/
def State.mapCore (s : State) (n : Nat) (pos : Option Nat) : State :=
  let d := n / 256
  let c := n % 256
  match pos with
  | some x =>
    let m := s.arrayMap d x
    ((s.setReg (0x9800 + d) c x).setReg (0x9840 + d) c m.width).setReg (0x9880 + d) c
      (m.bits + (if x % 17 = 16 then 16 else 0))
  | none => ((s.setReg (0x9800 + d) c 0xFFFF).setReg (0x9840 + d) c 0).setReg (0x9880 + d) c 1

/-- `core.spares_left` of a die and `inv.presented_cores` follow the map (R378, R447). -/
def State.countCores (s : State) (d : Nat) : State :=
  let s := s.setReg (0x6020 + d) 1 (s.spares d).length
  s.setReg 0x1014 0 ((List.range 16384).filter s.presented).length

/-- A physical position is retired in `core.retire_record`; it leaves the watch list. -/
def State.retirePos (s : State) (d pos : Nat) : State :=
  let s := s.watchForget 0 d pos
  s.kdChange (0x6020 + d) 0 (setFld (s.reg (0x6020 + d) 0) pos pos 1)

/-- The position of presented core n is retired and a spare takes its number, if any is left (R361, R362 step 2): the
Bool says whether one was. -/
def State.replaceCore (s : State) (n : Nat) : State × Bool :=
  let d := n / 256
  let pos := s.physPos n
  let s := s.retirePos d pos
  let x := s.chooseSpare d pos
  ((s.mapCore n x).countCores d, x.isSome)

/-- End the run of a saved context with a status; one without a run becomes EMPTY (R363). -/
def State.endSaved (s : State) (v : Saved) (st : Status) : State :=
  if !v.st.state.inRun then s.dropSaved v.core v.ctx v.part v.client
  else
    let r := s.runEnds v.core v.ctx v.st st
    { r.1 with saved := r.1.saved.map fun w =>
        if w.core == v.core && w.ctx == v.ctx && w.part == v.part && w.client == v.client then
          { w with st := r.2, streams := [], rings := [], bytes := [], poison := [], carry := [] }
        else w }

/-- No spare is left: every context saved from the core ends, and the sticky bit is set (R363). -/
def State.endAllSaved (s : State) (n : Nat) : State :=
  let mine := s.saved.filter fun v => v.core == n
  (mine.foldl (fun (s : State) v => s.endSaved v .unitRetired) s).condition .unitRetired s.kdOrigin
    (detail1 0xFF 0xFF n 0)

/-- No context remains on core n: none is live, and no command executes. -/
def State.vacant (s : State) (n : Nat) : Bool :=
  (s.core n).ctxs.all (fun e => e.2.state == .empty) && (s.core n).exec_.isNone

/-- The core as its slice or its re-initialisation leaves it: registers at reset, scratchpad zero with fresh check bits
(R362, R380). Its fault-record sequence goes on (R148). -/
def State.clearCore (s : State) (n : Nat) : State :=
  let mine (a : Nat) : Bool := decide (spBase n ≤ a) && decide (a < spBase n + spLen)
  let k := s.core n
  ({ s with mem := s.mem.filter fun e => !mine e.1, poison := s.poison.filter fun w => !mine w,
            flaws := s.flaws.filter fun e => !mine e.1 } : State).setCore n
    { faultSeq := k.faultSeq, kiln := k.kiln, maint := k.maint, retire := k.retire, scrubRow := k.scrubRow }

/-- Ask every context of a core to leave it (R351, R362 step 1, R386): runs at their next pre-emption point, the others
at once. -/
def State.clearOut (s : State) (n : Nat) : State :=
  (List.range 4).foldl (fun (s : State) h =>
    let x := s.ctx n h
    let s := s.askPreempt n h
    if x.state == .ready || x.state == .done then
      let s := s.bump 32 (0x8D18 + x.client) x.part 1
      (s.saveCtx n h true).1
    else s) s

/-- Retirement in service (R362, R363): once no context remains on the core, its position is retired, a spare takes its
number and the contexts resume there, or end. A kiln slice in progress comes first (R387). -/
def State.doRetire (s : State) (n : Nat) : State :=
  match (s.core n).retire with
  | none => s
  | some cause =>
    if (s.core n).maint then s
    else
      let s := s.clearOut n
      if !s.vacant n then s
      else
        let s := s.condition cause s.kdOrigin (detail1 0xFF 0xFF n 0)
        let r := s.replaceCore n
        let s := (r.1.bump 32 0x8E00 2 1).clearCore n
        let s := s.modCore n fun c => { c with retire := none, kiln := false }
        if r.2 then s.resumeCore n else s.endAllSaved n

/-- An event that may let a retirement of core n go on. -/
def State.retireCheck (s : State) (n : Nat) : State :=
  if (s.core n).retire.isSome then { s with events := s.events ++ [.retire n] } else s

/-- A word of a context's banks cannot be read: it is poisoned already, or its stored code word is damaged beyond
correction (R363). -/
def State.unreadable (s : State) (n h : Nat) : Bool :=
  let mine (a : Nat) : Bool := decide (spBase n ≤ a) && inBanks ((s.core n).banksOf h) (a - spBase n)
  s.poison.any mine || s.flaws.any fun e => mine e.1 && errClass e.2 == 2

/-- PREEMPTION_TAKEN (R142, R362, R363): a context saved for a retirement whose state meets an uncorrectable word ends. -/
def State.doPreempted (s : State) (n h : Nat) : State :=
  let x := s.ctx n h
  let bad := (s.core n).retire.isSome && s.canPreempt n h && s.unreadable n h
  let s := s.doPreemption n h
  let s := if bad then
      match s.savedOf n h x.part x.client with
      | some v => s.endSaved v .eccUncorrectable
      | none => s
    else s
  (s.retireCheck n).stir x.part

/-! ### Seal regions (R356) -/

/-- The virtual range of a valid region, and of its seal array. -/
def regionVa (w : Nat) : Nat × Nat := (fld w 55 20 * 4096, fld w 79 56 * 4096)
def regionSeals (w : Nat) : Nat × Nat := (fld w 127 80, fld w 79 56 * 4)

/-- A write of `seal.region` r of client c. -/
def State.writeRegion (s : State) (p c r v : Nat) : State × Status :=
  let a := regionVa v
  let z := regionSeals v
  let clash := (List.range 32).any fun i =>
    let w := if i = r then v else s.reg (0x6100 + p) (32 * c + i)
    let b := regionVa w
    bit w 0 && ((i != r && overlap a.1 a.2 b.1 b.2) || overlap z.1 z.2 b.1 b.2)
  let bad := fld v 19 1 != 0 || (bit v 0 &&
    (fld v 79 56 == 0 || z.1 % 4 != 0 || decide (2 ^ 48 < a.1 + a.2) || decide (2 ^ 48 < z.1 + z.2) || clash))
  match conds [(bad, .accessDenied), (s.clientLoaded p c, .busy)] with
  | [] => (s.setReg (0x6100 + p) (32 * c + r) v, .ok)
  | l => (s, lowest l)

end Sys2Proof.Machine
end

