-- ==== Sys2Proof/Machine/Kiln.lean ====
section
/-! DEFINITION. Kiln self-test (R379 to R391): due and forced core slices, their results, tun segment tests, and the
requests of `kiln.request`. Power-on kiln keeps its results for the maps of P5 (R389). -/

namespace Sys2Proof.Machine

/-! ### Due tests (R385, R386) -/

/-- The kinds of unit in the list of due tests. -/
def kilnCore : Nat := 0
def kilnSegment : Nat := 1
def kilnDie : Nat := 2
def kilnPort : Nat := 3

/-- Make a test due; one that is already due is merged with it (R388). -/
def State.makeDue (s : State) (d kind k : Nat) : State :=
  if s.kiln.due.contains (d, kind, k) then s
  else { s with kiln := { s.kiln with due := s.kiln.due ++ [(d, kind, k)] } }

/-- A test is no longer due. -/
def State.undue (s : State) (d kind k : Nat) : State :=
  { s with kiln := { s.kiln with due := s.kiln.due.filter (· != (d, kind, k)),
                                 forced := if kind = 0 then s.kiln.forced.filter (· != (d, k)) else s.kiln.forced } }

/-- Compute die d is present and in service. -/
def State.dieUp (s : State) (d : Nat) : Bool := !s.fused d && !s.fencedDie d

/-- KILN_DUE (R385): cores and unused spares by physical position, segments by number. -/
def State.doKilnDue (s : State) (d : Nat) (seg : Bool) (k : Nat) : State :=
  if !s.inP7 || !s.dieUp d then s
  else if seg then
    if 176 ≤ k ∨ s.reg (0x3180 + d) k = 2 then s else s.makeDue d kilnSegment k
  else if s.posRetired d k || s.kiln.slices.contains (d, k) then s
  else s.makeDue d kilnCore k

/-- A further core slice may start on die d (R385). -/
def State.sliceRoom (s : State) (d : Nat) : Bool :=
  decide ((s.kiln.slices.filter fun e => e.1 == d).length < s.reg 0x6800 2)

/-- Every context of core n is to leave it for a slice (R386). -/
def State.forceSlice (s : State) (d x : Nat) : State :=
  let s : State := { s with kiln := { s.kiln with forced := s.kiln.forced ++ [(d, x)] } }
  match s.coreAtPos d x with
  | some n => (s.modCore n fun c => { c with kiln := true }).clearOut n
  | none => s

/-- KILN_FORCE (R386): no quiet point has come within `kiln.defer_max_s`. -/
def State.doKilnForce (s : State) (d x : Nat) : State :=
  if s.kiln.due.contains (d, kilnCore, x) && !s.kiln.forced.contains (d, x) && s.sliceRoom d && !s.quiescing then
    (s.bump 32 0x8F01 d 1).forceSlice d x
  else s

/-- A quiet point of core n: no context has a run in progress (R386). -/
def State.quiet (s : State) (n : Nat) : Bool := (s.core n).ctxs.all fun e => !e.2.state.inRun

/-- The core at position x is isolated, and its clear begins (R380 steps 1 and 2). -/
def State.isolate (s : State) (d x : Nat) : State :=
  let s : State := { (s.undue d kilnCore x) with kiln := { (s.undue d kilnCore x).kiln with slices := s.kiln.slices ++ [(d, x)] } }
  match s.coreAtPos d x with
  | some n => (s.clearCore n).modCore n fun c => { c with kiln := true, maint := true }
  | none => s

/-- KILN_SLICE (R380, R386): at a quiet point, or once a forced test's contexts are saved, the core is isolated. A gated
group is woken first (R405). -/
def State.doKilnSlice (s : State) (d x : Nat) : State :=
  if !s.kiln.due.contains (d, kilnCore, x) || !s.sliceRoom d || s.quiescing then s
  else match s.coreAtPos d x with
    | none => s.isolate d x
    | some n =>
      if !s.awake n then s.requestWake n
      else if !s.quiet n && !s.kiln.forced.contains (d, x) then s
      else
        let s := (s.modCore n fun c => { c with kiln := true }).clearOut n
        if s.vacant n then s.isolate d x else s

/-! ### Results (R382, R384, R391) -/

/-- A kiln result (R391). -/
def State.kilnResult (s : State) (st : Status) (failed : Nat) : Nat :=
  (s.localNs / 1000000 % 2 ^ 40) <<< 24 + st.code <<< 16 + failed <<< 8

/-- Good columns and failed rows of an array map (R32, R33). -/
def BistGood (r : BistResult) : Nat := 34 - popCount r.badCols.toNat 34
def BistRows (r : BistResult) : Nat := popCount r.badRows.toNat 33

/-- The sections of a core slice that failed (R379, R381, R382). -/
def bistFailed (r : BistResult) : Nat :=
  b2n (!r.clearOk || !r.memOk) + 2 * b2n (decide (BistGood r < 24) || decide (1 < BistRows r)) + 4 * b2n (!r.logicOk)

/-- The marks that a BIST leaves on a position that passed (R32, R33, R38). -/
def bistMap (r : BistResult) : ArrayMap := ⟨r.badCols, r.badRows, r.wXposeOk, r.nXposeOk⟩

/-- The result entry of a position: its presented core's, or its spare's (R390). -/
def State.noteCoreResult (s : State) (d x v : Nat) : State :=
  match s.coreAtPos d x with
  | some n => s.setReg (0x6810 + d) (n % 256) v
  | none => if x % 17 = 16 then s.setReg (0x6850 + d) (x / 17) v else s

/-- A failure of a unit of die d: counted, audited, and its sticky bit (R384). -/
def State.kilnFailure (s : State) (d core subject : Nat) : State :=
  (s.bump 32 0x8F02 d 1).condition .unitRetired (unitOrigin d) (detail1 0xFF 0xFF core subject)

/-- A clean slice of a watched unit (R365). -/
def State.watchClean (s : State) (kind d pos : Nat) : State :=
  match s.watchFind kind d pos with
  | none => s
  | some i =>
    let w := s.watch i
    let k := fld w 51 48 + 1
    if s.reg 0x6000 1 ≤ k then s.watchDrop i
    else s.kdChange (0x6010 + i / 256) (i % 256) (setFld w 51 48 k)

/-- Fault events that came during the slice are applied now (R387). -/
def State.applyLate (s : State) (d x : Nat) : State :=
  let mine := s.kiln.late.filter fun e => e.1 == d && e.2.1 == x
  let s : State := { s with kiln := { s.kiln with late := s.kiln.late.filter fun e => !(e.1 == d && e.2.1 == x) } }
  mine.foldl (fun (s : State) e => s.watchEvent 0 d x e.2.2) s

/-- The core leaves isolation, and the contexts saved for the slice resume (R351, R380 step 8). -/
def State.endSlice (s : State) (n : Nat) : State :=
  let s := s.modCore n fun c => { c with kiln := false, maint := false }
  if (s.core n).retire.isSome then s.retireCheck n else s.resumeCore n

/-- The outcome of a slice in service (R380 steps 6 to 8, R384). -/
def State.sliceOutcome (s : State) (d x : Nat) (r : BistResult) : State :=
  let bad := bistFailed r
  let n := s.coreAtPos d x
  let s : State := { s with kiln := { s.kiln with slices := s.kiln.slices.filter (· != (d, x)) } }
  let s := (s.bump 32 0x8F00 d 1).noteCoreResult d x (s.kilnResult (if bad = 0 then .ok else .unitRetired) bad)
  if bad = 0 then
    let s : State := { s with kiln := { s.kiln with maps := SMap.putD {} (d * 512 + x) (bistMap r) s.kiln.maps } }
    let s := (s.watchClean 0 d x).applyLate d x
    match n with
    | some n => (((s.clearCore n).mapCore n (some x)).countCores d).endSlice n
    | none => s.countCores d
  else
    let s := s.kilnFailure d (match n with | some n => n | none => 0xFFFF) x
    match n with
    | none => (s.retirePos d x).countCores d
    | some n =>
      let q := s.replaceCore n
      let s := ((q.1.bump 32 0x8E00 2 1).clearCore n).modCore n fun c => { c with retire := none, kiln := false, maint := false }
      let s := s.applyLate d x
      if q.2 then s.resumeCore n else s.endAllSaved n

/-- A result of power-on kiln is kept until the maps of P5 are built (R389). -/
def State.p5Note (s : State) (item : Nat) (bad : Nat) : State :=
  { s with power := { s.power with tested := SMap.put item bad s.power.tested } }

/-- The items of power-on kiln: positions, segments, dies and optical slices. -/
def p5Core (d x : Nat) : Nat := d * 512 + x
def p5Seg (d g : Nat) : Nat := 0x100000 + d * 512 + g
def p5Die (u : Nat) : Nat := 0x200000 + u
def p5Lane (x k : Nat) : Nat := 0x300000 + x * 512 + k

/-- KILN_SLICE_DONE: in service, or in P5 (R380, R389). -/
def State.doKilnSliceDone (s : State) (d x : Nat) (r : BistResult) : State :=
  if s.inPhase 5 && s.dieUp d && !s.posRetired d x then
    let s := s.p5Note (p5Core d x) (bistFailed r)
    if bistFailed r = 0 then
      { s with kiln := { s.kiln with maps := SMap.putD {} (d * 512 + x) (bistMap r) s.kiln.maps } }
    else s
  else if s.kiln.slices.contains (d, x) then s.sliceOutcome d x r
  else s

/-- Thermal throttle: the slices in progress on die d are discarded; each core is re-initialised and restored, and its
test falls due again at once (R387). -/
def State.abortSlices (s : State) (d : Nat) : State :=
  let mine := s.kiln.slices.filter fun e => e.1 == d
  mine.foldl (fun (s : State) e =>
    let s : State := { s with kiln := { s.kiln with slices := s.kiln.slices.filter (· != e) } }
    let s := (s.bump 32 0x8F03 d 1).makeDue d kilnCore e.2
    match s.coreAtPos d e.2 with
    | some n => ((s.clearCore n).applyLate d e.2).endSlice n
    | none => s) s

/-! ### Tun segments (R383, R86) -/

/-- The segment of a die as a list of its ECC words that hold damage: poisoned words and stored errors. -/
def inSegment (d g a : Nat) : Bool := decide (tunBase d + g * 0x400000 ≤ a) && decide (a < tunBase d + (g + 1) * 0x400000)

/-- Bank and row of a tun word (R83). -/
def tunRow (a : Nat) : Fin 16 × Nat :=
  let o := a % 0x40000000
  (Fin.ofNat 16 (o / 4096), (o / 65536 * 4096 + o % 4096) / 1024)

/-- The copy of a segment corrects its single-bit errors and finds its uncorrectable words, each a fault event of the segment
(R383 step 3, R364). -/
def State.sweepSegment (s : State) (d g : Nat) : State :=
  let bad := (s.flaws.filter fun e => inSegment d g e.1).map (·.1)
  bad.foldl (fun (s : State) w =>
    if s.flawOf w = 1 then
      let k := (s.eccCounters w).1
      { (s.bump 32 k.1 k.2 1) with flaws := SMap.del w s.flaws }
    else (s.foundBad w).condition .eccUncorrectable (unitOrigin d) (detail1 0xFF 0xFF 0xFFFF g)) s

/-- Replace failing rows by spares, bank by bank: none when a bank runs out (R86). The spares used stay used. -/
def State.substitute (s : State) (d : Nat) (rows : List (Fin 16 × Nat)) : State × Bool :=
  (List.range 16).foldl (fun (q : State × Bool) b =>
    let need := (rows.filter fun e => e.1.val == b).length
    let left := q.1.reg (0x3140 + d) b
    (q.1.setReg (0x3140 + d) b (left - need), q.2 && decide (need ≤ left))) (s, true)

/-- A holding segment: the highest-numbered free one on the die (R383 step 1). -/
def State.holding (s : State) (d g : Nat) : Option Nat :=
  (List.range 176).reverse.find? fun k =>
    k != g && s.segOwner d k == 0 && s.reg (0x3180 + d) k == 0 && !s.filling.contains (d * 256 + k)

/-- The faulting words of a segment that has left the watch list are forgotten. -/
def State.forgetWords (s : State) (d g : Nat) : State :=
  if (s.watchFind 1 d g).isSome then s else { s with faultWords := s.faultWords.filter fun w => !inSegment d g w }

/-- Failing rows that spares have replaced are recorded with ST_OK (R384). -/
def State.rowsNote (s : State) (d g : Nat) (rows : List (Fin 16 × Nat)) : State :=
  if rows.isEmpty then s else s.condition .ok (unitOrigin d) (detail1 0xFF 0xFF 0xFFFF g)

/-- The March test of segment g and what follows it (R383 steps 4 to 6, R384). -/
def State.marchSegment (s : State) (d g : Nat) (rows : List (Fin 16 × Nat)) : State :=
  match s.substitute d rows.eraseDups with
  | (s, true) =>
    let s := s.rowsNote d g rows
    (((s.setReg (0x3180 + d) g 0).setReg (0x6890 + d) g (s.kilnResult .ok 0)).watchClean 1 d g).forgetWords d g
  | (s, false) =>
    let s := (s.watchForget 1 d g).forgetWords d g
    ((s.setReg (0x3180 + d) g 2).setReg (0x6890 + d) g (s.kilnResult .unitRetired 8)).kilnFailure d 0xFFFF g

/-- SEGMENT_TEST (R383, R365): a due test, or the immediate one of a second fault, which also replaces the rows that held
faulting words, rewritten since or not. In P5 every segment is tested without a holding segment (R389). -/
def State.doSegmentTest (s : State) (d g : Nat) (badRows : List (Fin 16 × Nat)) : State :=
  if s.inPhase 5 && s.dieUp d then
    let r := s.substitute d badRows.eraseDups
    (if r.2 then r.1.rowsNote d g badRows else r.1).p5Note (p5Seg d g) (b2n (!r.2) * 8)
  else
    let due := s.kiln.due.contains (d, kilnSegment, g)
    let now := s.reg (0x3180 + d) g == 1
    if !s.inP7 || s.quiescing || !s.dieUp d || !(due || now) then s
    else if s.segOwner d g != 0 && (s.holding d g).isNone then
      { ((s.undue d kilnSegment g).setReg (0x6890 + d) g (s.kilnResult .busy 0)) with
        kiln := { (s.undue d kilnSegment g).kiln with spans := s.kiln.spans.filter (· != (d, g)) ++ [(d, g)] } }
    else
      let s := (s.undue d kilnSegment g).sweepSegment d g
      let held := if s.reg (0x3180 + d) g = 1 then ((s.poison ++ s.faultWords).filter (inSegment d g)).map tunRow else []
      s.marchSegment d g (held ++ badRows)

/-- SEGMENT_TEST_RETRY (R383): 60 s after a skipped test. -/
def State.doSegmentRetry (s : State) (d g : Nat) : State :=
  if s.kiln.spans.contains (d, g) then
    ({ s with kiln := { s.kiln with spans := s.kiln.spans.filter (· != (d, g)) } } : State).makeDue d kilnSegment g
  else s

/-! ### Requests (R388) -/

/-- Every partition that holds a unit of die d is drained (R341, R388). -/
def State.dieDrained (s : State) (d : Nat) : Bool :=
  s.builtParts.all fun p => !((s.units p).any fun u => u / 4 == d) || s.drained p

/-- A write of `kiln.request`. -/
def State.writeKilnRequest (s : State) (v : Nat) : State × Status :=
  let d := fld v 27 22
  let k := fld v 21 14
  match fld v 31 28 with
  | 1 =>
    if s.fused d then (s, .engineAbsent)
    else if !s.presented (256 * d + k) then (s, .unitRetired)
    else
      let x := s.physPos (256 * d + k)
      if s.kiln.slices.contains (d, x) then (s, .ok)
      else
        let s := s.makeDue d kilnCore x
        (if bit v 13 && !s.kiln.forced.contains (d, x) then s.forceSlice d x else s, .ok)
  | 2 =>
    if s.fused d then (s, .engineAbsent)
    else if 176 ≤ k then (s, .accessDenied)
    else if s.reg (0x3180 + d) k = 2 || s.fencedDie d then (s, .unitRetired)
    else (s.makeDue d kilnSegment k, .ok)
  | 3 =>
    if s.fused d then (s, .engineAbsent)
    else if !s.dieDrained d then (s, .busy)
    else (s.makeDue d kilnDie 0, .ok)
  | 4 =>
    if 8 ≤ k || fld v 27 26 != 0 then (s, .accessDenied)
    else if s.reg 0x5020 (8 * fld v 25 22 + k) ≠ 0 then (s, .busy)
    else (s.makeDue (80 + fld v 25 22) kilnPort k, .ok)
  | _ => (s, .accessDenied)

end Sys2Proof.Machine
end

