-- ==== Sys2Proof/Machine/Power.lean ====
section
/-! DEFINITION. Clocks, operating points, the governor, temperature, the power inputs, quiesce and module reset, KD
takeover, and the power-up phases (R392 to R418, R468 to R470, R475). -/

namespace Sys2Proof.Machine

/-! ### Dies -/

/-- A die with a PLL as a unit of R460. -/
def unitOf : PanelDie → Nat
  | .cd d => d.val
  | .mx m => 64 + m.val
  | .lx x => 80 + x.val
  | .kd k => 96 + k.val

/-- The units of the module. -/
def State.allUnits (s : State) : List Nat := (List.range 98).filter fun u => !(decide (u < 64) && s.fused u)

/-- The units whose PLLs run: the KD dies, and every die that has ramped and is not fenced (R411). -/
def State.clocked (s : State) : List Nat :=
  s.allUnits.filter fun u =>
    !s.power.fenced.contains u && (decide (96 ≤ u) || decide (3 < s.phase) || s.power.ramped.contains u)

/-- Change the power state. -/
def State.modPower (s : State) (f : Power → Power) : State := { s with power := f s.power }

/-- The binary32 nearest to v / d (R441, R475). -/
def ratioF32 (v : Int) (d : Nat) : Nat :=
  let m := v.natAbs * 2 ^ 60
  (toF32 (.fin (decide (v < 0)) (2 * (m / d) + (if m % d = 0 then 0 else 1)) (-61))).toNat

/-! ### Sessions and the unlock, as far as a reset or a takeover ends them -/

/-- The origin of a session (R460). -/
def Session.origin (x : Session) : Origin :=
  ⟨1, BitVec.ofNat 8 x.slot, BitVec.ofNat 8 x.tuple.port.val, BitVec.ofNat 32 x.id, BitVec.ofNat 8 x.roles⟩

/-- The KIND 3 record of a session event (R461): cause 0 for an opening too. -/
def State.sessionNote (s : State) (x : Session) (st : Status) (cause : Nat) : State :=
  s.record { kind := 3, origin := x.origin, status := st, detail := (cause % 256) <<< 32 + x.id % 2 ^ 32 }

/-- Close sessions that meet a test, each with its record (R452). -/
def State.closeSessions (s : State) (f : Session → Bool) (cause : Nat) : State :=
  let gone := s.sessions.filter f
  let open_ := gone.filter (·.isOpen)
  let s : State := { s with sessions := s.sessions.filter fun x => !f x }
  let s := open_.foldl (fun (s : State) x => s.sessionNote x .ok cause) s
  s.setReg 0x7080 2 ((s.sessions.filter (·.isOpen)).length)

/-- Debug is unlocked (R436). -/
def State.unlocked (s : State) : Bool := bit (s.reg 0x7030 2) 15

/-- Every context goes on from its halt, live or saved (R436, R437). -/
def State.releaseHalts (s : State) : State :=
  let go (x : Ctx) : Ctx := { x with halted := false, haltReq := false, stepOne := false, noMatch := x.halted || x.noMatch }
  { s with
    cores := s.cores.map fun (e : Nat × Core) => (e.1, { e.2 with ctxs := e.2.ctxs.map fun (c : Nat × Ctx) => (c.1, go c.2) })
    saved := s.saved.map fun (v : Saved) => { v with st := go v.st } }

/-- The unlock ends (R436): it is recorded; breakpoints are cleared and halted contexts released. -/
def State.endUnlock (s : State) (status : Status := .ok) : State :=
  if !s.unlocked then s
  else
    let s : State := { s.flushMerge with dbg := { s.flushMerge.dbg with busy := none } }
    let s := s.record { kind := 2, origin := s.tapOrigin, status := status, detail := 0x03 <<< 56 }
    let s := s.setReg 0x7030 2 (setFld (setFld (setFld (s.reg 0x7030 2) 15 15 0) 13 11 0) 7 4 0)
    ((List.range 16).foldl (fun (s : State) b => s.setReg 0x7031 b 0) s).releaseHalts

/-! ### Module reset and quiesce (R414, R415) -/

/-- The dictionary entries that survive a module reset: persistent and standby (R444). -/
def keptKeys (d : SMap Nat) : SMap Nat :=
  List.filter (fun e : Nat × Nat => dictPers e.1 == .persistent || dictPers e.1 == .standby) d

/-- The state after a module reset (R414): P0, the shutdown latch as it stood, and what the table of R414 keeps. -/
def State.afterReset (s : State) : State :=
  let p := s.power
  let r : State :=
    { dict := keptKeys s.dict
      fw := { preferred := s.fw.preferred, trial := s.fw.trial, banks := s.fw.banks }
      power := { standby := p.standby, stbyEn := p.stbyEn, modResetN := p.modResetN, inRange := p.inRange,
                 started := p.started, phaseAt := s.localNs }
      faultWords := s.faultWords, out := s.out, free := s.free, time := s.time, pending := s.pending }
  if s.latch then r.setReg 0x2030 0 (2 ^ 6) else r

/-- A module reset: the unlock and every session end first (R436, R452). -/
def State.moduleReset (s : State) : State := ((s.endUnlock).closeSessions (fun _ => true) 3).afterReset

/-- Every run in progress ends as on abort (R415 step 2). -/
def State.abortAll (s : State) : State :=
  let live := s.cores.flatMap fun e => (e.2.ctxs.filter fun x => x.2.state.inRun).map fun x => (e.1, x.1)
  let s := live.foldl (fun (s : State) e => s.endRun e.1 e.2 .aborted) s
  (s.saved.filter fun v => v.st.state.inRun).foldl (fun (s : State) v => s.endSaved v .aborted) s

/-- Quiesce (R415). The steps run to their end within the row; the module is then in reset, in P0 (log entry 20). -/
def State.quiesce (s : State) (latch : Bool := false) : State :=
  let s := s.abortAll
  let s := if latch then s.setReg 0x2030 0 (setFld (s.reg 0x2030 0) 6 6 1) else s
  ((s.condition .aborted s.kdOrigin).bump 32 0x8000 1 1).moduleReset

/-- The main power is on or ramping: the phases from P3. -/
def State.powered (s : State) : Bool := decide (3 ≤ s.phase)

/-! ### Fences (R384, R411) -/

/-- End every run and every load on compute die d (R384). -/
def State.endDie (s : State) (d : Nat) (st : Status) : State :=
  let on (n : Nat) : Bool := n / 256 == d
  let mine := (s.cores.filter fun e => on e.1).flatMap fun e => e.2.ctxs.map fun x => (e.1, x.1)
  let s := mine.foldl (fun (s : State) e =>
    let x := s.ctx e.1 e.2
    match x.state, x.load with
    | .loading, some l => s.loadFails e.1 e.2 l [st]
    | _, _ => if x.state.inRun then s.endRun e.1 e.2 st else s) s
  (s.saved.filter fun v => on v.core && v.st.state.inRun).foldl (fun (s : State) v => s.endSaved v st) s

/-- KD takeover (R409): the standby die becomes active. Without a ready standby die the device quiesces. -/
def State.takeover (s : State) : State :=
  if s.reg 0x2040 1 ≠ 1 then s.quiesce
  else
    let s := (s.endUnlock).closeSessions (fun _ => true) 4
    let s := (s.setReg 0x2040 0 (1 - s.reg 0x2040 0)).setReg 0x2040 1 2
    let s := s.bump 32 0x8000 2 1
    let s := s.qps.foldl (fun (s : State) e =>
      if s.qpState (e.1 / 1024) (e.1 % 1024) = 1 then s.qpError (e.1 / 1024) (e.1 % 1024) else s) s
    let s := s.intakes.foldl (fun (s : State) e =>
      if e.2.got == 0 && !e.2.curVoid then s else s.intakeVoid (e.1 / 16) (e.1 % 16)) s
    if s.reg 0x2000 1 = 1 then
      (s.setReg 0x2000 1 2).modPower fun p => { p with port := some (s.reg 0x2000 0), relock := s.clocked, tried := [] }
    else s

/-- A die is fenced until module reset, or what a second failure of its PLL or monitor brings (R384, R411). -/
def State.fenceDie (s : State) (u : Nat) : State :=
  if s.fencedDie u then s
  else
    let s := s.modPower fun p => { p with fenced := p.fenced ++ [u], relock := p.relock.filter (· != u),
                                          moves := SMap.del u p.moves, suspect := p.suspect.filter (· != u) }
    let s := s.condition .unitRetired (unitOrigin u) (detail1 0xFF 0xFF 0xFFFF u)
    if u < 64 then
      let s : State := { s with
        govQueue := s.govQueue.filter fun q => q.die != u
        kiln := { s.kiln with due := s.kiln.due.filter fun e => e.1 != u, slices := s.kiln.slices.filter fun e => e.1 != u } }
      ((s.bump 32 0x8F02 u 1).setReg 0x1010 u 2).endDie u .unitRetired
    else if u < 80 then
      let s := s.setReg 0x1011 (u - 64) 2
      if s.phase < 5 then s
      else (List.range 8).foldl (fun (s : State) c =>
        if bit (s.reg 0x3020 (u - 64)) c then s else s.retireChannel (u - 64) c true) s
    else if u < 96 then
      (List.range 8).foldl (fun (s : State) k => s.portDown (8 * (u - 80) + k) 0) (s.setReg 0x1012 (u - 80) 2)
    else if u - 96 = s.reg 0x2040 0 then s.takeover
    else s.setReg 0x2040 1 2

/-- DIE_CHECK (R379, R384): a failed check is made once more; the second failure acts. -/
def State.doDieCheck (s : State) (u : Nat) (ok : Bool) : State :=
  if s.phase < 5 || s.fencedDie u || (decide (u < 64) && s.fused u) then s
  else
    let s := s.undue u kilnDie 0
    if ok then (s.modPower fun p => { p with suspect := p.suspect.filter (· != u) }).p5Note (p5Die u) 0
    else if s.power.suspect.contains u then (s.p5Note (p5Die u) 1).fenceDie u
    else s.modPower fun p => { p with suspect := p.suspect ++ [u] }

/-- LANE_LOOPBACK (R379, R384): slices 8p to 8p + 7 are those of port p, 64 to 67 the spares. -/
def State.doLoopback (s : State) (x k : Nat) (ok : Bool) : State :=
  let unused := if k < 64 then s.portState (8 * x + k / 8) == 0 else s.reg 0x5070 x != 0
  if s.phase < 5 || s.fencedDie (80 + x) || !(s.inPhase 5 || unused) || s.kiln.badSlices.contains (x, k) then s
  else
    let s := (s.p5Note (p5Lane x k) (b2n (!ok))).undue (80 + x) kilnPort (k / 8)
    if ok then s
    else
      let s : State := { s with kiln := { s.kiln with badSlices := s.kiln.badSlices ++ [(x, k)] } }
      let s := if 64 ≤ k then s.setReg 0x5070 x (s.reg 0x5070 x - 1) else s
      s.condition .unitRetired (unitOrigin (80 + x)) (detail1 0xFF 0xFF 0xFFFF k)

/-! ### Operating points (R401 to R403) -/

/-- The effective point of a die (R401). -/
def State.effPoint (s : State) (d : Nat) : Nat := min (s.reg 0x2010 d) (s.reg 0x2012 d)

/-- Begin the transition from the point in use to the effective point (R401). In holdover a lowering by the ceiling
switches at once, in the unlocked state (R403). -/
def State.beginPoint (s : State) (d : Nat) (ceilingFell : Bool) : State :=
  let a := s.reg 0x2011 d
  let b := s.effPoint d
  let put (s : State) : State :=
    s.modPower fun p => { p with moves := SMap.put d { src := a, dst := b, owed := b - a } p.moves }
  if a < b then
    (List.range (b - a)).foldl (fun (s : State) _ => s.askGovernor ⟨d, none, s.localNs⟩) (put s)
  else if b < a then
    let s := put s
    if ceilingFell && s.reg 0x2000 1 == 2 then s.setReg 0x2011 d b else s
  else s

/-- A die whose effective point differs from the one in use starts a transition, once none is in progress and no kiln
slice runs on it (R387, R403). Before P7 the dies stay at OP0 (R411, R412). -/
def State.opUpdate (s : State) (d : Nat) : State :=
  if !s.inP7 || !s.dieUp d || (SMap.find? d s.power.moves).isSome || s.kiln.slices.any (fun e => e.1 == d) then s
  else s.beginPoint d false

/-- A transition ends: a target that changed meanwhile takes effect (R403). -/
def State.endMove (s : State) (d : Nat) : State :=
  (s.modPower fun p => { p with moves := SMap.del d p.moves }).opUpdate d

/-- A write of `pwr.op_target`. -/
def State.writeOpTarget (s : State) (d v : Nat) : State × Status := ((s.setReg 0x2010 d v).opUpdate d, .ok)

/-- A transition's PLL is stable at the new frequency (R401 step 2); a lowering switches now. -/
def State.moveLocked (s : State) (d : Nat) : State :=
  match SMap.find? d s.power.moves with
  | none => s
  | some m =>
    if s.reg 0x2000 1 ≠ 1 ∨ m.owed ≠ 0 then s
    else
      let s := s.modPower fun p => { p with moves := SMap.put d { m with locked := true } p.moves }
      if m.dst < m.src then s.setReg 0x2011 d m.dst else s

/-- VOLTAGE_SETTLED (R401): a raise switches now; either transition ends. -/
def State.doSettled (s : State) (d : Nat) : State :=
  match SMap.find? d s.power.moves with
  | none => s
  | some m => if m.locked then (s.setReg 0x2011 d m.dst).endMove d else s

/-- The reported ceiling of a die: the lower of the thermal and the low-input ceiling (R469). -/
def State.setCeiling (s : State) (d : Nat) : State :=
  let t := (SMap.get {} s.power.therm d : Therm).ceiling
  let v := min t (if s.reg 0x2060 3 = 1 then 2 else 3)
  let old := s.reg 0x2012 d
  let s := s.setReg 0x2012 d v
  if v < old then
    let s := (s.bump 32 0x8001 d 1).abortSlices d
    if !s.inP7 then s
    else match SMap.find? d s.power.moves with
      | some m =>
        if m.src < m.dst ∨ !m.locked then
          -- a raise that has not passed step 3 turns into a lowering, and a lowering goes to the new point (R403)
          let s : State := { s with govQueue := s.govQueue.filter fun q => !(q.die == d && q.group.isNone) }
          (s.modPower fun p => { p with moves := SMap.del d p.moves }).beginPoint d true
        else s
      | none => s.beginPoint d true
  else if old < v then s.opUpdate d
  else s

/-! ### Boundary states (R417) -/

/-- The transmit lanes of host port p carry a signal: its receiver has locked, and the module is not in reset. -/
def State.hostLit (s : State) (p : Nat) : Bool := s.power.standby && s.power.stbyEn && s.power.modResetN && s.linkUp p

/-- The fibre of port g is lit: from P6 on, where the port is enabled and its die powered. -/
def State.fibreLit (s : State) (g : Nat) : Bool := decide (6 ≤ s.phase) && s.portState g != 0

/-! ### The governor (R405, R406) -/

/-- GOVERNOR_WINDOW: a new window of 1 ms. -/
def State.doWindow (s : State) : State :=
  (s.modPower fun p => { p with spent := 0 }).govern s.govQueue.length

/-- A group is idle: no context of it has a run in progress, no core of it is in a slice or in maintenance, and none of
its wakes is queued (R405). -/
def State.groupIdle (s : State) (d g : Nat) : Bool :=
  !(s.govQueue.any fun q => q.die == d && q.group == some g) &&
    s.cores.all fun e => !(e.1 / 256 == d && groupOf e.1 == g) ||
      (!e.2.kiln && !e.2.maint && e.2.ctxs.all fun x => !x.2.state.inRun)

/-- GROUP_GATE (R405, R406): an idle group is gated when the window has budget for the step. -/
def State.doGate (s : State) (d g : Nat) : State :=
  let c := s.stepCost ⟨d, some g, 0⟩
  if bit (s.reg 0x2013 d) g && s.groupIdle d g && decide (s.power.spent + c ≤ s.reg 0x2020 1) then
    (s.setReg 0x2013 d (setFld (s.reg 0x2013 d) g g 0)).modPower fun p => { p with spent := p.spent + c }
  else s

/-! ### Temperature (R404) -/

/-- Thermal shutdown (R404). -/
def State.thermalShutdown (s : State) : State := (s.bump 32 0x8000 5 1).quiesce true

/-- The thermal ceiling after one sample of t tenths of a degree; `eff` is the effective point before it. -/
def Therm.sample (x : Therm) (eff : Nat) (t : Int) : Therm :=
  let hot := if 1000 ≤ t then x.hot + 1 else 0
  let cool := if t ≤ 950 then x.cool + 1 else 0
  let crit := if 1050 ≤ t then x.crit + 1 else 0
  let c := if 1050 ≤ t then 0
    else if hot = 1 then eff - 1
    else if 1 < hot ∧ hot % 10 = 1 then x.ceiling - 1
    else if 100 < cool then min 3 (x.ceiling + 1)
    else x.ceiling
  { ceiling := if hot = 1 then min x.ceiling c else c, hot := hot, cool := if 100 < cool then 1 else cool, crit := crit }

/-- THERMAL_SAMPLE (R404, R475): the highest reading of a die, in tenths of a degree. -/
def State.doThermal (s : State) (u : Nat) (t : Int) : State :=
  if (decide (u < 64) && s.fused u) || (decide (u < 96) && !s.powered) || s.phase = 0 then s
  else
    let f := ratioF32 t 10
    if u < 64 then
      let s := s.setReg 0x2050 u f
      let x := (SMap.get {} s.power.therm u : Therm).sample (s.effPoint u) t
      let s := (s.modPower fun p => { p with therm := SMap.putD {} u x p.therm }).setCeiling u
      if 10 < x.crit then s.thermalShutdown else s
    else
      let s := if u < 80 then s.setReg 0x2051 (u - 64) f else if u < 96 then s.setReg 0x2052 (u - 80) f
        else s.setReg 0x2053 (u - 96) f
      if 1050 ≤ t then s.thermalShutdown else s

/-! ### The 48 V input (R416, R468 to R470) -/

/-- The compute dies' ceilings follow the low-input state. -/
def State.ceilings (s : State) : State := (List.range 64).foldl (fun (s : State) d => if s.fused d then s else s.setCeiling d) s

/-- The low-input state changes (R469): one audit record. -/
def State.lowInput (s : State) (low : Bool) : State :=
  let s := (s.setReg 0x2060 3 (b2n low)).condition .ok s.kdOrigin
  (if low then s.bump 32 0x8000 6 1 else s).ceilings

/-- An average over 1 ms (R469): sensors, range, and the low-input ceiling. The Bool says that the input is out of
range. -/
def State.average (s : State) (mv ma : Int) : State × Bool :=
  let s := (s.setReg 0x2060 0 (ratioF32 mv 1000)).setReg 0x2060 1 (ratioF32 ma 1000)
  let out := decide (mv < 40000) || decide (60000 < mv)
  let good := if 46000 ≤ mv then s.power.goodMs + 1 else 0
  let s := s.modPower fun p => { p with inRange := !out, goodMs := good }
  let low := s.reg 0x2060 3 == 1
  if !low && decide (mv < 45000) then (s.lowInput true, out)
  else if low && decide (100 < good) then (s.lowInput false, out)
  else (s, out)

/-- INPUT_SAMPLE (R468 to R470): one sample each 100 µs; ten make an average. A reversed input damages the module, and
the spec gives it no further behaviour. -/
def State.doInput (s : State) (mv ma : Int) : Out :=
  if mv < -300 then .fault .moduleDamaged
  else
    let p := s.power
    let over4 := if 400000 < ma then p.over400 + 1 else 0
    let over44 := decide (440000 < ma) && (match p.amps.getLast? with | some x => decide (440000 < x) | none => false)
    let vs := p.volts ++ [mv]
    let as_ := p.amps ++ [ma]
    let s := s.modPower fun p => { p with volts := vs, amps := as_, over400 := over4 }
    let hard := over44 || decide (50 < over4) || decide (60000 < mv)
    let r := if vs.length < 10 then (s, false)
      else (s.modPower fun p => { p with volts := [], amps := [ma] }).average (vs.sum / 10) ((as_.drop (as_.length - 10)).sum / 10)
    let s := if hard then r.1.modPower fun p => { p with inRange := false } else r.1
    if (hard || r.2) && s.powered && (decide (3 < s.phase) || !s.power.ramped.isEmpty) then .next s.quiesce else .next s

/-! ### The reference (R392 to R398) -/

/-- The host ports whose receiver has locked (R418). -/
def State.lockedPorts (s : State) : List Nat := bitList (s.reg 0x2000 3) 4

/-- P1 takes the first locked port in order (R393), and the PLLs of the KD dies lock. -/
def State.clockPort (s : State) : State :=
  match s.lockedPorts with
  | p :: _ => (s.setReg 0x2000 0 p).modPower fun w => { w with relock := [96, 97] }
  | [] => (s.setReg 0x2000 0 0xFF).modPower fun w => { w with relock := [] }

/-- P0 ends when all of its conditions hold (R410). -/
def State.leaveP0 (s : State) : State :=
  let p := s.power
  if s.phase = 0 ∧ !s.haltedBoot ∧ p.standby ∧ p.stbyEn ∧ p.modResetN ∧ !s.latch ∧ s.lockedPorts ≠ [] then
    (s.setPhase 1).clockPort
  else s

/-- KD boot begins (R424 step 1): the boot record is read, and rewritten when the trial flag is set. -/
def State.enterP2 (s : State) : State :=
  let f := s.fw
  (({ s with fw := { f with entry := f.preferred, onTrial := f.trial, kds := [],
                            preferred := if f.trial then 1 - f.preferred else f.preferred, trial := false } } : State)).setPhase 2

/-- REF is stable on the KD dies (R395, R410): time starts, or resumes with an audit record. -/
def State.refStable (s : State) : State :=
  let s := s.setReg 0x2000 1 1
  let s := if s.power.started then s.condition .ok s.kdOrigin else s.modPower fun p => { p with started := true }
  s.enterP2

/-- Step 4 of R397. -/
def State.refDone (s : State) (p : Nat) : State :=
  let s := ((s.setReg 0x2000 1 1).setReg 0x2000 0 p).bump 32 0x8000 0 1
  let s := s.condition .ok s.kdOrigin
  let s := s.modPower fun w => { w with port := none, counting := none, tried := [] }
  { s with events := s.events ++ [.answer .reference .ok] }

/-- The relock may be complete. -/
def State.relocked (s : State) : State :=
  match s.power.port with
  | some p => if s.power.relock.isEmpty then s.refDone p else s
  | none => s

/-- Holdover begins (R396, R397 step 1). A switch that a write asked for is given up, with ST_BUSY (R398). -/
def State.loseRef (s : State) : State :=
  let asked := s.power.counting.isSome
  let s := (s.setReg 0x2000 1 2).modPower fun w => { w with port := none, counting := none, tried := [], relock := s.clocked }
  if asked then { s with events := s.events ++ [.answer .reference .busy] } else s

/-- REF_LOSS. -/
def State.doRefLoss (s : State) : State := if s.reg 0x2000 1 = 1 then s.loseRef else s

/-- Relock every PLL to port p (R397 step 3). -/
def State.switchTo (s : State) (p : Nat) : State :=
  (s.setReg 0x2000 1 2).modPower fun w =>
    { w with port := some p, relock := s.clocked }

/-- The candidate of step 2 of R397: the next locked port in order, but for the lost one. -/
def State.candidate (s : State) : Option Nat :=
  s.lockedPorts.find? fun p => p != s.reg 0x2000 0 && !s.power.tried.contains p

/-- CANDIDATE_COUNT_DONE (R397, R398): accepted within 65,536 ± 10. -/
def State.doCandidate (s : State) (p count : Nat) : State :=
  let ok := decide (65526 ≤ count) && decide (count ≤ 65546) && s.lockedPorts.contains p
  if s.power.counting = some p then
    if ok then s.switchTo p
    else
      let s := s.modPower fun w => { w with counting := none }
      { s with events := s.events ++ [.answer .reference .accessDenied] }
  else if s.reg 0x2000 1 = 2 ∧ s.power.port = none ∧ s.candidate = some p then
    if ok then s.switchTo p else s.modPower fun w => { w with tried := w.tried ++ [p] }
  else s

/-- A PLL is stable (R394): in P1 those of the KD dies, in a relock all of them, otherwise the one of a transition. -/
def State.doPllStable (s : State) (u : Nat) : State :=
  if s.power.relock.contains u then
    let s := s.modPower fun w => { w with relock := w.relock.filter (· != u) }
    if s.inPhase 1 then (if s.power.relock.isEmpty && s.reg 0x2000 0 != 0xFF then s.refStable else s)
    else s.relocked
  else if u < 64 then s.moveLocked u
  else s

/-- PLL_LOCK_TIMEOUT (R394): a lock in progress has not ended within 10 ms. In holdover none is in progress until a port is
accepted, and a transition's waits for REF and for its grants (R397, R401, R403). -/
def State.doPllTimeout (s : State) (u : Nat) : State :=
  if s.inPhase 1 || (s.reg 0x2000 1 != 1 && s.power.port.isNone) then s
  else if s.power.relock.contains u then (s.fenceDie u).relocked
  else match SMap.find? u s.power.moves with
    | some m => if m.locked || m.owed != 0 || s.reg 0x2000 1 != 1 then s else s.fenceDie u
    | none => s

/-- HOLDOVER_EXPIRY (R397). -/
def State.doHoldover (s : State) : State := if s.reg 0x2000 1 = 2 then s.quiesce else s

/-- A write of `clk.ref_ctl` (R398). -/
def State.writeRefCtl (s : State) (n : Nat) : State × WriteResult :=
  match conds [(!s.lockedPorts.contains n, .accessDenied), (s.reg 0x2000 1 != 1 || s.power.counting.isSome, .busy)] with
  | st :: sts => (s, .done (lowest (st :: sts)))
  | [] => if s.reg 0x2000 0 = n then (s, .done .ok) else (s.modPower fun w => { w with counting := some n }, .later .reference [])

/-- The receivers of the host ports are terminated: the module is not in reset (R417). -/
def State.receiving (s : State) : Bool := s.power.standby && s.power.stbyEn && s.power.modResetN

/-- HOST_LINK_UP (R319, R393, R397): a receiver has locked. -/
def State.doLinkUp (s : State) (p : Nat) : State :=
  if !s.receiving || s.kiln.badLanes.contains p then s
  else
    let s := (s.setReg (0x5800 + p) 7 1).setReg 0x2000 3 (setFld (s.reg 0x2000 3) p p 1)
    if s.inPhase 1 && s.reg 0x2000 0 == 0xFF then s.clockPort else s.leaveP0

/-- HOST_LINK_DOWN (R319, R396): a receiver has lost lock; the reference may be lost with it. -/
def State.doLinkDown (s : State) (p : Nat) : State :=
  let s := (s.portLost p).setReg 0x2000 3 (setFld (s.reg 0x2000 3) p p 0)
  if s.inPhase 1 && s.reg 0x2000 0 == p then s.clockPort
  else if s.reg 0x2000 0 = p ∧ s.reg 0x2000 1 = 1 then s.loseRef
  else if s.power.counting = some p ∧ s.power.port = none then
    let s := s.modPower fun w => { w with counting := none }
    { s with events := s.events ++ [.answer .reference .accessDenied] }
  else if s.power.port = some p then
    s.modPower fun w => { w with port := none, tried := w.tried ++ [p], counting := none }
  else s

/-! ### Management dies (R409) -/

/-- HEARTBEAT: the standby die has received one. -/
def State.doHeartbeat (s : State) : State :=
  if s.reg 0x2040 1 = 1 then s.modPower fun p => { p with beatAt := s.localNs } else s

/-- KD_TAKEOVER: three heartbeats in a row are missing. Only a ready standby die can miss them. -/
def State.doTakeover (s : State) : State := if s.reg 0x2040 1 = 1 then s.takeover else s

/-! ### Reset, standby, shutdown (R414 to R416) -/

/-- The device quiesces into reset where it has started up, and drops what P0 holds otherwise. -/
def State.toReset (s : State) : State := if s.phase = 0 then s.moduleReset else s.quiesce

/-- The shutdown latch is cleared (R416). -/
def State.unlatch (s : State) : State := s.setReg 0x2030 0 (setFld (s.reg 0x2030 0) 6 6 0)

/-- MOD_RESET: MOD_RESET_N has been low for 10 µs. -/
def State.doModReset (s : State) : State :=
  if !s.power.standby then s.modPower fun p => { p with modResetN := false }
  else ((s.modPower fun p => { p with modResetN := false }).toReset).unlatch

/-- STBY_EN_LOW. -/
def State.doStbyLow (s : State) : State :=
  if !s.power.standby then s.modPower fun p => { p with stbyEn := false }
  else ((s.modPower fun p => { p with stbyEn := false }).toReset).unlatch

/-- MOD_RESET_RELEASE and STBY_EN_HIGH (R410). -/
def State.doRelease (s : State) : State := (s.modPower fun p => { p with modResetN := true }).leaveP0
def State.doStbyHigh (s : State) : State := (s.modPower fun p => { p with stbyEn := true }).leaveP0

/-- STANDBY_LOSS (R416): everything but persistent entries and the firmware store is lost. -/
def State.doStandbyLoss (s : State) : State :=
  let p := s.power
  { dict := List.filter (fun e : Nat × Nat => dictPers e.1 == .persistent) s.dict
    fw := { preferred := s.fw.preferred, trial := s.fw.trial, banks := s.fw.banks }
    power := { standby := false, stbyEn := p.stbyEn, modResetN := p.modResetN, inRange := p.inRange }
    out := s.out, free := s.free, pending := s.pending }

/-- STANDBY_APPLIED (R395, R410): the local time counter is cleared and P0 begins. -/
def State.doStandbyOn (s : State) : State :=
  if s.power.standby then s
  else (({ s with time := 0 } : State).modPower fun p => { p with standby := true, started := false }).leaveP0

/-- A write of `boot.ctl` (R414, R415). The write's record comes before the reset, and its writer gets no reply. -/
def State.writeBoot (s : State) (v : Nat) : State := s.quiesce (v == 2)

/-! ### Phases P3 to P7 (R389, R410 to R412) -/

/-- The ramp order of P3 (R411). -/
def State.rampOrder (s : State) : List Nat :=
  (List.range 32).map (64 + ·) ++ (List.range 64).filter fun d => !s.fused d

/-- The dies that have not finished their ramp, in order. -/
def State.ramping (s : State) : List Nat :=
  s.rampOrder.filter fun u => !s.power.ramped.contains u && !s.fencedDie u

/-- P3 ends when every die has ramped or is fenced. -/
def State.rampCheck (s : State) : State := if s.inPhase 3 && s.ramping.isEmpty then s.setPhase 4 else s

/-- DIE_RAMP_DONE: at most four dies ramp at once, in the order of R411. -/
def State.doRampDone (s : State) (u : Nat) : State :=
  if s.inPhase 3 && s.power.inRange && (s.ramping.take 4).contains u then
    (s.modPower fun p => { p with ramped := p.ramped ++ [u], relock := p.relock ++ [u] }).rampCheck
  else s

/-- DIE_RAMP_TIMEOUT: a die not in regulation after 50 ms is fenced. -/
def State.doRampTimeout (s : State) (u : Nat) : State :=
  if s.inPhase 3 && s.power.inRange && (s.ramping.take 4).contains u then (s.fenceDie u).rampCheck else s

/-- The number of results that power-on kiln waits for (R389). -/
def State.p5Wanted (s : State) : Nat :=
  let dies := (List.range 64).filter s.dieUp
  (dies.map fun d => 448 - popCount (s.reg (0x6020 + d) 0) 272).sum +
    (s.allUnits.filter fun u => !s.fencedDie u).length + 68 * ((List.range 16).filter fun x => !s.fencedDie (80 + x)).length

/-- The results in hand, but for those of fenced dies. -/
def State.p5Have (s : State) : Nat :=
  (s.power.tested.filter fun e =>
    let u := if e.1 < 0x200000 then e.1 % 0x100000 / 512 else if e.1 < 0x300000 then e.1 - 0x200000 else 80 + (e.1 - 0x300000) / 512
    !s.fencedDie u).length

/-- Whether an item of power-on kiln failed; one without a result has failed (R410). -/
def State.p5Bad (s : State) (item : Nat) : Nat := SMap.get 1 s.power.tested item

/-- The results of a die's positions and segments are recorded, and its core map is built (R389 step 4). -/
def State.p5Die (s : State) (d : Nat) : State :=
  let res (b : Nat) : Nat := s.kilnResult (if b = 0 then .ok else .unitRetired) b
  let s := (List.range 272).foldl (fun (s : State) x =>
    if s.posRetired d x then s
    else
      let b := s.p5Bad (p5Core d x)
      let s := s.noteCoreResult d x (res b)
      if b = 0 then s.watchClean 0 d x else (s.kilnFailure d 0xFFFF x).retirePos d x) s
  let s := (List.range 256).foldl (fun (s : State) c =>
    let x := 17 * (c / 16) + c % 16
    s.mapCore (256 * d + c) (if s.posRetired d x then s.chooseSpare d x else some x)) s
  let s := s.setReg (0x6020 + d) 1 (s.spares d).length
  (List.range 176).foldl (fun (s : State) g =>
    let b := s.p5Bad (p5Seg d g)
    let s := s.setReg (0x6890 + d) g (res b)
    if b = 0 then s.watchClean 1 d g else ((s.setReg (0x3180 + d) g 2).kilnFailure d 0xFFFF g).watchForget 1 d g) s

/-- A local address lies in tun or in a scratchpad. -/
def inSram (a : Nat) : Bool := decide (0x10000000000 ≤ a) && decide (a < 0x11200000000)

/-- P5 ends (R389): results, maps, zeroed tun, spare counts, and the signature set in use (R390). -/
def State.endP5 (s : State) (sigs : BitVec 24) : State :=
  let dies := (List.range 64).filter s.dieUp
  let s := dies.foldl State.p5Die s
  let s : State := { s with
    mem := s.mem.filter fun e => !inSram e.1, poison := s.poison.filter fun w => !inSram w,
    flaws := s.flaws.filter fun e => !inSram e.1, gens := s.gens.filter fun e => !inSram (e.1 * 65536) }
  let s := s.setReg 0x1014 0 ((List.range 16384).filter s.presented).length
  let s := s.setReg 0x6800 4 (s.reg 0x1000 5 <<< 24 + sigs.toNat)
  (s.modPower fun p => { p with tested := [] }).setPhase 6

/-- Entry into P7 (R412): the targets, and a trial boot that has come up with its bank (R426). -/
def State.enterP7 (s : State) : State :=
  let s := s.setPhase 7
  let s := if s.fw.onTrial && s.reg 0x7000 2 == s.fw.entry then s.setReg 0x7000 0 5 else s
  let dies := (List.range 64).filter fun d => !s.fused d
  let s := dies.foldl (fun (s : State) d => s.kdChange 0x2010 d (s.reg 0x2020 0)) s
  dies.foldl State.opUpdate s

/-- Every enabled port is ACTIVE: P6 ends (R306). -/
def State.p6Check (s : State) : State :=
  if s.inPhase 6 && (List.range 128).all (fun g => s.reg 0x5010 g == 0 || s.portState g == 5) then s.enterP7 else s

/-- P6 begins (R306). -/
def State.enterP6 (s : State) : State :=
  if s.reg 0x5000 0 = 0xFFFFFFFF then (s.condition .ok s.kdOrigin).enterP7
  else ((List.range 128).foldl State.portUp s).p6Check

/-- P5 ends: fabric training begins, or P6 ends at once when the device ID is unset (R306). Without a verified signature set
for the stepping, start-up stops in P5 (R382). -/
def State.leaveP5 (s : State) : State :=
  match Config.signatureSet s.fw.body with
  | some v => (s.endP5 v).enterP6
  | none => s.haltBoot .accessDenied

/-- Every result of power-on kiln is in: P5 ends. -/
def State.p5Check (s : State) : State :=
  if s.inPhase 5 && decide (s.p5Wanted ≤ s.p5Have) then s.leaveP5 else s

/-- PHASE_TIMEOUT (R410): the bound of the phase in progress has passed. -/
def State.doPhaseTimeout (s : State) : State :=
  if s.haltedBoot then s
  else match s.phase with
    | 1 => ((s.setPhase 0).setReg 0x2000 0 0xFF).leaveP0
    | 2 =>
      if (SMap.get {} s.fw.kds 1 : KdBoot).done then (s.setReg 0x2040 0 1).setPhase 3 else s.haltBoot .accessDenied
    | 3 => if s.power.inRange then (s.ramping.foldl State.fenceDie s).rampCheck else s
    | 4 =>
      let all := (List.range 128).map fun i => (i / 8, i % 8)
      (if s.power.trained then s else s.doTraining all []).doZeroFill
    | 5 => s.leaveP5
    | 6 => s.enterP7
    | _ => s

end Sys2Proof.Machine
end

