-- ==== Sys2Proof/Machine/Parts.lean ====
section
/-! DEFINITION. Building and dissolving partitions (R338, R339, R342), tun segments (R340), clients and their save
areas (R343). -/

namespace Sys2Proof.Machine

/-! ### Building (R338, R339) -/

/-- A key of an entry of partition p that returns to its default at build (R339, R444): every volatile entry of the
partition but for its state and its unit set. -/
def partKey (p key : Nat) : Bool :=
  let i := key / 256
  let k := key % 256
  (i == 0x4000 + p && decide (2 ≤ k)) ||
  [0x3800, 0x4100, 0x4200, 0x5900, 0x6100, 0x6200, 0x8500, 0x8600, 0x8C00, 0x9100, 0x9400, 0x9500, 0x9600].any
    (fun b => i == b + p) ||
  (k == p && ((decide (0x8D00 ≤ i) && decide (i < 0x8D30)) || (decide (0x8B90 ≤ i) && decide (i < 0x8B98))))

/-- The effects of a successful build (R339). -/
def State.buildEffects (s : State) (p : Nat) : State :=
  let s : State := { s with
    dict := SMap.delIf (partKey p) s.dict
    gates := SMap.del p s.gates, pours := SMap.del p s.pours, parts := SMap.del p s.parts
    shadows := SMap.del p s.shadows
    posts := SMap.delIf (fun k => k / 8 == p) s.posts
    saved := s.saved.filter fun v => v.part != p }
  let s := s.setReg (0x4000 + p) 0 1
  { s with cores := s.cores.map fun (e : Nat × Core) =>
      if s.coreIn p e.1 then (e.1, { e.2 with ctxs := [], streams := [], rings := [], tlb := [] }) else e }

/-- The die of a unit (R336). -/
def dieOfUnit (u : Nat) : Nat := u / 4

/-- The build of partition p (R338): the checks in order, and the effects. A fused-off die leaves the one record of the write
(R6). -/
def State.buildPart (s : State) (p : Nat) : State × Status :=
  let us := s.units p
  if s.built p then (s, .busy)
  else if us.isEmpty then (s, .accessDenied)
  else match us.find? fun u => s.fused (dieOfUnit u) with
    | some _ => (s, .engineAbsent)
    | none => if us.any fun u => (s.partOfUnit u).isSome then (s, .busy) else (s.buildEffects p, .ok)

/-- A write of `part.units` (R353). -/
def State.writeUnits (s : State) (p v : Nat) : State × Status :=
  if s.built p then (s, .busy) else (s.setReg (0x4000 + p) 1 v, .ok)

/-! ### Segments (R340) -/

/-- KIND of an owner word. -/
def ownKind (w : Nat) : Nat := fld w 15 14
/-- Owning partition. -/
def ownPart (w : Nat) : Nat := fld w 7 0
/-- Client whose save area holds the segment. -/
def ownClient (w : Nat) : Nat := fld w 13 11
/-- An owner word. -/
def ownWord (kind client p : Nat) : Nat := (kind % 4) <<< 14 + (client % 8) <<< 11 + p % 256

/-- The segments whose owner word satisfies a test, by die * 256 + segment. -/
def State.segsWhere (s : State) (f : Nat → Bool) : List Nat :=
  (s.dict.filter fun e => decide (0x4300 ≤ e.1 / 256) && decide (e.1 / 256 < 0x4340) && f e.2).map fun e => e.1 - 0x430000

/-- Free a segment: its owner is cleared and its zero-fill begins; a retired one has no contents to fill. -/
def State.freeSeg (s : State) (i : Nat) : State :=
  let s := s.setReg (0x4300 + i / 256) (i % 256) 0
  if s.reg (0x3180 + i / 256) (i % 256) = 2 then s else { s with filling := insertAsc i s.filling }

/-- Free segments on the device's own account, each with the record of its entry (R461). -/
def State.freeSegs (s : State) (l : List Nat) : State :=
  l.foldl (fun (s : State) i =>
    let old := s.reg (0x4300 + i / 256) (i % 256)
    (s.freeSeg i).record { kind := 0, origin := s.kdOrigin, index := 0x4300 + i / 256, sub := i % 256, old := old }) s

/-- Partition p holds a unit on die d. -/
def State.holdsDie (s : State) (p d : Nat) : Bool := (s.units p).any fun u => dieOfUnit u == d

/-- A write of `tun.seg_owner` (R340). The CLIENT field is read-only: what is written there is ignored. -/
def State.writeSegOwner (s : State) (d g v : Nat) : State × Status :=
  let old := s.segOwner d g
  let p := ownPart v
  let alloc := ownKind v == 1
  let other := ownKind old == 1 && ownPart old != p
  match conds [
    (s.reg (0x3180 + d) g == 2, .unitRetired),
    (decide (2 ≤ ownKind v) || ownKind old == 2, .accessDenied),
    (ownKind v == 0 && p != 0, .accessDenied),
    (alloc && !(s.built p && s.holdsDie p d), .accessDenied),
    (alloc && (other || s.filling.contains (d * 256 + g)), .busy),
    (ownKind v == 0 && ownKind old == 1 && !s.drained (ownPart old), .busy)] with
  | [] =>
    if alloc then (s.setReg (0x4300 + d) g (ownWord 1 0 p), .ok)
    else if ownKind old = 1 then (s.freeSeg (d * 256 + g), .ok) else (s, .ok)
  | sts => (s.beside sts s.kdOrigin (detail1 p 0xFF 0xFFFF g), lowest sts)

/-! ### Clients (R343) -/

/-- Segments that a unit's save area takes (R343). -/
def saveSegs (banks : Nat) : Nat := ceilDiv (64 * (192 + 12 * banks) * 1024) 0x400000

/-- The free segments of a die, the highest first. -/
def State.freeOn (s : State) (d : Nat) : List Nat :=
  ((List.range 176).filter fun g =>
    ownKind (s.segOwner d g) == 0 && s.reg (0x3180 + d) g != 2 && !s.filling.contains (d * 256 + g)).reverse

/-- The segments of a client's save area, unit by unit (R343): none when a die lacks free segments. `taken` holds the
segments that earlier units took. -/
def State.saveArea (s : State) (k : Nat) (taken : List Nat) : List Nat → Option (List Nat)
  | [] => some taken
  | u :: t =>
    let d := dieOfUnit u
    let l := ((s.freeOn d).map (d * 256 + ·)).filter fun i => !taken.contains i
    if l.length < k then none else s.saveArea k (taken ++ l.take k) t

/-- A write of `part.slice_ms` (R343). -/
def State.writeSliceMs (s : State) (p c v : Nat) : State × Status :=
  let old := s.reg (0x4100 + p) c
  if !s.built p then (if v = 0 then (s, .ok) else (s, .accessDenied))
  else if v = 0 then
    if s.clientLoaded p c then (s, .busy)
    else
      let s := s.freeSegs (s.segsWhere fun w => ownKind w == 2 && ownPart w == p && ownClient w == c)
      (s.setReg (0x4100 + p) c 0, .ok)
  else if old = 0 then
    match s.saveArea (saveSegs (s.reg (0x4200 + p) c)) [] (s.units p) with
    | none => (s, .accessDenied)
    | some l =>
      let s := l.foldl (fun (s : State) i => s.kdChange (0x4300 + i / 256) (i % 256) (ownWord 2 c p)) s
      let s := s.setReg (0x4100 + p) c v
      ({ s with events := s.events ++ [.sched p] }, .ok)
  else (s.setReg (0x4100 + p) c v, .ok)

/-- A write of `part.save_banks` (R353). -/
def State.writeSaveBanks (s : State) (p c v : Nat) : State × Status :=
  if s.reg (0x4100 + p) c ≠ 0 then (s, .busy) else (s.setReg (0x4200 + p) c v, .ok)

/-! ### Dissolving (R342) -/

/-- Step 1: every context is unloaded, the partition's intake rings are invalidated, and its host rings cleared. -/
def State.dissolveUnload (s : State) (p : Nat) : State :=
  let s : State := { s with
    saved := s.saved.filter fun v => v.part != p
    cores := s.cores.map fun (e : Nat × Core) =>
      if s.coreIn p e.1 then (e.1, { e.2 with ctxs := [], streams := [], rings := [], tlb := [] }) else e }
  let rings := (List.range 1024).filter fun i =>
    let w := s.reg (0x5830 + i / 16) (i % 16)
    bit w 63 && fld w 35 28 == p
  let s := rings.foldl (fun (s : State) i =>
    let s := s.kdChange (0x5830 + i / 16) (i % 16) (setFld (s.reg (0x5830 + i / 16) (i % 16)) 63 63 0)
    { s with intakes := SMap.del i s.intakes }) s
  (List.range 8).foldl (fun (s : State) c => (s.kdChange (0x5900 + p) c 0).setPost p c {}) s

/-- The windows of partition p that are not CLOSED. -/
def State.openWins (s : State) (p : Nat) : List Nat :=
  windows.filter fun w => let d := s.win w; winState d != 0 && winPart d == p

/-- A write of 2 to `part.ctl` (R342): step 1, and step 2 as far as it begins at once. A second one joins the first. -/
def State.dissolvePart (s : State) (p : Nat) : State × WriteResult :=
  if !s.built p then (s, .done .accessDenied)
  else if !s.drained p then (s, .done .busy)
  else if (s.part p).closing then (s, .later (.dissolve p) [])
  else
    let s := (s.dissolveUnload p).setPart p { closing := true }
    let s := (s.openWins p).foldl (fun (s : State) w => (s.closeWindow w).1) s
    ({ s with events := s.events ++ [.sched p] }, .later (.dissolve p) [])

/-- A dissolve goes on as far as it can (R342): with its windows closed, pour entries, barrier objects and segments are
released; with its segments zero-filled, the partition is FREE and none of its clients is enabled (R343). -/
def State.advanceDissolve (s : State) (p : Nat) : State :=
  if !(s.part p).closing || !(s.openWins p).isEmpty then s
  else
    let s := match (s.part p).freed with
      | some _ => s
      | none =>
        let s := s.dropPour p
        let s : State := { s with barriers := List.filter (fun e : Nat × Barrier => e.2.owner != some p) s.barriers }
        s.setPart p { s.part p with freed := some [] }
    let owned := s.segsWhere fun w => ownKind w != 0 && ownPart w == p
    let s := s.freeSegs owned
    let freed := ((s.part p).freed.getD []) ++ owned
    if freed.any s.filling.contains then s.setPart p { s.part p with freed := some freed }
    else
      let s := (List.range 8).foldl (fun (s : State) c => s.ownChange s.kdOrigin (0x4100 + p) c 0) s
      let s := ((s.setReg (0x4000 + p) 0 0).setReg (0x4000 + p) 3 0xFF).setPart p {}
      { s with events := s.events ++ [.answer (.dissolve p) .ok] }

/-- A write of `part.ctl`. -/
def State.writePartCtl (s : State) (p v : Nat) : State × WriteResult :=
  if v = 1 then match s.buildPart p with | (s, st) => (s, .done st)
  else s.dissolvePart p

/-- A local address lies in segment g of die d. -/
def inSeg (d g a : Nat) : Bool :=
  decide (tunBase d + g * 0x400000 ≤ a) && decide (a < tunBase d + (g + 1) * 0x400000)

/-- SEGMENT_ZERO_FILL_DONE (R340): the freed segment holds zero with fresh check bits, and may be allocated again. -/
def State.doSegmentFilled (s : State) (d g : Nat) : State :=
  if !s.filling.contains (d * 256 + g) then s
  else
    let s : State := { s with
      filling := s.filling.filter (· != d * 256 + g)
      mem := SMap.delIf (inSeg d g) s.mem
      poison := s.poison.filter fun w => !inSeg d g w
      flaws := SMap.delIf (inSeg d g) s.flaws }
    ((s.parts.filter fun e => e.2.closing).map (·.1)).foldl State.advanceDissolve s

/-- Every link die has fixed its close point of window w, and no request that it still admits waits (R287). -/
def State.closeDone (s : State) (w : Nat) : Bool :=
  (List.range 16).all fun x =>
    s.closeFixed w (some x) s.localNs &&
      (s.lx x).inq.all fun t =>
        !((t.op == 1 || t.op == 2 || t.op == 4) && s.winSelect (.device t.src) t.addr == some w && !s.closeFixed w (some x) t.since)

/-- WINDOW_CLOSE_COMPLETE (R287): once the close is complete its writers are answered, and a dissolve may go on. -/
def State.doWindowClosed (s : State) (w : Nat) : State :=
  if winState (s.win w) ≠ 2 || !s.closeDone w then s
  else
    let p := winPart (s.win w)
    let s := s.shutWindow w
    ({ s with events := s.events ++ [.answer (.window w) .ok] } : State).advanceDissolve p

end Sys2Proof.Machine
end

