-- ==== Sys2Proof/Machine/Dict.lean ====
section
/-! DEFINITION. What a read of a dictionary entry returns (R443, R445): the entries that the state computes, and those of
fused-off dies. -/

namespace Sys2Proof.Machine

/-- The state codes of a core's four contexts (R138, R149). -/
def State.ctxStateWord (s : State) (n : Nat) : Nat :=
  s.ctxCode n 0 + s.ctxCode n 1 <<< 4 + s.ctxCode n 2 <<< 8 + s.ctxCode n 3 <<< 12

/-- Context h of a core is halted, live or saved for the resident client (R437). -/
def State.ctxHalted (s : State) (n h : Nat) : Bool :=
  match s.saved.find? fun v => v.core == n && v.ctx == h && s.resident v.part == v.client with
  | some v => v.st.halted
  | none => (s.ctx n h).halted

/-- `dbg.halted` of a core (R440). -/
def State.haltedWord (s : State) (n : Nat) : Nat :=
  b2n (s.ctxHalted n 0) + 2 * b2n (s.ctxHalted n 1) + 4 * b2n (s.ctxHalted n 2) + 8 * b2n (s.ctxHalted n 3)

/-- What an entry of a fused-off die reads (R445). -/
def fusedValue (index : Nat) : Nat :=
  if index = 0x1010 then 1
  else if 0x9800 ≤ index ∧ index < 0x9840 then 0xFFFF
  else if 0x9880 ≤ index ∧ index < 0x98C0 then 1
  else 0

/-- The value of a defined entry as a read returns it, write-only entries apart. -/
def State.dictValue (s : State) (e : Entry) (index sub : Nat) : Nat :=
  match e.dieOf index sub with
  | some d =>
    let n := d * 256 + sub
    if s.fused d then fusedValue index
    else if e.base = 0x98C0 then s.ctxStateWord n
    else if e.base = 0x7040 then s.haltedWord n
    else if e.base = 0x9800 then s.physPos n
    else if e.base = 0x9840 then (if s.presented n then s.width n else 0)
    else if e.base = 0x9880 then (if s.presented n then s.reg index sub else setFld (s.reg index sub) 0 0 1)
    else s.reg index sub
  | none =>
    if index = 0x2000 ∧ sub = 4 then s.localNs
    else if e.base = 0x4000 ∧ sub = 4 then b2n (s.drained (index - 0x4000))
    else s.reg index sub

/-- A read by a principal with the given roles (R431, R443, R445): the status, and the value's bytes. -/
def State.dictRead (s : State) (roles index sub : Nat) : Status × Bytes :=
  match findEntry index sub with
  | none => (.accessDenied, [])
  | some e =>
    if !bit roles 0 then (.accessDenied, [])
    else if e.acc = .wo then (.ok, List.replicate e.ty.len 0#8)
    else if index = 0x7011 ∧ sub = 1 ∧ s.fw.forming.isSome then (.busy, [])
    else (.ok, natLe e.ty.len (s.dictValue e index sub))

/-- The pairs of index and sub-index that the configuration digest covers, ascending (R432). -/
def digestEntries : List (Nat × Nat × Entry) :=
  (List.range 65536).flatMap fun i => (List.range 256).filterMap fun k =>
    match findEntry i k with
    | some e => if e.acc == .rwl || e.pers == .persistent then some (i, k, e) else none
    | none => none

/-- The sequence that the configuration digest is taken over (R432). -/
def State.digestBytes (s : State) : Bytes :=
  digestEntries.flatMap fun e =>
    natLe 2 e.1 ++ natLe 1 e.2.1 ++ natLe 2 e.2.2.ty.len ++ natLe e.2.2.ty.len (s.dictValue e.2.2 e.1 e.2.1)

end Sys2Proof.Machine
end

