-- ==== Sys2Proof/Machine/Trust.lean ====
section
/-! DEFINITION. Firmware images and their verification (R421 to R423), the boot of the KD dies (R424), updates (R425 to
R427), principals (R430) and attestation (R431, R432). -/

namespace Sys2Proof.Machine

/-! ### The firmware store and its images (R422, R424) -/

/-- Bytes of a bank. -/
def bankLen : Nat := 48 * 2 ^ 20

/-- A byte of a bank; a byte that nothing has written holds its factory value. -/
def State.fwByte (s : State) (bank off : Nat) : BitVec 8 :=
  (SMap.find? (bank * 2 ^ 26 + off) s.fw.banks).getD (Config.factoryStore (bank * 2 ^ 26 + off))

/-- Bytes of a bank. -/
def State.fwBytes (s : State) (bank off len : Nat) : Bytes := (List.range len).map fun i => s.fwByte bank (off + i)

/-- An image as verification finds it: its place in the bank and its first 4 KiB. -/
structure Image where
  off  : Nat
  head : Bytes
  deriving DecidableEq, Repr

/-- The 1,024 header bits (R422). -/
def Image.hdr (i : Image) : Nat := leNat (slice i.head 0 128)
def Image.kind (i : Image) : Nat := fld i.hdr 103 96
def Image.bodyLen (i : Image) : Nat := fld i.hdr 255 224
def Image.version (i : Image) : Nat := fld i.hdr 191 160
def Image.svn (i : Image) : Nat := fld i.hdr 159 152
def Image.level (i : Image) : Nat := fld i.hdr 151 144
def Image.epoch (i : Image) : Nat := fld i.hdr 143 136
def Image.digest (i : Image) : Nat := fld i.hdr 511 256
/-- The signer's public key. -/
def Image.signer (i : Image) : Bytes := slice i.head 128 65

/-- The image at a place of a bank. -/
def State.imageAt (s : State) (bank off : Nat) : Image := ⟨off, s.fwBytes bank off 4096⟩

/-- Check 1 fails: magic, format, kind, reserved fields and zero bytes, or the length of the body (R423). -/
def Image.malformed (i : Image) (kind : Nat) : Bool :=
  let h := i.hdr
  fld h 31 0 != 0x31445954 || fld h 111 104 != 1 || i.kind != kind ||
  fld h 1023 512 != 0 || fld h 131 128 != 0 || fld h 95 32 != 0 ||
  (slice i.head 193 63).any (· != 0#8) || (slice i.head 320 3776).any (· != 0#8) ||
  i.bodyLen % 4096 != 0 || decide (i.bodyLen < 4096) || decide (33554432 < i.bodyLen) ||
  decide (bankLen < i.off + 4096 + i.bodyLen)

/-- The reason of the first check of R423 that an image fails, 0 when it verifies; `pair` is the version of the bundle's KD
image. -/
def State.imageReason (s : State) (bank kind pair : Nat) (i : Image) : Nat :=
  let h := i.hdr
  let slot := fld h 135 132
  if decide (bankLen < i.off + 4096) || i.head.all (· == 0#8) then 8
  else if i.malformed kind then 1
  else if !bit (fld h 127 112) (s.reg 0x1000 5 - 0x41) then 2
  else if decide (3 < slot) || bit (s.reg 0x7003 0) slot || beNat (sm3 i.signer) != (Config.rootDigest slot).toNat then 3
  else if !sm2Verify i.signer (slice i.head 0 256) (slice i.head 256 64) then 4
  else if leNat (sm3 (s.fwBytes bank (i.off + 4096) i.bodyLen)) != i.digest then 5
  else if i.svn < s.reg 0x7002 kind then 6
  else if kind ≠ 1 ∧ fld h 223 192 ≠ pair then 7
  else 0

/-- The place after an image. -/
def Image.next (i : Image) : Nat := i.off + 4096 + i.bodyLen

/-- The verification of a bundle (R423): its reason, and its images as far as they verified. -/
def State.bundle (s : State) (bank : Nat) : Nat × List Image :=
  let k := s.imageAt bank 0
  match s.imageReason bank 1 0 k with
  | 0 =>
    let d := s.imageAt bank k.next
    match s.imageReason bank 2 k.version d with
    | 0 =>
      let l := s.imageAt bank d.next
      match s.imageReason bank 3 k.version l with
      | 0 => (0, [k, d, l])
      | r => (r, [k, d])
    | r => (r, [k])
  | r => (r, [])

/-! ### Boot (R424) -/

/-- The boot of KD die k. -/
def State.kdBoot (s : State) (k : Nat) : KdBoot := SMap.get {} s.fw.kds k

/-- The bank that KD die k tries next. -/
def State.nextBank (s : State) (k : Nat) : Option Nat :=
  match (s.kdBoot k).tried with
  | [] => some s.fw.entry
  | [b] => some (1 - b)
  | _ => none

/-- A bank's images run (R424, R428): what the entries report of them, and their measurements. -/
def State.runBank (s : State) (bank : Nat) (imgs : List Image) : State :=
  let kd := imgs.headD ⟨0, []⟩
  let s : State := { s with fw := { s.fw with
    measures := imgs.map fun i => BitVec.ofNat 256 (leNat (sm3 (slice i.head 0 256)))
    svns := imgs.map Image.svn
    body := BitVec.ofNat 256 kd.digest } }
  let s := s.setReg 0x7000 2 bank
  let s := imgs.foldl (fun (s : State) i => s.setReg 0x7001 i.kind i.version) s
  (s.setReg 0x5000 1 kd.level).setReg 0x5000 2 kd.epoch

/-- Set what is known of the boot of a KD die. -/
def State.setKdBoot (s : State) (k : Nat) (b : KdBoot) : State := { s with fw := { s.fw with kds := SMap.put k b s.fw.kds } }

/-- An attempt of KD die k to boot from its next bank has ended (R424). -/
def State.bootAttempt (s : State) (k : Nat) : State :=
  match s.nextBank k with
  | none => s
  | some bank =>
    let r := s.bundle bank
    let b := s.kdBoot k
    if r.1 = 0 then
      let first := !(s.kdBoot 0).done && !(s.kdBoot 1).done
      let s := s.setKdBoot k { b with done := true }
      if s.inPhase 2 then
        let s := if k = 0 || first then s.runBank bank r.2 else s
        if k = 0 then
          let s := (s.setReg 0x2040 0 0).setPhase 3
          if (s.kdBoot 1).done then s.setReg 0x2040 1 1 else s
        else s
      else if s.reg 0x2040 0 ≠ k ∧ s.reg 0x2040 1 = 0 then s.setReg 0x2040 1 1 else s
    else
      let s := s.setKdBoot k { b with tried := b.tried ++ [bank] }
      let s := s.condition .accessDenied (unitOrigin (96 + k)) (detail1 0xFF 0xFF 0xFFFF r.1)
      if s.inPhase 2 && decide ((s.kdBoot 0).tried.length = 2) && decide ((s.kdBoot 1).tried.length = 2) then
        s.haltBoot .accessDenied r.1
      else s

/-- FIRMWARE_VERIFY_DONE: the verification of a staged bundle (R426 step 2), or an attempt of KD die k to boot. -/
def State.doVerifyDone (s : State) (k : Nat) : State :=
  if s.reg 0x7000 0 = 2 then
    let r := (s.bundle (1 - s.reg 0x7000 2)).1
    (s.setReg 0x7000 3 r).setReg 0x7000 0 (if r = 0 then 3 else 6)
  else if s.haltedBoot || decide (s.phase < 2) || (s.kdBoot k).done then s
  else s.bootAttempt k

/-! ### Updates (R425 to R427) -/

/-- Store bytes in a bank. -/
def putBank : Nat → Bytes → SMap (BitVec 8) → SMap (BitVec 8)
  | _, [], m => m
  | a, b :: t, m => putBank (a + 1) t (SMap.put a b m)

/-- The running bank is preferred again. -/
def State.prefer (s : State) (bank : Nat) (trial : Bool) : State :=
  { s with fw := { s.fw with preferred := bank, trial := trial } }

/-- A write of chunk c of `fw.stage` (R426 step 1, R427). -/
def State.writeStage (s : State) (c : Nat) (data : Bytes) : State × Status :=
  if s.reg 0x7000 0 = 2 then (s, .busy)
  else
    let bank := s.reg 0x7000 2
    let s := if s.reg 0x7000 0 = 4 then s.prefer bank false else s
    let s := s.setReg 0x7000 0 1
    ({ s with fw := { s.fw with banks := putBank ((1 - bank) * 2 ^ 26 + c * 4096) data s.fw.banks } }, .ok)

/-- The anti-rollback counters rise to the running images' versions (R426). -/
def State.raiseSvns (s : State) : State :=
  (s.fw.svns.zip [1, 2, 3]).foldl (fun (s : State) e => s.kdChange 0x7002 e.2 (max (s.reg 0x7002 e.2) (min 64 e.1))) s

/-- A commit (R426): fuses in order, then the boot record. -/
def State.commitFw (s : State) : State :=
  let s := s.raiseSvns
  let s := s.kdChange 0x7003 0 (s.reg 0x7003 0 ||| (Config.revocations s.fw.body).toNat)
  ((s.prefer (s.reg 0x7000 2) false).bump 32 0x8F10 2 1).setReg 0x7000 0 0

/-- A write of `fw.ctl` (R426, R427): 1 verify, 2 arm, 3 commit, 4 revert. -/
def State.writeFwCtl (s : State) (v : Nat) : State × Status :=
  let st := s.reg 0x7000 0
  if st = 2 then (s, .busy)
  else match v with
    | 1 => (s.setReg 0x7000 0 2, .ok)
    | 2 => if st = 3 then ((s.prefer (1 - s.reg 0x7000 2) true).setReg 0x7000 0 4, .ok) else (s, .accessDenied)
    | 3 => if st = 5 then (s.commitFw, .ok) else (s, .accessDenied)
    | _ => if st = 5 then ((s.prefer (1 - s.reg 0x7000 2) false).setReg 0x7000 0 0, .ok) else (s, .accessDenied)

/-! ### Principals and attestation (R430, R431) -/

/-- Public key of a principal slot. -/
def State.slotKey (s : State) (slot : Nat) : Bytes := natLe 65 (s.reg 0x7020 slot)
/-- Roles of a principal slot. -/
def State.slotRoles (s : State) (slot : Nat) : Nat := fld (s.reg 0x7020 slot) 527 520
/-- A slot is empty when its first byte is zero. -/
def State.slotEmpty (s : State) (slot : Nat) : Bool := s.reg 0x7020 slot % 256 == 0

/-- A write of `trust.principal`: an empty slot, or a valid key with assigned role bits. -/
def State.writePrincipal (s : State) (slot v : Nat) : State × Status :=
  let key := natLe 65 v
  let bad := decide (fld v 639 528 ≠ 0) || decide (fld v 527 525 ≠ 0) || (decide (v % 256 ≠ 0) && (sm2Key key).isNone)
  if bad then (s, .accessDenied) else (s.setReg 0x7020 slot v, .ok)

/-- A write of `trust.attest_nonce`. -/
def State.writeNonce (s : State) (v : Nat) : State × Status :=
  if s.fw.forming.isSome then (s, .busy)
  else ({ s with fw := { s.fw with forming := some (BitVec.ofNat 256 v) } }, .ok)

/-- The device's public key (R429). -/
def State.devicePub (s : State) : Bytes := natLe 65 (s.reg 0x7010 2)

/-- Bytes 0 to 447 of an attestation report (R431). -/
def State.reportBody (s : State) (nonce : BitVec 256) : Bytes :=
  let measures := (List.range 3).flatMap fun i => natLe 32 ((s.fw.measures[i]?).getD 0).toNat
  let dbg := s.reg 0x7030 2
  [0x54#8, 0x59#8, 0x41#8, 0x31#8, 1#8] ++ natLe 1 (s.reg 0x7000 2) ++ natLe 1 (s.reg 0x7000 0)
    ++ natLe 1 (b2n (bit dbg 15) + 2 * b2n (bit dbg 14) + 4 * s.reg 0x7030 0)
    ++ natLe 8 (s.reg 0x1000 3) ++ natLe 8 s.localNs ++ natLe 32 nonce.toNat
    ++ natLe 4 (s.reg 0x7001 1) ++ natLe 4 (s.reg 0x7001 2) ++ natLe 4 (s.reg 0x7001 3)
    ++ natLe 1 (s.reg 0x7002 1) ++ natLe 1 (s.reg 0x7002 2) ++ natLe 1 (s.reg 0x7002 3)
    ++ natLe 1 (s.reg 0x1000 5) ++ natLe 1 (s.reg 0x5000 1) ++ natLe 1 (s.reg 0x5000 2)
    ++ natLe 1 (s.reg 0x2030 0) ++ natLe 1 (s.reg 0x1000 4) ++ natLe 8 (s.reg 0x1000 6)
    ++ List.replicate 12 0#8 ++ measures ++ sm3 s.digestBytes
    ++ sm3 ((List.range 16).flatMap fun k => natLe 80 (s.reg 0x7020 k)) ++ List.replicate 192 0#8

/-- ATTEST_REPORT_READY: the report takes the place of the previous one. -/
def State.doReportReady (s : State) : State :=
  match s.fw.forming with
  | none => s
  | some nonce =>
    let body := s.reportBody nonce
    let (r, s) := s.draw
    let sig := sm2Sign Config.deviceKey s.devicePub body (r.toNat % sm2n)
    let s : State := { s with fw := { s.fw with forming := none } }
    s.setReg 0x7011 1 (leNat (body ++ sig))

end Sys2Proof.Machine
end

