-- ==== Sys2Proof/Machine/DictWrite.lean ====
section
/-! DEFINITION. Writes of dictionary entries (R443 to R445, R455, R457, R459): the checks every write passes, the entry's
own rules, and the audit record. -/

namespace Sys2Proof.Machine

/-! ### Roles and rights (R425, R430, R443) -/

/-- The role bit that a write of an entry needs. -/
def roleBit (index : Nat) : Nat :=
  if (0x7100 ≤ index ∧ index < 0x7130) ∨ index = 0x7000 then 2
  else if index = 0x7020 ∨ index = 0x7030 ∨ index = 0x7080 then 4
  else if index = 0x7011 then 0
  else 1

/-- The writer may write the entry: the device itself always; a session or the TAP by its roles, firmware entries from a
session alone. -/
def mayWrite (o : Origin) (index : Nat) : Bool :=
  o.kind.val == 0 || (bit o.roles.toNat (roleBit index) && (roleBit index != 2 || o.kind.val == 1))

/-- The writes that R412 refuses before P7. -/
def State.early (s : State) (index sub v : Nat) : Bool :=
  (decide (0x4000 ≤ index) && decide (index < 0x4100) && sub == 2 && v == 1) ||
  (decide (0x5830 ≤ index) && decide (index < 0x5870) && bit v 63) ||
  (decide (0x5810 ≤ index) && decide (index < 0x5820) && bit v 225 &&
    s.qpState ((index - 0x5810) / 4) ((index - 0x5810) % 4 * 256 + sub) == 0)

/-- The check that every write passes (R443 to R445, R457, R412): the conditions with which it refuses one. -/
def State.writeRefusals (s : State) (o : Origin) (index sub : Nat) (value : Bytes) : List Status :=
  match findEntry index sub with
  | none => [.accessDenied]
  | some e =>
    let gone := match e.dieOf index sub with | some d => s.fused d | none => false
    let locked := match e.acc with | .ro => true | .rwl => s.inP7 | _ => false
    conds [
      (gone, .engineAbsent),
      (locked || !mayWrite o index || !e.fits value, .accessDenied),
      (s.quiescing || (!s.inP7 && s.early index sub (leNat value)), .busy)]

/-- The status of that check (R16). -/
def State.writeCheck (s : State) (o : Origin) (index sub : Nat) (value : Bytes) : Status :=
  lowest (s.writeRefusals o index sub value)

/-! ### The rules of the entries -/

/-- A result that is known now. -/
def doneNow (r : State × Status) : State × WriteResult := (r.1, .done r.2)

/-- Set an entry, unless a condition refuses it. -/
def State.setUnless (s : State) (refused : List (Bool × Status)) (index sub v : Nat) : State × Status :=
  match firstFail refused with
  | some st => (s, st)
  | none => (s.setReg index sub v, .ok)

/-- P4 has built the memory map: what it checked is checked again when it is rewritten. -/
def State.mapped (s : State) : Bool := s.power.trained && decide (4 ≤ s.phase)

/-- Some context of partition p is loaded (R206). -/
def State.partLoaded (s : State) (p : Nat) : Bool := (List.range 8).any (s.clientLoaded p)

/-- A pour entry of partition p that satisfies a test is ACTIVE or PAUSED (R231). -/
def State.pourBusy (s : State) (p : Nat) (f : Nat → Bool) : Bool :=
  s.pourOn && (s.pourEntries p).any fun i => dState (s.devHalf i) != 0 && f (s.govHalf i)

/-- A write of a clear mask (R464). -/
def State.clearSticky (s : State) (o : Origin) (mask : Nat) : State :=
  let old := s.reg 0x1100 0x10
  let new := (List.range 256).foldl (fun v c => if bit mask c then setFld v c c 0 else v) old
  let s := s.setReg 0x1100 0x10 new
  let s := (List.range 256).foldl (fun (s : State) c => if bit mask c then s.setReg 0x1110 c 0xFFFFFFFF else s) s
  s.record { kind := 5, origin := o, index := 0x1100, sub := 0x11, old := old, new := new }

/-- Audit and session entries (R463 to R465). -/
def State.writeAudit (s : State) (o : Origin) (index sub v : Nat) : State × Status :=
  match index, sub with
  | 0x1100, 1 => (s.record { kind := 4, origin := o, index := index, sub := sub, new := v }, .ok)
  | 0x1100, 2 =>
    match s.setUnless [(v % 2 ^ 21 != 0, .accessDenied)] index sub v with
    | (s, .ok) => (if s.mapped then s.checkMirror else s, .ok)
    | r => r
  | 0x1100, _ => (s.clearSticky o v, .ok)
  | _, _ => (s.setReg index sub v, .ok)

/-- Memory entries (R269): the cask. -/
def State.writeMemEntry (s : State) (index sub v : Nat) : State × Status :=
  if index = 0x3040 then
    match s.setUnless [(v % 2 ^ 21 != 0, .accessDenied)] index sub v with
    | (s, .ok) => (if s.mapped then s.checkCask else s, .ok)
    | r => r
  else (s.setReg index sub v, .ok)

/-- Translation and window entries (R293). -/
def State.writeXlate (s : State) (index sub v : Nat) : State × WriteResult :=
  if index < 0x3900 then doneNow (s.writeRoot (index - 0x3800) sub v)
  else if index < 0x3A00 then s.writeInvalidate (index - 0x3900) sub v
  else if index < 0x3B00 then doneNow (s.writeResume (index - 0x3A00) sub v)
  else if index < 0x3C00 then doneNow (s.writeWin (256 * (index - 0x3B00) + sub) v)
  else if sub = 0 then s.writeWinCtl v
  else (s.setReg index sub v, .done .ok)

/-- Partition entries (R353). -/
def State.writePart (s : State) (index sub v : Nat) : State × WriteResult :=
  if index < 0x4100 then
    (if sub = 1 then doneNow (s.writeUnits (index - 0x4000) v) else s.writePartCtl (index - 0x4000) v)
  else if index < 0x4200 then doneNow (s.writeSliceMs (index - 0x4100) sub v)
  else if index < 0x4300 then doneNow (s.writeSaveBanks (index - 0x4200) sub v)
  else doneNow (s.writeSegOwner (index - 0x4300) sub v)

/-- Fabric entries (R315). -/
def State.writeFab (s : State) (index sub v : Nat) : State × Status :=
  if index = 0x5010 then let r := s.writePortEnable sub v; (r.1.p6Check, r.2)
  else if 0x5100 ≤ index then s.writeRoute (256 * (index - 0x5100) + sub) v
  else if index = 0x5000 ∧ sub = 0 then
    s.setUnless [(decide (131071 < v) && v != 0xFFFFFFFF, .accessDenied)] index sub v
  else (s.setReg index sub v, .ok)

/-- Host-port entries (R335). -/
def State.writeHost (s : State) (index sub v : Nat) : State × Status :=
  if index < 0x5810 then (s.setReg index sub v, .ok)
  else if index < 0x5820 then s.writeQp ((index - 0x5810) / 4) ((index - 0x5810) % 4 * 256 + sub) v
  else if index < 0x5830 then s.writeAperture (index - 0x5820) sub v
  else if index < 0x5900 then s.writeIntake (index - 0x5830) sub v
  else s.writeRings (index - 0x5900) sub v

/-- Resilience entries (R378). -/
def State.writeWatch (s : State) (index sub v : Nat) : State × Status :=
  if 0x6100 ≤ index ∧ index < 0x6200 then s.writeRegion (index - 0x6100) (sub / 32) (sub % 32) v
  else (s.setReg index sub v, .ok)

/-- Gate and mash entries (R206). -/
def State.writeGate (s : State) (index sub v : Nat) : State × Status :=
  let p := index - 0x9400
  if sub = 1 then s.writeGateStep p v
  else if sub = 0 then s.setUnless [(s.gState p == 1 || s.gState p == 2, .busy)] index sub v
  else if sub = 4 then (s.writeGateParent p v, .ok)
  else if sub = 5 then (s.writeGateChildren p v, .ok)
  else if 8 ≤ sub then s.setUnless [(s.partLoaded p, .busy)] index sub v
  else (s.setReg index sub v, .ok)

/-- The barrier object of a release may not be another partition's, nor on a fused-off die (R231). -/
def State.pourBarBad (s : State) (p v : Nat) : Bool :=
  bit v 31 && (s.fused (fld v 29 24) ||
    match (s.barrier (fld v 29 24) (fld v 23 16)).owner with
    | some q => q != p
    | none => false)

/-- A work list's place is not one it may take (R231). -/
def State.workBad (s : State) (v : Nat) : Bool :=
  v % 4096 != 0 || (v != 0 && (decide (s.reg 0x3000 0 < v + 65552) || s.inCask v 65552 ||
    (s.reg 0x9000 0 != 0 && overlap v 65552 (s.reg 0x9000 0) 262144)))

/-- Spills run whenever their condition holds between a release and the next construction (R228). -/
def State.spillsNow (s : State) (p : Nat) : State := if s.reg (0x9500 + p) 1 = 2 then s.spills p else s

/-- Pour and page entries (R231). -/
def State.writePour (s : State) (index sub v : Nat) : State × Status :=
  if index = 0x9000 then
    match s.setUnless [(v % 65536 != 0, .accessDenied)] index sub v with
    | (s, .ok) =>
      let s := if v + 262144 ≤ 0x10000000000 then s.zeroTable v else s
      (if s.mapped then s.checkPour else s, .ok)
    | r => r
  else if 0x9600 ≤ index then
    let p := index - 0x9600
    s.setUnless [(sub % 2 == 0 && v % 4096 != 0, .accessDenied), (s.pourBusy p fun g => hClient g == sub / 16, .busy)] index sub v
  else
    let p := index - 0x9500
    match sub with
    | 0 => s.writePourStep p v
    | 4 => s.setUnless [(s.pourBarBad p v, .accessDenied)] index sub v
    | 5 => s.setUnless [(s.workBad v, .accessDenied)] index sub v
    | 6 => s.setUnless [(v % 16384 != 0, .accessDenied), (s.pourBusy p fun _ => true, .busy)] index sub v
    | 7 => ((s.setReg index sub v).spillsNow p, .ok)
    | 8 =>
      let r := s.setUnless [(decide (v ≤ s.reg index 7), .accessDenied)] index sub v
      (if r.2 = .ok then r.1.spillsNow p else r.1, r.2)
    | _ => (s.setReg index sub v, .ok)

/-- Lauter entries (R254). -/
def State.writeLauter (s : State) (index sub v : Nat) : State × Status :=
  if index = 0x9210 ∧ sub = 0 then s.writePlanCommit v
  else if index = 0x9210 ∧ sub = 2 then s.writeGeneration v
  else (s.setReg index sub v, .ok)

/-- Trust, firmware and debug entries (R440). -/
def State.writeTrust (s : State) (index sub : Nat) (value : Bytes) : State × Status :=
  let v := leNat value
  if index = 0x7000 then s.writeFwCtl v
  else if 0x7100 ≤ index then s.writeStage (256 * (index - 0x7100) + sub) value
  else if index = 0x7011 then s.writeNonce v
  else if index = 0x7020 then s.writePrincipal sub v
  else (s.setReg index sub v, .ok)

/-- The effect of a write that the common check lets through, by the chapter of its entry (R446). -/
def State.applyWrite (s : State) (o : Origin) (index sub : Nat) (value : Bytes) : State × WriteResult :=
  let v := leNat value
  if index < 0x2000 then doneNow (s.writeAudit o index sub v)
  else if index < 0x3000 then
    (if index = 0x2000 then s.writeRefCtl v
     else if index = 0x2010 then doneNow (s.writeOpTarget sub v)
     else (s.setReg index sub v, .done .ok))
  else if index < 0x3800 then doneNow (s.writeMemEntry index sub v)
  else if index < 0x4000 then s.writeXlate index sub v
  else if index < 0x5000 then s.writePart index sub v
  else if index < 0x5800 then doneNow (s.writeFab index sub v)
  else if index < 0x6000 then doneNow (s.writeHost index sub v)
  else if index < 0x6800 then doneNow (s.writeWatch index sub v)
  else if index < 0x7000 then
    (if sub = 3 then doneNow (s.writeKilnRequest v) else (s.setReg index sub v, .done .ok))
  else if index < 0x7080 then doneNow (s.writeTrust index sub value)
  else if index < 0x7100 then doneNow (s.writeAudit o index sub v)
  else if index < 0x8000 then doneNow (s.writeTrust index sub value)
  else if index < 0x9100 then doneNow (s.writePour index sub v)
  else if index < 0x9200 then
    doneNow (s.setUnless [(s.clientLoaded (index - 0x9100) sub, .busy)] index sub v)
  else if index = 0x9200 ∨ index = 0x9300 then (s.setReg index sub v, .done .ok)
  else if index < 0x9300 then doneNow (s.writeLauter index sub v)
  else if index < 0x9500 then doneNow (s.writeGate index sub v)
  else if index < 0x9700 then doneNow (s.writePour index sub v)
  else doneNow (s.writeLauter index sub v)

/-! ### One write -/

/-- The KIND 0 record of a write by a session, the TAP, or the device (R460, R461). -/
def State.writeNote (s : State) (o : Origin) (index sub old new : Nat) (st : Status) : State :=
  s.record { kind := 0, origin := o, status := st, index := index, sub := sub, trunc := longEntry index sub,
             detail := o.session.toNat, old := old, new := new }

/-- A write that the common check refuses: its record, and the sticky bits of what else the check found (R16). A write to a
fused-off die leaves that one record, which stands for all of them (R6). -/
def State.refuseWrite (s : State) (o : Origin) (index sub old new : Nat) (sts : List Status) : State :=
  let seq := s.reg 0x1100 0
  let s := s.writeNote o index sub old new (lowest sts)
  if lowest sts = .engineAbsent then sts.foldl (fun (s : State) st => s.setSticky st seq) s else s.beside sts o

/-- The value that an entry holds after an accepted write; of a write-only entry, what was written. -/
def State.valueAfter (s : State) (index sub v : Nat) : Nat :=
  match findEntry index sub with
  | some e => if e.acc = .wo then v else s.reg index sub
  | none => v

/-- A write of an entry (R455, R459): the status, none when the reply follows later or never. A write that resets the
device is recorded first (R414, R415). -/
def State.writeEntry (s : State) (o : Origin) (index sub : Nat) (value : Bytes) (who : Replier) : State × Option Status :=
  let v := leNat value
  let old := s.reg index sub
  match s.writeRefusals o index sub value with
  | [] =>
    if index = 0x2030 then ((s.writeNote o index sub old v .ok).writeBoot v, none)
    else match s.applyWrite o index sub value with
      | (s, .done st) => (s.writeNote o index sub old (if st = .ok then s.valueAfter index sub v else v) st, some st)
      | (s, .later what left) => ({ s with waits := s.waits ++ [⟨what, o, index, sub, old, value, who, left⟩] }, none)
  | sts => (s.refuseWrite o index sub old v sts, some (lowest sts))

/-- What follows the reply to a write: sessions of a principal slot that was written close (R452). -/
def State.afterWrite (s : State) (index sub : Nat) (st : Option Status) : State :=
  if index = 0x7020 ∧ st = some .ok then s.closeSessions (fun x => x.slot == sub) 2 else s

/-- A dictionary write as a command of its own: served once the management dies have booted (R412). -/
def State.dictWrite (s : State) (o : Origin) (index sub : Nat) (value : Bytes) : State :=
  if s.phase < 3 then s
  else match s.writeEntry o index sub value .nobody with
    | (s, st) => s.afterWrite index sub st

end Sys2Proof.Machine
end

