-- ==== Sys2Proof/Machine/Debug.lean ====
section
/-! DEFINITION. The TAP (R433) and the debug port: requests and responses (R434, R435), unlocking (R436), halts, steps and
breakpoints (R437), memory operations (R438) and their records (R439). -/

namespace Sys2Proof.Machine

/-! ### The TAP (R433) -/

/-- The TAP accepts inputs (R417): from the end of P2, and not in reset. -/
def State.tapOn (s : State) : Bool := s.receiving && decide (3 ≤ s.phase)

/-- Change the debug port. -/
def State.modDbg (s : State) (f : Debug → Debug) : State := { s with dbg := f s.dbg }

/-- The low n bits of a value, least significant first. -/
def bitsOf (n v : Nat) : List Bool := (List.range n).map (bit v)

/-- A TAP instruction selects a data register, which a scan shifts out. -/
def State.tapSelect (s : State) (code : Nat) (out : List Bool) : State :=
  if s.tapOn then (s.modDbg fun d => { d with ir := code }).emit (.tap out) else s

def State.doIdcode (s : State) : State := s.tapSelect 0x01 (bitsOf 32 (s.reg 0x1000 8))
/-- The one boundary cell captures STBY_EN and drives no pin. -/
def State.doBoundary (s : State) (code : Nat) : State := s.tapSelect code [s.power.stbyEn]
def State.doBypass (s : State) : State := s.tapSelect 0xFF [false]
/-- DBG_XFER selects the debug frame register. -/
def State.doDbgXfer (s : State) : State := if s.tapOn then s.modDbg fun d => { d with ir := 0x20 } else s

/-- TAP_RESET: TRST_N low or Test-Logic-Reset (R433, R436). -/
def State.doTapReset (s : State) : State :=
  if s.tapOn then (s.endUnlock).modDbg fun d => { d with ir := 0x01, busy := none } else s

/-- DEBUG_IDLE_EXPIRY (R436). -/
def State.doDebugIdle (s : State) : State := s.endUnlock

/-! ### Requests (R434, R435) -/

/-- The scopes of R435. -/
def scopeRun : Nat := 1
def scopeRead : Nat := 2
def scopeWrite : Nat := 4

/-- A scope is unlocked; scope 0 needs no unlock. -/
def State.scopeOpen (s : State) (scope : Nat) : Bool :=
  scope == 0 || (s.unlocked && (fld (s.reg 0x7030 2) 13 11 &&& scope) == scope)

/-- Capture-DR loads the response to the last request, and the scan shifts it out. -/
def State.dbgScan (s : State) : State := s.emit (.tap (bitsOf 128 s.dbg.resp.toNat))

/-- Submit a debug request: a second one while one is outstanding is dropped; a scope that is not unlocked and non-zero
unused fields are refused. -/
def State.dbgRequest (s : State) (op seq arg scope : Nat) (bad : Bool) (body : State → State) : State :=
  if !s.tapOn || s.dbg.ir != 0x20 then s
  else
    let s := s.dbgScan
    if s.dbg.busy.isSome then
      (s.modDbg fun d => { d with resp := dbgWord Status.busy.code seq true 0 }).dbgNote op arg .busy 0 0
    else
      match conds [(!s.scopeOpen scope, .accessDenied), (bad, .recipeInvalid)] with
      | [] => body s
      | sts => ((s.dbgReply seq (lowest sts) 0).dbgNote op arg (lowest sts) 0 0).beside sts s.tapOrigin

/-- A request ends at once with a status and data, and its record. -/
def State.dbgDone (s : State) (op seq arg : Nat) (st : Status) (data : Nat) (tag : Nat := 0) : State :=
  (s.dbgReply seq st (if st = .ok then data else 0)).dbgNote op arg st 0 0 tag

/-- A request is outstanding: its response is not yet formed. -/
def State.dbgWait (s : State) (seq : Nat) (w : DbgWait) : State :=
  s.modDbg fun d => { d with busy := some (seq, w), resp := dbgWord 0 seq false 0 }

/-- NOP collects a response and submits nothing. -/
def State.doDbgNop (s : State) : State := if s.tapOn && s.dbg.ir == 0x20 then s.dbgScan else s

/-! ### Unlocking (R436) -/

/-- CHALLENGE. -/
def State.doChallenge (s : State) (seq arg data : Nat) : State :=
  s.dbgRequest 0x01 seq arg 0 (data != 0 || fld arg 47 2 != 0) fun s =>
    let w := fld arg 1 0
    let st := lowest (conds [(s.reg 0x7030 0 == 0, .accessDenied), (decide (s.localNs < s.dbg.blocked), .busy)])
    let s := if st = .ok ∧ w = 0 then
        let (r, s) := s.draw
        s.modDbg fun d => { d with nonce := natLe 32 r.toNat, sig := [] }
      else s
    let s := s.dbgReply seq st (if st = .ok then leNat (sliceZ s.dbg.nonce (8 * w) 8) else 0)
    if w = 0 then s.dbgNote 0x01 arg st 0 0 else s.flushMerge

/-- The message that a principal signs to unlock (R436). -/
def State.unlockMsg (s : State) (slot scope : Nat) : Bytes :=
  s.dbg.nonce ++ natLe 8 (s.reg 0x1000 3) ++ natLe 1 slot ++ natLe 1 scope ++ [0x44#8, 0x42#8, 0x47#8, 0x31#8]

/-- The signature in hand unlocks a scope for a slot. -/
def State.unlocks (s : State) (slot scope : Nat) : Bool :=
  let sig := (List.range 8).flatMap fun i => natLe 8 (SMap.get 0#64 s.dbg.sig i).toNat
  !s.dbg.nonce.isEmpty && !s.slotEmpty slot && bit (s.slotRoles slot) 3 && sm2Verify (s.slotKey slot) (s.unlockMsg slot scope) sig

/-- A failed unlock is counted; the third in a row blocks CHALLENGE for 60 s. -/
def State.unlockFails (s : State) : State :=
  let w := s.reg 0x7030 2
  let k := min 3 (fld w 1 0 + 1)
  let s := (s.setReg 0x7030 2 (setFld w 1 0 k)).bump 32 0x8F10 1 1
  if k = 3 then s.modDbg fun d => { d with blocked := s.localNs + 60000000000 } else s

/-- RESPOND: word 7 verifies the signature, and the nonce is consumed. -/
def State.doRespond (s : State) (seq arg data : Nat) : State :=
  s.dbgRequest 0x02 seq arg 0 (fld arg 40 3 != 0) fun s =>
    let k := fld arg 2 0
    let slot := fld arg 47 44
    let scope := fld arg 43 41
    let s := s.modDbg fun d => { d with sig := SMap.put k (BitVec.ofNat 64 data) d.sig }
    if k ≠ 7 then s.dbgDone 0x02 seq arg .ok 0
    else
      let ok := s.unlocks slot scope
      let s := s.modDbg fun d => { d with nonce := [], sig := [] }
      if ok then
        let w := 2 ^ 15 + 2 ^ 14 + scope <<< 11 + slot <<< 4
        ((s.setReg 0x7030 2 w).bump 32 0x8F10 0 1).dbgDone 0x02 seq arg .ok 0
      else s.unlockFails.dbgDone 0x02 seq arg .accessDenied 0

/-- LOCK: the record of the end of the unlock is the request's. -/
def State.doDbgLock (s : State) (seq arg data : Nat) : State :=
  s.dbgRequest 0x03 seq arg 0 (data != 0 || arg != 0) fun s =>
    if s.unlocked then (s.endUnlock).dbgReply seq .ok 0 else s.dbgDone 0x03 seq arg .ok 0

/-! ### Halts (R437) -/

/-- The context that a debug request names: that of the resident client, saved for a kiln slice or live. -/
def State.dbgSaved (s : State) (n h : Nat) : Option Saved :=
  s.saved.find? fun v => v.core == n && v.ctx == h && s.resident v.part == v.client

def State.dbgCtx (s : State) (n h : Nat) : Ctx := match s.dbgSaved n h with | some v => v.st | none => s.ctx n h

/-- Change the context that a debug request names. -/
def State.modDbgCtx (s : State) (n h : Nat) (f : Ctx → Ctx) : State :=
  match s.dbgSaved n h with
  | some v => { s with saved := s.saved.map fun z => if z = v then { v with st := f v.st } else z }
  | none => s.modCtx n h f

/-- Why a core cannot be addressed (R6, R22). -/
def State.coreGone (s : State) (n : Nat) : Option Status :=
  firstFail [(s.fused (n / 256), .engineAbsent), (!s.presented n, .unitRetired)]

/-- The tag of the command that a halt of a context concerns (R130): of the command that a breakpoint keeps from starting,
and otherwise of the last command that the run has started (DEDUCED, log entry 65). -/
def State.haltTag (s : State) (n : Nat) (x : Ctx) : Nat :=
  let w := s.entry n x x.next
  if x.state == .running && x.cmd.isNone && !x.noMatch && s.breakHit n x w then cTag w else x.lastTag

/-- A halt request on one context. -/
def State.haltCtx (s : State) (seq arg n h : Nat) : State :=
  let x := s.dbgCtx n h
  if x.halted then s.dbgDone 0x10 seq arg .ok 0 (s.haltTag n x)
  else if x.state == .waiting && (s.dbgSaved n h).isNone then
    (s.modDbgCtx n h fun x => { x with halted := true }).dbgDone 0x10 seq arg .ok 0 (s.haltTag n x)
  else (s.modDbgCtx n h fun x => { x with haltReq := true }).dbgWait seq (.halt n h)

/-- The core and context of a debug request. -/
def argCore (arg : Nat) : Nat := fld arg 13 0
def argCtx (arg : Nat) : Nat := fld arg 15 14

/-- A request of scope RUN on one context. -/
def State.dbgOnCtx (s : State) (op seq arg data : Nat) (bad : Bool) (body : State → State) : State :=
  s.dbgRequest op seq arg scopeRun (data != 0 || bad) fun s =>
    match s.coreGone (argCore arg) with
    | some st => s.dbgDone op seq arg st 0
    | none => body s

/-- HALT. -/
def State.doHalt (s : State) (seq arg data : Nat) : State :=
  s.dbgOnCtx 0x10 seq arg data (fld arg 47 16 != 0) fun s => s.haltCtx seq arg (argCore arg) (argCtx arg)

/-- RESUME clears the halt. -/
def State.doDbgResume (s : State) (seq arg data : Nat) : State :=
  s.dbgOnCtx 0x11 seq arg data (fld arg 47 16 != 0) fun s =>
    let x := s.dbgCtx (argCore arg) (argCtx arg)
    let s := s.modDbgCtx (argCore arg) (argCtx arg) fun x =>
      { x with halted := false, haltReq := false, stepOne := false, noMatch := x.halted || x.noMatch }
    (s.requestWake (argCore arg)).dbgDone 0x11 seq arg .ok 0 (s.haltTag (argCore arg) x)

/-- STEP runs one command from the halted position; the response follows the next halt. -/
def State.doStep (s : State) (seq arg data : Nat) : State :=
  s.dbgOnCtx 0x12 seq arg data (fld arg 47 16 != 0) fun s =>
    let n := argCore arg
    let h := argCtx arg
    if !(s.dbgCtx n h).halted then s.dbgDone 0x12 seq arg .busy 0 (s.dbgCtx n h).lastTag
    else
      let s := s.modDbgCtx n h fun x =>
        if x.cmd.isSome then { x with halted := false, haltReq := true }
        else { x with halted := false, stepOne := true, noMatch := true }
      (s.requestWake n).dbgWait seq (.step n h)

/-- HALT_EFFECT: a context has reached a command boundary at which a halt falls due. -/
def State.doHaltEffect (s : State) (n h : Nat) : State :=
  let x := s.ctx n h
  if x.state == .running && x.cmd.isNone && !x.halted && s.haltDue n h then
    let tag := s.haltTag n x
    let s := s.setCtx n h { x with halted := true, haltReq := false }
    match s.dbg.busy with
    | some (seq, .halt n' h') => if n = n' ∧ h = h' then s.dbgDone 0x10 seq (h <<< 14 + n) .ok 0 tag else s
    | some (seq, .step n' h') => if n = n' ∧ h = h' then s.dbgDone 0x12 seq (h <<< 14 + n) .ok 0 x.lastTag else s
    | _ => s
  else s

/-- The value of a CTX_READ item (R435). -/
def State.ctxItem (s : State) (n h item : Nat) : Nat :=
  let x := s.dbgCtx n h
  if item = 0 then (Config.ctxWord (s.ctxCode n h) x.next).toNat
  else if item = 33 then x.status
  else x.param (2 * item - 2) + x.param (2 * item - 1) <<< 32

/-- CTX_READ. -/
def State.doCtxRead (s : State) (seq arg data : Nat) : State :=
  s.dbgOnCtx 0x13 seq arg data (fld arg 47 24 != 0 || decide (33 < fld arg 23 16)) fun s =>
    s.dbgDone 0x13 seq arg .ok (s.ctxItem (argCore arg) (argCtx arg) (fld arg 23 16))

/-- BREAK_SET. -/
def State.doBreakSet (s : State) (seq arg data : Nat) : State :=
  let all := bit arg 41
  s.dbgRequest 0x14 seq arg scopeRun (decide (65535 < data) || fld arg 43 42 == 0 || fld arg 43 42 == 3 ||
      fld arg 32 14 != 0 || (all && fld arg 13 0 != 0)) fun s =>
    (s.setReg 0x7031 (fld arg 47 44) (data % 65536 * 2 ^ 48 + arg % 2 ^ 48)).dbgDone 0x14 seq arg .ok 0

/-- BREAK_CLEAR. -/
def State.doBreakClear (s : State) (seq arg data : Nat) : State :=
  s.dbgRequest 0x15 seq arg scopeRun (data != 0 || fld arg 43 0 != 0) fun s =>
    (s.setReg 0x7031 (fld arg 47 44) 0).dbgDone 0x15 seq arg .ok 0

/-! ### Memory operations (R438) -/

/-- A memory operation on local memory. -/
def State.memLocal (s : State) (seq : Nat) (write : Bool) (a data : Nat) : State :=
  if write then
    let old := leNat (s.bytes a 8)
    match s.writeLocal .debug a (natLe 8 data) with
    | (s, st) => s.memEnds seq true a data (if st = .ok then old else 0) st 0
  else match s.readLocal a 8 with
    | (s, st, bs) => s.memEnds seq false a 0 0 st (leNat bs)

/-- Run a memory operation: it waits for a unit under test, for its package to accept it, and for a host at an aperture. -/
def State.memOp (s : State) (seq : Nat) (write : Bool) (a data : Nat) : State :=
  match place a with
  | .aperture .. =>
    match s.apertureSeg a with
    | some (port, w, off) =>
      if !(if write then bit w 13 else bit w 12) then s.memEnds seq write a data 0 .accessDenied 0
      else if s.qpState port (fld w 31 22) ≠ 1 then s.memEnds seq write a data 0 .remoteUnreachable 0
      else
        (s.dbgWait seq (.mem write a data)).qpSend port (fld w 31 22) (!write) ((fld w 127 64 + off) % 2 ^ 64) (fld w 63 32) 8
          (if write then natLe 8 data else []) .debug
    | none => s.memEnds seq write a data 0 .accessDenied 0
  | .arrival .. | .doorbell _ =>
    s.memEnds seq write a data 0 ((s.popStatus a 8).getD .accessDenied) 0
  | _ =>
    if s.inSaveArea a && (s.popStatus a 8).isNone then s.memEnds seq write a data 0 .accessDenied 0
    else if s.accessWaits a 8 && (s.popStatus a 8).isNone then s.dbgWait seq (.mem write a data)
    else s.memLocal seq write a data

/-- A memory operation that waited for a unit under test or for its package goes on. -/
def State.dbgRetry (s : State) : State :=
  match s.dbg.busy with
  | some (seq, .mem w a d) =>
    match place a with
    | .aperture .. => s
    | _ => if s.accessWaits a 8 && (s.popStatus a 8).isNone then s else s.memOp seq w a d
  | _ => s

/-- MEM_READ. -/
def State.doMemRead (s : State) (seq arg data : Nat) : State :=
  s.dbgRequest 0x20 seq arg scopeRead (data != 0 || bit arg 47 || arg % 8 != 0) fun s => s.memOp seq false (arg % 2 ^ 47) 0

/-- MEM_WRITE. -/
def State.doMemWrite (s : State) (seq arg data : Nat) : State :=
  s.dbgRequest 0x21 seq arg scopeWrite (bit arg 47 || arg % 8 != 0) fun s => s.memOp seq true (arg % 2 ^ 47) data

/-! ### Dictionary operations (R435, R443) -/

/-- The roles that the unlocked scopes stand for: READ and WRITE. -/
def State.tapRoles (s : State) : Nat := (fld (s.reg 0x7030 2) 13 11) / 2

/-- The TAP as the writer of an entry. -/
def State.tapWriter (s : State) : Origin := { s.tapOrigin with roles := BitVec.ofNat 8 s.tapRoles }

/-- DICT_READ. -/
def State.doDictRead (s : State) (seq arg data : Nat) : State :=
  s.dbgRequest 0x30 seq arg scopeRead (data != 0 || fld arg 15 0 != 0) fun s =>
    match s.dictRead s.tapRoles (fld arg 47 32) (fld arg 31 24) with
    | (st, bs) =>
      (s.dbgReply seq st (if st = .ok then leNat (sliceZ bs (8 * fld arg 23 16) 8) else 0)).dbgMerge 0x30 arg 65536 st

/-- DICT_STAGE. -/
def State.doDictStage (s : State) (seq arg data : Nat) : State :=
  s.dbgRequest 0x31 seq arg scopeWrite (fld arg 47 24 != 0 || fld arg 15 0 != 0) fun s =>
    (s.modDbg fun d => { d with stage := SMap.putD 0#64 (fld arg 23 16) (BitVec.ofNat 64 data) d.stage }).dbgDone 0x31 seq arg .ok 0

/-- The staged bytes. -/
def State.staged (s : State) (len : Nat) : Bytes :=
  ((List.range (ceilDiv (min len 2048) 8)).flatMap fun i => natLe 8 (SMap.get 0#64 s.dbg.stage i).toNat).take len

/-- DICT_WRITE. The request's own record comes after that of the write; of a write that resets the device, before. -/
def State.doDictWrite (s : State) (seq arg data : Nat) : State :=
  s.dbgRequest 0x32 seq arg scopeWrite (data != 0 || fld arg 23 16 != 0) fun s =>
    let index := fld arg 47 32
    let sub := fld arg 31 24
    let value := s.staged (fld arg 15 0)
    let o := s.tapWriter
    if index = 0x2030 ∧ s.writeCheck o index sub value = .ok then
      ((s.dbgNote 0x32 arg .ok 0 0).writeEntry o index sub value .nobody).1
    else match s.writeEntry o index sub value (.tap seq) with
      | (s, some st) => (s.afterWrite index sub (some st)).dbgDone 0x32 seq arg st 0
      | (s, none) => s.dbgWait seq (.write index sub)

end Sys2Proof.Machine
end

