-- ==== Sys2Proof/Machine/Caddy.lean ====
section
/-! DEFINITION. The Caddy protocol (R448 to R458): messages, sessions, reads and writes, block messages and
notifications. -/

namespace Sys2Proof.Machine

/-! ### Messages (R448 to R450) -/

/-- The 16 B header as a number; its first byte is bits [127:120]. -/
def msgHdr (m : Bytes) : Nat := beNat (sliceZ m 0 16)
def msgType (m : Bytes) : Nat := fld (msgHdr m) 103 96
def msgSession (m : Bytes) : Nat := fld (msgHdr m) 79 48
def msgSeq (m : Bytes) : Nat := fld (msgHdr m) 47 16
def msgIsReply (m : Bytes) : Bool := bit (msgHdr m) 95
/-- The payload: what lies between the header and the 32 B MAC. -/
def msgPayload (m : Bytes) : Bytes := slice m 16 (m.length - 48)
/-- The MAC field. -/
def msgMac (m : Bytes) : Bytes := slice m (m.length - 32) 32
/-- 32 zero bytes in place of a MAC. -/
def noMac : Bytes := List.replicate 32 0#8

/-- The assigned message types. -/
def assignedTypes : List Nat := [0x01, 0x02, 0x03, 0x10, 0x11, 0x12, 0x13, 0x20]

/-- A datagram is for the row of a type: it carries that type, or a reserved one. -/
def msgFor (ty : Nat) (m : Bytes) : Bool := msgType m == ty || !assignedTypes.contains (msgType m)

/-- The header of a request is malformed (R457). -/
def badHeader (ty : Nat) (m : Bytes) : Bool :=
  let h := msgHdr m
  fld h 127 112 != 0xCADD || fld h 111 104 != 1 || fld h 103 96 != ty || bit h 95 || fld h 94 80 != 0 ||
  fld h 15 0 != (msgPayload m).length || decide (2184 < fld h 15 0)

/-- A message without a MAC. -/
def plainMsg (ty : Nat) (st : Status) (session seq : Nat) (payload : Bytes) : Bytes :=
  caddyHeader ty true st.code session seq payload.length ++ payload ++ noMac

/-- Caddy messages are accepted (R412, R417, R448): from the end of P2, on a port whose link is up. -/
def State.caddyOn (s : State) (t : Tuple) : Bool := s.receiving && decide (3 ≤ s.phase) && s.linkUp t.port.val

/-! ### Sessions (R451 to R453) -/

/-- A session by its identifier. -/
def State.session (s : State) (id : Nat) : Option Session := s.sessions.find? fun x => x.id == id

/-- Change a session. -/
def State.modSession (s : State) (id : Nat) (f : Session → Session) : State :=
  { s with sessions := s.sessions.map fun x => if x.id = id then f x else x }

/-- A message is dropped without reply (R457). -/
def State.macDrop (s : State) : State := s.bump 32 0x8F20 0 1

/-- The first identifier from v on that is not zero and not taken. -/
def freeId (taken : List Nat) (v : Nat) : Nat → Nat
  | 0 => v
  | fuel + 1 => if v = 0 || taken.contains v then freeId taken ((v + 1) % 2 ^ 32) fuel else v

/-- The oldest half-open session is discarded when there are eight (R452). -/
def State.roomForHello (s : State) : State :=
  let half := s.sessions.filter fun x => !x.isOpen
  match half with
  | x :: _ => if 8 ≤ half.length then { s with sessions := s.sessions.filter fun y => y.id != x.id } else s
  | [] => s

/-- A signature of the device (R419, R451). -/
def State.deviceSign (s : State) (m : Bytes) : Bytes × State :=
  let (r, s) := s.draw
  (sm2Sign Config.deviceKey s.devicePub m (r.toNat % sm2n), s)

/-- A status that a reply carries, in an item or its header, sets its sticky bit: the KIND 1 record of a condition that
no other record reports (R373, R461). -/
def State.caddyNote (s : State) (o : Origin) (st : Status) (index sub : Nat) : State :=
  if st.sticky then s.record { kind := 1, origin := o, status := st, detail := noDetail, index := index, sub := sub } else s

/-- The ASCII bytes of a text. -/
def ascii (t : String) : Bytes := t.toList.map fun c => BitVec.ofNat 8 c.toNat

/-- HELLO (R451 steps 1 and 2). -/
def State.doHello (s : State) (t : Tuple) (m : Bytes) : State :=
  if !s.caddyOn t || !msgFor 0x01 m then s
  else
    let s := s.rxFrames t.port.val 1
    if !bit (s.reg 0x7080 0) t.port.val then s
    else if m.length < 48 || msgMac m != noMac then s.macDrop
    else if badHeader 0x01 m || msgSession m != 0 || (msgPayload m).length != 32 then
      (s.caddyNote s.kdOrigin .recipeInvalid 0 0).emit
        (.caddy t (plainMsg (msgType m) .recipeInvalid (msgSession m) (msgSeq m) []))
    else
      let s := s.roomForHello
      let (r, s) := s.draw
      let id := freeId s.sessIds (r.toNat % 2 ^ 32) (s.sessIds.length + 2)
      let (n, s) := s.draw
      let host := msgPayload m
      let device := natLe 32 n.toNat
      let serial := natLe 8 (s.reg 0x1000 3)
      let (sig, s) := s.deviceSign (ascii "CDY1" ++ host ++ device ++ natBe 4 id ++ serial)
      let x : Session := { id := id, tuple := t, isOpen := false, nonces := host ++ device }
      let s : State := { s with sessions := s.sessions ++ [x], sessIds := s.sessIds ++ [id] }
      s.emit (.caddy t (plainMsg 0x01 .ok id (msgSeq m) (device ++ serial ++ sig)))

/-- The failures of OPEN for a slot, and until when it is refused. -/
def State.slotFails (s : State) (slot : Nat) : List Nat × Nat := SMap.get ([], 0) s.openFails slot

/-- A failed OPEN (R452). -/
def State.openFailed (s : State) (x : Session) (slot seq : Nat) : State :=
  let now := s.localNs
  let f := s.slotFails slot
  let l := now :: f.1.filter fun u => decide (now - u < 60000000000)
  let e := if 3 ≤ l.length then ([], now + 60000000000) else (l, f.2)
  let s : State := { s with openFails := SMap.putD ([], 0) slot e s.openFails,
                            sessions := s.sessions.filter fun y => y.id != x.id }
  let s := (s.bump 32 0x8F20 1 1).sessionNote { x with slot := slot } .accessDenied 5
  s.emit (.caddy x.tuple (plainMsg 0x02 .accessDenied x.id seq []))

/-- The message that a principal signs to open a session (R451 step 3). -/
def Session.openMsg (x : Session) (slot flags : Nat) : Bytes :=
  ascii "CDY2" ++ slice x.nonces 32 32 ++ slice x.nonces 0 32 ++ natBe 4 x.id ++ natLe 1 slot ++ natLe 1 flags

/-- The principal's signature holds, and its slot has a key and a role. -/
def State.openValid (s : State) (x : Session) (slot flags : Nat) (sig : Bytes) : Bool :=
  decide (slot < 16) && !s.slotEmpty slot && s.slotRoles slot != 0 && sm2Verify (s.slotKey slot) (x.openMsg slot flags) sig

/-- OPEN succeeds (R451 steps 4 and 5). -/
def State.openDone (s : State) (x : Session) (slot flags : Nat) : State :=
  let (k, s) := s.draw
  let (e, s) := s.draw
  let key := natLe 32 k.toNat
  let payload := sm2Encrypt (s.slotKey slot) key (e.toNat % sm2n) ++ List.replicate 7 0#8
  let msg := caddyMacd key (caddyHeader 0x02 true 0 x.id 0 payload.length) payload
  let x' := { x with isOpen := true, slot := slot, roles := s.slotRoles slot, notify := bit flags 0, key := key, lastSeq := 0,
                     reply := msg }
  let s := (s.modSession x.id fun _ => x').sessionNote x' .ok 0
  let s : State := { s with openFails := SMap.del slot s.openFails }
  (s.setReg 0x7080 2 ((s.sessions.filter (·.isOpen)).length)).emit (.caddy x.tuple msg)

/-- The status with which an OPEN is refused, before its signature is looked at. -/
def State.openRefused (s : State) (slot seq : Nat) (bad : Bool) : Option Status :=
  firstFail [(bad, .recipeInvalid), (seq != 0, .accessDenied),
             (decide (s.localNs < (s.slotFails slot).2) || decide (32 ≤ (s.sessions.filter (·.isOpen)).length), .busy)]

/-- OPEN (R451, R452). A repeated OPEN of a session that has executed no request since gets its reply again (R453). -/
def State.doOpen (s : State) (t : Tuple) (m : Bytes) : State :=
  if !s.caddyOn t || !msgFor 0x02 m then s
  else
    let s := s.rxFrames t.port.val 1
    match s.session (msgSession m) with
    | none => s.macDrop
    | some x =>
      if x.tuple ≠ t || m.length < 48 || msgMac m != noMac then s.macDrop
      else
        let p := msgPayload m
        let slot := leNat (sliceZ p 0 1)
        let flags := leNat (sliceZ p 1 1)
        let sig := slice p 8 64
        if x.isOpen then
          (if x.lastSeq = 0 && msgSeq m == 0 && slot == x.slot && s.openValid x slot flags sig then s.emit (.caddy t x.reply)
           else s.macDrop)
        else
          let bad := badHeader 0x02 m || p.length != 72 || decide (1 < flags) || leNat (slice p 2 6) != 0
          match s.openRefused slot (msgSeq m) bad with
          | some st => (s.caddyNote x.origin st 0 0).emit (.caddy t (plainMsg (msgType m) st x.id (msgSeq m) []))
          | none => if s.openValid x slot flags sig then s.openDone x slot flags else s.openFailed x slot (msgSeq m)

/-! ### Requests of open sessions (R453, R457) -/

/-- Send a reply and keep it: the request is executed. -/
def State.caddyReply (s : State) (x : Session) (ty seq : Nat) (st : Status) (payload : Bytes) : State :=
  let msg := caddyMacd x.key (caddyHeader ty true st.code x.id seq payload.length) payload
  (s.modSession x.id fun y => { y with lastSeq := seq, reply := msg, waiting := false }).sendCaddy x.tuple msg

/-- The open session that a message belongs to: on its tuple, and with its MAC. -/
def State.authentic (s : State) (t : Tuple) (m : Bytes) : Option Session :=
  match s.session (msgSession m) with
  | none => none
  | some x =>
    if x.isOpen && x.tuple == t && decide (48 ≤ m.length) && msgMac m == hmacSm3 x.key (m.take (m.length - 32)) then some x
    else none

/-- A request of an open session: a repeated one gets the cached reply, a malformed one ST_RECIPE_INVALID, the next in
sequence is executed (R453, R457). -/
def State.caddyRequest (s : State) (ty : Nat) (t : Tuple) (m : Bytes) (bad : Bool) (body : State → Session → State) : State :=
  if !s.caddyOn t || !msgFor ty m then s
  else
    let s := s.rxFrames t.port.val 1
    match s.authentic t m with
    | none => s.macDrop
    | some x =>
      let seq := msgSeq m
      if seq = x.lastSeq then (if x.waiting then s else s.emit (.caddy t x.reply))
      else if seq = (x.lastSeq + 1) % 2 ^ 32 ∧ !x.waiting then
        if badHeader ty m || bad then (s.caddyNote x.origin .recipeInvalid 0 0).caddyReply x (msgType m) seq .recipeInvalid []
        else body s x
      else (s.caddyNote x.origin .accessDenied 0 0).emit
        (.caddy t (caddyMacd x.key (caddyHeader (msgType m) true Status.accessDenied.code x.id seq 0) []))

/-- CLOSE (R452): answered before the session closes. -/
def State.doClose (s : State) (t : Tuple) (m : Bytes) : State :=
  s.caddyRequest 0x03 t m (!(msgPayload m).isEmpty) fun s x =>
    (s.caddyReply x 0x03 (msgSeq m) .ok []).closeSessions (fun y => y.id == x.id) 0

/-! ### READ (R454) -/

/-- The item count of a READ or WRITE payload. -/
def itemCount (p : Bytes) : Nat := leNat (sliceZ p 0 1)

/-- The opening 8 B are malformed. -/
def badOpening (p : Bytes) : Bool :=
  decide (p.length < 8) || itemCount p == 0 || decide (16 < itemCount p) || leNat (slice p 1 7) != 0

/-- An entry is reached by block messages only. -/
def blockOnly (index sub : Nat) : Bool :=
  match findEntry index sub with
  | some e => decide (128 < e.ty.len)
  | none => false

/-- The items of a READ request, 8 B each. -/
def readItems (p : Bytes) : List Bytes := (List.range (itemCount p)).map fun i => slice p (8 + 8 * i) 8

/-- Index and sub-index of an item. -/
def itemIndex (i : Bytes) : Nat := leNat (sliceZ i 0 2)
def itemSub (i : Bytes) : Nat := leNat (sliceZ i 2 1)

/-- A READ payload is malformed. -/
def badRead (p : Bytes) : Bool :=
  badOpening p || p.length != 8 + 8 * itemCount p ||
    (readItems p).any fun i => leNat (slice i 3 5) != 0 || blockOnly (itemIndex i) (itemSub i)

/-- The opening 8 B of a payload. -/
def opening (n : Nat) : Bytes := natLe 8 n

/-- The status of a message: that of its first item that did not complete with ST_OK. -/
def firstBad : List Status → Status
  | [] => .ok
  | st :: t => if st = .ok then firstBad t else st

/-- READ. -/
def State.doCaddyRead (s : State) (t : Tuple) (m : Bytes) : State :=
  s.caddyRequest 0x10 t m (badRead (msgPayload m)) fun s x =>
    let rs := (readItems (msgPayload m)).map fun i => (i, s.dictRead x.roles (itemIndex i) (itemSub i))
    let items := rs.flatMap fun (r : Bytes × Status × Bytes) =>
      natLe 2 (itemIndex r.1) ++ natLe 1 (itemSub r.1) ++ natLe 1 r.2.1.code ++ natLe 4 r.2.2.length ++ padTo 8 r.2.2
    let s := rs.foldl (fun (s : State) (r : Bytes × Status × Bytes) =>
      s.caddyNote x.origin r.2.1 (itemIndex r.1) (itemSub r.1)) s
    s.caddyReply x 0x10 (msgSeq m) (firstBad (rs.map fun (r : Bytes × Status × Bytes) => r.2.1)) (opening rs.length ++ items)

/-! ### WRITE (R454, R455) -/

/-- Length of the value of a WRITE item. -/
def itemLen (i : Bytes) : Nat := leNat (sliceZ i 4 2)
/-- Bytes that a WRITE item takes. -/
def itemBytes (i : Bytes) : Nat := 8 + ceilDiv (itemLen i) 8 * 8

/-- The WRITE items in a payload are well-formed: n of them, and nothing after them. -/
def writeItemsOk : Nat → Bytes → Bool
  | 0, p => p.isEmpty
  | n + 1, p =>
    decide (8 ≤ p.length) && decide (itemBytes p ≤ p.length) && decide (itemLen p ≤ 128) && leNat (slice p 3 1) == 0 &&
      leNat (slice p 6 2) == 0 && leNat (slice p (8 + itemLen p) (itemBytes p - 8 - itemLen p)) == 0 &&
      !blockOnly (itemIndex p) (itemSub p) && writeItemsOk n (p.drop (itemBytes p))

/-- One item of a WRITE reply. -/
def replyItem (index sub : Nat) (st : Status) : Bytes := natLe 2 index ++ natLe 1 sub ++ natLe 1 st.code ++ natLe 4 0

/-- The items after a refused one are not applied (R455). -/
def abortedItems : Nat → Bytes → Bytes
  | 0, _ => []
  | n + 1, p => if p.isEmpty then [] else replyItem (itemIndex p) (itemSub p) .aborted ++ abortedItems n (p.drop (itemBytes p))

/-- The items of a WRITE reply. -/
def doneItems (done : Bytes) : List Bytes := chunks 8 done

/-- The reply to a WRITE, and what follows it. -/
def State.writeReply (s : State) (id seq : Nat) (done : Bytes) : State :=
  match s.session id with
  | none => s
  | some x =>
    let l := doneItems done
    let st (i : Bytes) : Status := Status.ofCode (leNat (sliceZ i 3 1))
    let s := s.caddyReply x 0x11 seq (firstBad (l.map st)) (opening l.length ++ done)
    l.foldl (fun (s : State) i => s.afterWrite (itemIndex i) (itemSub i) (some (st i))) s

/-- Apply the items of a WRITE in order; fuel bounds their number (R455). -/
def State.runWrites (s : State) (x : Session) (seq : Nat) (done : Bytes) : Nat → Bytes → State
  | 0, _ => s.writeReply x.id seq done
  | fuel + 1, p =>
    if p.isEmpty then s.writeReply x.id seq done
    else
      let rest := p.drop (itemBytes p)
      match s.writeEntry x.origin (itemIndex p) (itemSub p) (slice p 8 (itemLen p)) (.session x.id seq done rest) with
      | (s, some .ok) => s.runWrites x seq (done ++ replyItem (itemIndex p) (itemSub p) .ok) fuel rest
      | (s, some st) =>
        s.writeReply x.id seq (done ++ replyItem (itemIndex p) (itemSub p) st ++ abortedItems 16 rest)
      | (s, none) => s

/-- A request is being executed. -/
def State.executing (s : State) (x : Session) (seq : Nat) : State :=
  s.modSession x.id fun y => { y with lastSeq := seq, waiting := true }

/-- WRITE. -/
def State.doCaddyWrite (s : State) (t : Tuple) (m : Bytes) : State :=
  let p := msgPayload m
  s.caddyRequest 0x11 t m (badOpening p || !writeItemsOk (itemCount p) (p.drop 8)) fun s x =>
    (s.executing x (msgSeq m)).runWrites x (msgSeq m) [] 16 (p.drop 8)

/-! ### Block messages (R456) -/

/-- Offset and length of a block message. -/
def blockOff (p : Bytes) : Nat := leNat (sliceZ p 4 2)
def blockLen (p : Bytes) : Nat := leNat (sliceZ p 6 2)

/-- The key of an entry in a snapshot or staging. -/
def blockKey (p : Bytes) : Nat := rk (itemIndex p) (itemSub p)

/-- The reply of a READ_BLOCK. -/
def readBlockReply (p : Bytes) (st : Status) (value : Bytes) : Bytes :=
  natLe 2 (itemIndex p) ++ natLe 1 (itemSub p) ++ natLe 1 st.code ++ natLe 2 value.length ++ natLe 2 (blockOff p)
    ++ slice value (blockOff p) (blockLen p)

/-- A READ_BLOCK that is refused. -/
def State.blockRefused (s : State) (x : Session) (m : Bytes) (st : Status) : State :=
  let p := msgPayload m
  (s.caddyNote x.origin st (itemIndex p) (itemSub p)).caddyReply x 0x12 (msgSeq m) st (readBlockReply p st [])

/-- READ_BLOCK. -/
def State.doReadBlock (s : State) (t : Tuple) (m : Bytes) : State :=
  let p := msgPayload m
  s.caddyRequest 0x12 t m (p.length != 8 || leNat (sliceZ p 3 1) != 0 || blockLen p == 0 || decide (2048 < blockLen p)) fun s x =>
    if blockOff p = 0 then
      match s.dictRead x.roles (itemIndex p) (itemSub p) with
      | (.ok, v) =>
        (s.modSession x.id fun y => { y with snap := some (blockKey p, v) }).caddyReply x 0x12 (msgSeq m) .ok
          (readBlockReply p .ok v)
      | (st, _) => s.blockRefused x m st
    else match x.snap with
      | some (k, v) =>
        if k = blockKey p then s.caddyReply x 0x12 (msgSeq m) .ok (readBlockReply p .ok v)
        else s.blockRefused x m .recipeInvalid
      | none => s.blockRefused x m .recipeInvalid

/-- The bytes staged once a WRITE_BLOCK has added its data; none when its offset does not continue the staging. -/
def Session.stageWith (x : Session) (p : Bytes) : Option Bytes :=
  if blockOff p = 0 then some (p.drop 8)
  else match x.stage with
    | some (k, v) => if k = blockKey p ∧ v.length = blockOff p then some (v ++ p.drop 8) else none
    | none => none

/-- The reply to a WRITE_BLOCK whose write has ended. -/
def State.blockReply (s : State) (id seq index sub : Nat) (st : Status) : State :=
  match s.session id with
  | none => s
  | some x => (s.caddyReply x 0x13 seq st (replyItem index sub st)).afterWrite index sub (some st)

/-- WRITE_BLOCK. -/
def State.doWriteBlock (s : State) (t : Tuple) (m : Bytes) : State :=
  let p := msgPayload m
  s.caddyRequest 0x13 t m (decide (p.length < 8) || p.length != 8 + blockLen p || blockLen p == 0 || decide (2048 < blockLen p) ||
      decide (1 < leNat (sliceZ p 3 1))) fun s x =>
    let i := itemIndex p
    let k := itemSub p
    match x.stageWith p with
    | none =>
      ((s.modSession x.id fun y => { y with stage := none }).caddyNote x.origin .recipeInvalid i k).caddyReply x 0x13
        (msgSeq m) .recipeInvalid (replyItem i k .recipeInvalid)
    | some v =>
      if leNat (sliceZ p 3 1) = 0 then
        (s.modSession x.id fun y => { y with stage := some (blockKey p, v) }).caddyReply x 0x13 (msgSeq m) .ok (replyItem i k .ok)
      else
        let s := (s.executing x (msgSeq m)).modSession x.id fun y => { y with stage := none }
        match s.writeEntry x.origin i k v (.block x.id (msgSeq m)) with
        | (s, some st) => s.blockReply x.id (msgSeq m) i k st
        | (s, none) => s

/-! ### Notifications (R458) and lapses (R451, R452) -/

/-- NOTIFY: the host's acknowledgement; bits set meanwhile go into the next one. -/
def State.doNotify (s : State) (t : Tuple) (m : Bytes) : State :=
  if !msgIsReply m then s.caddyRequest 0x20 t m true fun s _ => s
  else if !s.caddyOn t || !msgFor 0x20 m then s
  else
    let s := s.rxFrames t.port.val 1
    match s.authentic t m with
    | none => s.macDrop
    | some x =>
      if x.nOut && x.nNum == msgSeq m then
        let y := { x with nOut := false, nDirty := false }
        let r := if x.nDirty then s.notifyOne y else (y, [])
        let s := s.modSession x.id fun _ => r.1
        { s with out := s.out ++ r.2 }
      else s

/-- NOTIFY_RESEND: an unacknowledged NOTIFY is sent again, and dropped after ten sends. -/
def State.doNotifyResend (s : State) (id : Nat) : State :=
  match s.session id with
  | none => s
  | some x =>
    if !x.nOut then s
    else if 10 ≤ x.nSends then
      (s.modSession id fun x => { x with nOut := false, nDirty := false }).bump 32 0x8F20 2 1
    else (s.modSession id fun x => { x with nSends := x.nSends + 1 }).sendCaddy x.tuple x.nMsg

/-- SESSION_IDLE_EXPIRY: `caddy.idle_s` has passed without a request that passes its MAC. -/
def State.doIdleExpiry (s : State) (id : Nat) : State :=
  if s.sessions.any fun x => x.id == id && x.isOpen then s.closeSessions (fun x => x.id == id && x.isOpen) 1 else s

/-- HALF_OPEN_EXPIRY: no OPEN has arrived within 1 s. -/
def State.doHalfOpenExpiry (s : State) (id : Nat) : State :=
  { s with sessions := s.sessions.filter fun x => !(x.id == id && !x.isOpen) }

/-! ### Writes whose reply follows later (R278, R287, R342, R398, R455) -/

/-- A write that has waited is complete: its record, and its reply, or the items after it. -/
def State.endWait (s : State) (w : Waiting) (st : Status) : State :=
  match w.replier with
  | .fabric t => s.respond t st
  | who =>
    let s := s.writeNote w.origin w.index w.sub w.old (leNat w.value) st
    match who with
    | .session id seq done rest =>
      match s.session id with
      | none => s
      | some x =>
        let done := done ++ replyItem w.index w.sub st
        if st = .ok then s.runWrites x seq done 16 rest else s.writeReply id seq (done ++ abortedItems 16 rest)
    | .block id seq => s.blockReply id seq w.index w.sub st
    | .tap seq =>
      match s.dbg.busy with
      | some (q, .write i k) =>
        if q = seq ∧ i = w.index ∧ k = w.sub then
          s.dbgDone 0x32 seq (w.index <<< 32 + w.sub <<< 24 + w.value.length) st 0
        else s
      | _ => s
    | _ => s

/-- What a write waits for is complete for it: an invalidation also waits for the requests it found in flight (R278). -/
def State.waitOver (s : State) (what : WaitOn) (w : Waiting) : Bool := w.what == what && !w.left.any s.stillFlying

/-- Every write that waits for an event is answered. -/
def State.finishWrite (s : State) (what : WaitOn) (st : Status) : State :=
  let l := s.waits.filter (s.waitOver what)
  let s : State := { s with waits := s.waits.filter fun w => !s.waitOver what w }
  l.foldl (fun (s : State) w => s.endWait w st) s

end Sys2Proof.Machine
end

