-- ==== Sys2Proof/Machine/Settle.lean ====
section
/-! DEFINITION. What follows a command within its step: the engines that follow runs, votes between partitions of the
device, the schedulers, retirements, and writes that have waited. -/

namespace Sys2Proof.Machine

/-- The streams of a core that have still to read their resident descriptor (R92). -/
def State.rereadStreams (s : State) (n : Nat) : List Nat :=
  ((s.core n).streams.filter fun e => e.2.resident && e.2.phase == .running && e.2.fault.isNone).map (·.1)

/-- The streams of a core that resumed with their resident descriptor unread read it (R92). -/
def State.reread (s : State) (n : Nat) : State :=
  (s.rereadStreams n).foldl (fun (s : State) k =>
    match s.readResident n k with
    | (s, none) => s
    | (s, some st) => s.stopStream n k st) s

/-- A run has ended: the verdict collector, shadow checks, retirement and the scheduler learn of it. -/
def State.runEnded (s : State) (n h : Nat) (x : Ctx) (st : Status) : State :=
  let s := s.overDone x.part n h x.lastTag
  let s := (s.mashRunEnded n h x).shadowRunEnded n h x st
  (s.retireCheck n).stir x.part

/-- One event. -/
def State.handle (s : State) : Event → State
  | .runEnded n h x st => s.runEnded n h x st
  | .vote src q step kind => s.localVote src q step kind
  | .gateFailed p => s.failVotes p
  | .retire n => s.doRetire n
  | .resume n => s.resumeCore n
  | .reread n => s.reread n
  | .answer w st => s.finishWrite w st
  | .sched p => (s.advanceDissolve p).schedule p 65536

/-- Handle the events in order; fuel bounds their number. -/
def State.settleN : Nat → State → State
  | 0, s => s
  | k + 1, s =>
    match s.events with
    | [] => s
    | e :: t => State.settleN k (({ s with events := t } : State).handle e)

/-- Everything that follows a command has happened. -/
def State.settle (s : State) : State := State.settleN 65536 s

end Sys2Proof.Machine
end

