-- ==== Sys2Proof/Machine/ExecCommands.lean ====
section
/-! DEFINITION. The meanings of the array events, the recipe and context requests, and the macro-operations, by core and context. -/

namespace Sys2Proof.Machine

/-- K_STEP_ENTER (R40). -/
def execKStepEnter (c : CoreNo) (s : State) : Out :=
  .next (s.doKStep c.val).settle

/-- ARRAY_CONTINUE (R41). -/
def execArrayContinue (c : CoreNo) (s : State) : Out :=
  .next (s.doArrayContinue c.val).settle

/-- LOAD request of an intake ring (R125, R126 steps 1 and 2). -/
def execLoadRequest (d : Die) (r : IntakeNo) (s : State) : Out :=
  .next (s.doLoadRequest d.val r.val).settle

/-- RECIPE_HEADER_FETCHED (R126 step 3). -/
def execRecipeHeaderFetched (c : CoreNo) (h : CtxNo) (s : State) : Out :=
  .next ((s.doHeader c.val h.val).retireCheck c.val).settle

/-- RECIPE_IMAGE_FETCHED (R126 steps 4 to 7). -/
def execRecipeImageFetched (c : CoreNo) (h : CtxNo) (s : State) : Out :=
  .next ((s.doImage c.val h.val).retireCheck c.val).settle

/-- START (R139, R140). -/
def execStart (d : Die) (r : IntakeNo) (s : State) : Out :=
  .next (s.doStart d.val r.val).settle

/-- ABORT (R290). -/
def execAbort (d : Die) (r : IntakeNo) (s : State) : Out :=
  .next (s.doAbort d.val r.val).settle

/-- PATCH packet (R137). -/
def execPatchRequest (d : Die) (r : IntakeNo) (s : State) : Out :=
  .next (s.doPatch d.val r.val).settle

/-- UNLOAD (R139). -/
def execUnload (d : Die) (r : IntakeNo) (s : State) : Out :=
  .next (s.doUnload d.val r.val).settle

/-- COMMAND_COMPLETE (R135, R136). -/
def execCommandComplete (c : CoreNo) (h : CtxNo) (s : State) : Out :=
  .next (s.doCommandComplete c.val h.val).settle

/-- PREEMPTION_TAKEN (R142, R362). -/
def execPreemptionTaken (c : CoreNo) (h : CtxNo) (s : State) : Out :=
  .next (s.doPreempted c.val h.val).settle

/-- MATMUL (R158). -/
def execMatmul (c : CoreNo) (h : CtxNo) (s : State) : Out :=
  .next (s.product c.val h.val 0x01).settle

/-- MATMUL_T (R160). -/
def execMatmulT (c : CoreNo) (h : CtxNo) (s : State) : Out :=
  .next (s.product c.val h.val 0x02).settle

/-- GRAD_W (R162). -/
def execGradW (c : CoreNo) (h : CtxNo) (s : State) : Out :=
  .next (s.product c.val h.val 0x03).settle

/-- ELEMWISE (R164). -/
def execElemwise (c : CoreNo) (h : CtxNo) (s : State) : Out :=
  .next (s.doElemwise c.val h.val).settle

/-- ROWNORM_FWD (R165). -/
def execRownormFwd (c : CoreNo) (h : CtxNo) (s : State) : Out :=
  .next (s.doRownormFwd c.val h.val).settle

/-- ROWNORM_BWD (R165). -/
def execRownormBwd (c : CoreNo) (h : CtxNo) (s : State) : Out :=
  .next (s.doRownormBwd c.val h.val).settle

/-- SOFTMAX_FWD (R165). -/
def execSoftmaxFwd (c : CoreNo) (h : CtxNo) (s : State) : Out :=
  .next (s.doSoftmaxFwd c.val h.val).settle

/-- SOFTMAX_BWD (R165). -/
def execSoftmaxBwd (c : CoreNo) (h : CtxNo) (s : State) : Out :=
  .next (s.doSoftmaxBwd c.val h.val).settle

/-- ATTN_BLOCK_FWD (R207 to R212). -/
def execAttnBlockFwd (c : CoreNo) (h : CtxNo) (s : State) : Out :=
  .next (s.doAttnFwd c.val h.val).settle

/-- ATTN_BLOCK_BWD (R207 to R212). -/
def execAttnBlockBwd (c : CoreNo) (h : CtxNo) (s : State) : Out :=
  .next (s.doAttnBwd c.val h.val).settle

/-- ROPE (R168). -/
def execRope (c : CoreNo) (h : CtxNo) (s : State) : Out :=
  .next (s.doRope c.val h.val).settle

/-- KV_APPEND (R169, R221). -/
def execKvAppend (c : CoreNo) (h : CtxNo) (s : State) : Out :=
  .next (s.doKvAppend c.val h.val).settle

/-- MASKPACK (R170). -/
def execMaskpack (c : CoreNo) (h : CtxNo) (s : State) : Out :=
  .next (s.doMaskpack c.val h.val).settle

/-- RNG_MASK (R171). -/
def execRngMask (c : CoreNo) (h : CtxNo) (s : State) : Out :=
  .next (s.doRngMask c.val h.val).settle

/-- CAST_MX (R172). -/
def execCastMx (c : CoreNo) (h : CtxNo) (s : State) : Out :=
  .next (s.doCastMx c.val h.val).settle

/-- GATHER_ROWS (R173). -/
def execGatherRows (c : CoreNo) (h : CtxNo) (s : State) : Out :=
  .next (s.doGatherRows c.val h.val).settle

/-- SCATTER_ADD (R174). -/
def execScatterAdd (c : CoreNo) (h : CtxNo) (s : State) : Out :=
  .next (s.doScatterAdd c.val h.val).settle

/-- OPT_UPDATE (R175, R176). -/
def execOptUpdate (c : CoreNo) (h : CtxNo) (s : State) : Out :=
  .next (s.doOptUpdate c.val h.val).settle

/-- GATED_UPDATE_PROCEED (R176, R202). -/
def execGatedUpdateProceed (c : CoreNo) (h : CtxNo) (s : State) : Out :=
  .next (s.doGatedUpdate c.val h.val).settle

/-- SEAL (R177). -/
def execSeal (c : CoreNo) (h : CtxNo) (s : State) : Out :=
  .next (s.doSeal c.val h.val).settle

/-- CHECK_SEAL (R178). -/
def execCheckSeal (c : CoreNo) (h : CtxNo) (s : State) : Out :=
  .next (s.doCheckSeal c.val h.val).settle

/-- CHECKPOINT (R179). -/
def execCheckpoint (c : CoreNo) (h : CtxNo) (s : State) : Out :=
  .next (s.doCheckpoint c.val h.val).settle

/-- REDUCE_PUSH (R181). -/
def execReducePush (c : CoreNo) (h : CtxNo) (s : State) : Out :=
  .next (s.doReducePush c.val h.val).settle

/-- LAYER_DONE (R180). -/
def execLayerDone (c : CoreNo) (h : CtxNo) (s : State) : Out :=
  .next (s.doLayerDone c.val h.val).settle

/-- BARRIER (R182). -/
def execBarrierCmd (c : CoreNo) (h : CtxNo) (s : State) : Out :=
  .next (s.doBarrier c.val h.val).settle

/-- WAIT (R182). -/
def execWaitCmd (c : CoreNo) (h : CtxNo) (s : State) : Out :=
  .next (s.doWaitCmd c.val h.val).settle

/-- FILL (R81, R183). -/
def execFill (c : CoreNo) (h : CtxNo) (s : State) : Out :=
  .next (s.doFill c.val h.val).settle

/-- COPY (R81, R183). -/
def execCopy (c : CoreNo) (h : CtxNo) (s : State) : Out :=
  .next (s.doCopy c.val h.val).settle

/-- PATCH (R184). -/
def execPatchCmd (c : CoreNo) (h : CtxNo) (s : State) : Out :=
  .next (s.doPatchCmd c.val h.val).settle

/-- REPORT (R194). -/
def execReport (c : CoreNo) (h : CtxNo) (s : State) : Out :=
  .next (s.doReport c.val h.val).settle

end Sys2Proof.Machine
end

