-- ==== Sys2Proof/Machine/ExecFabric.lean ====
section
/-! DEFINITION. The meanings of the commands of the Ludjafa links: flits and frames, port events, transactions and routes. -/

namespace Sys2Proof.Machine

/-- FLIT (R297 to R300). -/
def execFlit (g : PortNo) (f : BitVec 2048) (marked : Bool) (s : State) : Out :=
  .next (s.doFlit g.val f.toNat marked).settle

/-- RETRY_TIMER (R299). -/
def execRetryTimer (g : PortNo) (s : State) : Out :=
  .next (s.doRetryTimer g.val).settle

/-- MAP frame (R303). -/
def execMapFrame (g : PortNo) (f : BitVec 2048) (s : State) : Out :=
  .next (s.doMapFrame g.val f.toNat).settle

/-- CONFIG frame (R304). -/
def execConfigFrame (g : PortNo) (f : BitVec 2048) (s : State) : Out :=
  .next ((s.doConfigFrame g.val f.toNat).p6Check).settle

/-- DONE frame (R304). -/
def execDoneFrame (g : PortNo) (f : BitVec 2048) (roundTripNs : Nat) (s : State) : Out :=
  .next ((s.doDoneFrame g.val f.toNat roundTripNs).p6Check).settle

/-- LIGHT_DETECTED (R302). -/
def execLightDetected (g : PortNo) (lane : Fin 9) (s : State) : Out :=
  .next (s.doLight g.val lane.val).settle

/-- LOCK_COMPLETE (R302). -/
def execLockComplete (g : PortNo) (locked : BitVec 9) (s : State) : Out :=
  .next (s.doLock g.val locked.toNat).settle

/-- MAP_PAUSE_EXPIRY (R302). -/
def execMapPauseExpiry (g : PortNo) (s : State) : Out :=
  .next (s.doPauseExpiry g.val).settle

/-- PORT_STATE_TIMEOUT (R302). -/
def execPortStateTimeout (g : PortNo) (s : State) : Out :=
  .next (s.doPortTimeout g.val).settle

/-- LANE_FAIL (R305). -/
def execLaneFail (g : PortNo) (lane : LaneReport) (s : State) : Out :=
  .next (s.doLaneFail g.val lane.lane.val lane.lost lane.marked lane.corrected lane.symbols).settle

/-- LOSS_OF_LIGHT (R302). -/
def execLossOfLight (g : PortNo) (s : State) : Out :=
  .next (s.doDark g.val).settle

/-- PORT_DISABLE: `fab.port_enable` 0 (R302). -/
def execPortDisable (o : Origin) (g : PortNo) (s : State) : Out :=
  .next (s.dictWrite o 0x5010 g.val [0#8]).settle

/-- PORT_ENABLE: `fab.port_enable` 1 (R302). -/
def execPortEnable (o : Origin) (g : PortNo) (s : State) : Out :=
  .next (s.dictWrite o 0x5010 g.val [1#8]).settle

/-- PORT_FORCE_REPAIR: `fab.port_enable` 2 (R305). -/
def execPortForceRepair (o : Origin) (g : PortNo) (s : State) : Out :=
  .next (s.dictWrite o 0x5010 g.val [2#8]).settle

/-- WRITE transaction (R308). -/
def execWrite (x : LxNo) (s : State) : Out :=
  .next (s.doTxnWrite x.val).settle

/-- READ transaction (R308). -/
def execRead (x : LxNo) (s : State) : Out :=
  .next (s.doTxnRead x.val).settle

/-- ARRIVE transaction (R308). -/
def execArriveTransaction (x : LxNo) (s : State) : Out :=
  .next (s.doTxnArrive x.val).settle

/-- GATE_VOTE transaction (R308). -/
def execGateVote (x : LxNo) (s : State) : Out :=
  .next (s.doTxnVote x.val).settle

/-- WIN_OPEN transaction (R289). -/
def execWinOpen (x : LxNo) (s : State) : Out :=
  .next (s.doTxnOpen x.val).settle

/-- WIN_CLOSE transaction (R289). -/
def execWinClose (x : LxNo) (s : State) : Out :=
  .next (s.doTxnClose x.val).settle

/-- EPOCH_QUERY transaction (R308). -/
def execEpochQuery (x : LxNo) (s : State) : Out :=
  .next (s.doTxnEpoch x.val).settle

/-- RESP transaction (R308). -/
def execResp (x : LxNo) (s : State) : Out :=
  .next (s.doTxnResp x.val 9).settle

/-- READ_DATA transaction (R308). -/
def execReadData (x : LxNo) (s : State) : Out :=
  .next (s.doTxnResp x.val 0xA).settle

/-- TRANSACTION_ABANDON (R309). -/
def execTransactionAbandon (x : LxNo) (txn : BitVec 12) (s : State) : Out :=
  .next (s.doAbandon x.val txn.toNat).settle

/-- A write of a route entry (R310). -/
def execRouteWrite (o : Origin) (dev : DeviceId) (v : W32) (s : State) : Out :=
  .next (s.dictWrite o (0x5100 + dev.val / 256) (dev.val % 256) (natLe 4 v.toNat)).settle

/-- REROUTE_HOLD_EXPIRY (R312). -/
def execRerouteHoldExpiry (dev : DeviceId) (s : State) : Out :=
  .next (s.doHoldExpiry dev.val).settle

/-- EPOCH_CACHE_EXPIRY (R314). -/
def execEpochCacheExpiry (dev : DeviceId) (s : State) : Out :=
  .next (s.doEpochExpiry dev.val).settle

end Sys2Proof.Machine
end

