-- ==== Sys2Proof/Machine/ExecHost.lean ====
section
/-! DEFINITION. The meanings of the commands of the host ports: links, flow control, queue pairs and what arrives on them. -/

namespace Sys2Proof.Machine

/-- HOST_LINK_UP (R319). -/
def execHostLinkUp (p : HostPort) (s : State) : Out :=
  .next (s.doLinkUp p.val).settle

/-- HOST_LINK_DOWN (R319). -/
def execHostLinkDown (p : HostPort) (s : State) : Out :=
  .next (s.doLinkDown p.val).settle

/-- PFC_FRAME (R317). -/
def execPfcFrame (p : HostPort) (quanta : BitVec 16) (s : State) : Out :=
  .next (s.doPfc p.val quanta.toNat).settle

/-- PFC_REFRESH (R317). -/
def execPfcRefresh (p : HostPort) (s : State) : Out :=
  .next (s.doPfcRefresh p.val).settle

/-- CNP (R318). -/
def execCnp (p : HostPort) (q : QpNo) (s : State) : Out :=
  .next (s.doCnp p.val q.val).settle

/-- CNP_RATE_RECOVERY (R318). -/
def execCnpRateRecovery (p : HostPort) (q : QpNo) (s : State) : Out :=
  .next (s.doCnpRecovery p.val q.val).settle

/-- SEND (R323 to R326). -/
def execSend (p : HostPort) (q : QpNo) (ce : Bool) (data : Bytes) (s : State) : Out :=
  .next (s.doSend p.val q.val ce data).settle

/-- RDMA_WRITE (R321). -/
def execRdmaWrite (p : HostPort) (q : QpNo) (ce : Bool) (va : W64) (rkey : W32) (data : Bytes) (s : State) : Out :=
  .next (s.doRdmaWrite p.val q.val ce va.toNat rkey.toNat data).settle

/-- RDMA_READ (R321). -/
def execRdmaRead (p : HostPort) (q : QpNo) (ce : Bool) (va : W64) (rkey : W32) (len : Nat) (s : State) : Out :=
  .next (s.doRdmaRead p.val q.val ce va.toNat rkey.toNat len).settle

/-- RDMA_READ_RESPONSE (R320, R334). -/
def execRdmaReadResponse (p : HostPort) (q : Packet) (data : Bytes) (s : State) : Out :=
  .next (s.doReadResponse p.val q.qp.val q.ce data).settle

/-- ACK (R320). -/
def execAck (p : HostPort) (q : Packet) (s : State) : Out :=
  .next (s.doAck p.val q.qp.val q.ce).settle

/-- NAK (R320). -/
def execNak (p : HostPort) (q : Packet) (s : State) : Out :=
  .next (s.doNak p.val q.qp.val q.ce).settle

/-- RNR_NAK (R316). -/
def execRnrNak (p : HostPort) (q : Packet) (s : State) : Out :=
  .next (s.doRnrNak p.val q.qp.val q.ce).settle

/-- QP_RETRANSMIT_TIMEOUT (R320). -/
def execQpRetransmitTimeout (p : HostPort) (q : QpNo) (s : State) : Out :=
  .next (s.doQpTimeout p.val q.val).settle

/-- ARP_REQUEST (R316). -/
def execArpRequest (p : HostPort) (targetIp senderIp : W32) (senderMac : BitVec 48) (s : State) : Out :=
  .next (s.doArp p.val targetIp.toNat senderIp.toNat senderMac.toNat).settle

/-- NEIGHBOUR_SOLICITATION (R316). -/
def execNeighbourSolicitation (p : HostPort) (target sender : BitVec 128) (senderMac : BitVec 48) (s : State) : Out :=
  .next (s.doNeighbour p.val target.toNat sender.toNat senderMac.toNat).settle

/-- ICMP_ECHO (R316). -/
def execIcmpEcho (p : HostPort) (v6 : Bool) (target sender : BitVec 128) (data : Bytes) (s : State) : Out :=
  .next (s.doEcho p.val v6 target.toNat sender.toNat data).settle

/-- QP_VALID_SET: a queue-pair context with VALID = 1 (R320). -/
def execQpValidSet (o : Origin) (p : HostPort) (q : QpNo) (v : BitVec 512) (s : State) : Out :=
  .next (s.dictWrite o (0x5810 + 4 * p.val + q.val / 256) (q.val % 256) (natLe 64 (setFld v.toNat 225 225 1))).settle

/-- QP_RESET: a queue-pair context with VALID = 0 (R320). -/
def execQpReset (o : Origin) (p : HostPort) (q : QpNo) (v : BitVec 512) (s : State) : Out :=
  .next (s.dictWrite o (0x5810 + 4 * p.val + q.val / 256) (q.val % 256) (natLe 64 (setFld v.toNat 225 225 0))).settle

/-- COMMIT_DOORBELL (R323). -/
def execCommitDoorbell (p : HostPort) (q : Packet) (d : Die) (r : IntakeNo) (v : W64) (s : State) : Out :=
  .next (s.doCommitDoorbell p.val q.qp.val q.ce d.val r.val v.toNat).settle

/-- COMPLETION_TAIL_WRITE (R333). -/
def execCompletionTailWrite (p : PartNo) (cl : ClientNo) (s : State) : Out :=
  .next (s.doTail p.val cl.val).settle

end Sys2Proof.Machine
end

