-- ==== Sys2Proof/Machine/ExecMemory.lean ====
section
/-! DEFINITION. The meanings of the commands of scrubbers and maintenance reads, of LPDDR5X, of translation and of windows. -/

namespace Sys2Proof.Machine

/-- SP_SCRUB_VISIT (R75). -/
def execSpScrubVisit (c : CoreNo) (s : State) : Out :=
  .next (s.doSpScrub c.val).settle

/-- TUN_SCRUB_VISIT (R75). -/
def execTunScrubVisit (d : Die) (t : Fin 16) (s : State) : Out :=
  .next (s.doTunScrub d.val t.val).settle

/-- MAINTENANCE_READ (R82). The reader's name changes nothing in what is read. -/
def execMaintenanceRead (c : CoreNo) (_byDebug : Bool) (r : MaintRead) (s : State) : Out :=
  .next (s.doMaintRead c.val r).settle

/-- REFRESH_POLL (R262, R265). -/
def execRefreshPoll (m : MxNo) (readout : Fin 6) (writeLinkErrors : List Nat) (s : State) : Out :=
  .next (s.doRefreshPoll m.val readout.val writeLinkErrors).settle

/-- WCK_OSCILLATOR (R255): the MX die adjusts its own clock timing; the spec names no state of the machine that it changes. -/
def execWckOscillator (_m : MxNo) (s : State) : Out :=
  .next s

/-- LPDDR_SCRUB_VISIT (R261). -/
def execLpddrScrubVisit (m : MxNo) (ch : Fin 8) (s : State) : Out :=
  .next (s.doLpScrub m.val ch.val).settle

/-- LPDDR_TRAINING_DONE (R256). -/
def execLpddrTrainingDone (failed : List (MxNo × Fin 8)) (ids : List W32) (s : State) : Out :=
  .next (s.doTraining (failed.map fun e => (e.1.val, e.2.val)) (ids.map BitVec.toNat)).settle

/-- ZERO_FILL_DONE (R257). -/
def execZeroFillDone (s : State) : Out :=
  .next (s.doZeroFill).settle

/-- A write of `xlate.invalidate` (R278). -/
def execInvalidate (o : Origin) (p : PartNo) (cl : ClientNo) (v : W64) (s : State) : Out :=
  .next (s.dictWrite o (0x3900 + p.val) cl.val (natLe 8 v.toNat)).settle

/-- INVALIDATE_COMPLETE (R278). -/
def execInvalidateComplete (p : PartNo) (cl : ClientNo) (s : State) : Out :=
  .next (s.finishWrite (.invalidate p.val cl.val) .ok).settle

/-- RETRY: a write of `xlate.resume` with action 0 (R280). -/
def execRetry (o : Origin) (p : PartNo) (cl : ClientNo) (v : W64) (s : State) : Out :=
  .next (s.dictWrite o (0x3A00 + p.val) cl.val (natLe 8 (setFld v.toNat 36 36 0))).settle

/-- FAIL: a write of `xlate.resume` with action 1 (R280). -/
def execFail (o : Origin) (p : PartNo) (cl : ClientNo) (v : W64) (s : State) : Out :=
  .next (s.dictWrite o (0x3A00 + p.val) cl.val (natLe 8 (setFld v.toNat 36 36 1))).settle

/-- WINDOW_OPEN: a write of `win.ctl` (R285). -/
def execWindowOpen (o : Origin) (w : WindowNo) (s : State) : Out :=
  .next (s.dictWrite o 0x3C00 0 (natLe 4 (2 ^ 30 + w.val))).settle

/-- WINDOW_CLOSE: a write of `win.ctl` (R287). -/
def execWindowClose (o : Origin) (w : WindowNo) (s : State) : Out :=
  .next (s.dictWrite o 0x3C00 0 (natLe 4 (2 ^ 31 + w.val))).settle

/-- WINDOW_CLOSE_COMPLETE (R287). -/
def execWindowCloseComplete (w : WindowNo) (s : State) : Out :=
  .next (s.doWindowClosed w.val).settle

end Sys2Proof.Machine
end

