-- ==== Sys2Proof/Machine/ExecPartitions.lean ====
section
/-! DEFINITION. The meanings of the commands of mashes and gates, the pour table, the lauter engines, partitions and shadow checks. -/

namespace Sys2Proof.Machine

/-- ARBITRATION_START (R195, R196). -/
def execArbitrationStart (p : PartNo) (stepNo mashWord : W32) (s : State) : Out :=
  .next (s.doArbitration p.val stepNo.toNat mashWord.toNat).settle

/-- A write of `gate.step` (R201). -/
def execGateStepWrite (o : Origin) (p : PartNo) (v : W32) (s : State) : Out :=
  .next (s.dictWrite o (0x9400 + p.val) 1 (natLe 4 v.toNat)).settle

/-- GATE_TIMEOUT (R200). -/
def execGateTimeout (p : PartNo) (s : State) : Out :=
  .next (s.doGateTimeout p.val).settle

/-- A write of `pour.step` (R222). -/
def execPourStepWrite (o : Origin) (p : PartNo) (v : W32) (s : State) : Out :=
  .next (s.dictWrite o (0x9500 + p.val) 0 (natLe 4 v.toNat)).settle

/-- A write of `pour.table_base` (R217). -/
def execPourTableBaseWrite (o : Origin) (v : W64) (s : State) : Out :=
  .next (s.dictWrite o 0x9000 0 (natLe 8 v.toNat)).settle

/-- FLUSH_COMPLETE (R227). -/
def execFlushComplete (p : PartNo) (s : State) : Out :=
  .next (s.doFlushComplete p.val).settle

/-- POUR_RELEASE (R222). -/
def execPourRelease (p : PartNo) (s : State) : Out :=
  .next (s.doPourRelease p.val).settle

/-- MOVE_COMPLETE (R226). -/
def execMoveComplete (p : PartNo) (s : State) : Out :=
  .next (s.doMoveComplete p.val).settle

/-- A write of `lauter.plan_commit` (R236). -/
def execPlanCommit (o : Origin) (v : W32) (s : State) : Out :=
  .next (s.dictWrite o 0x9210 0 (natLe 4 v.toNat)).settle

/-- ACCUM (R238 to R249). -/
def execAccum (m : MxNo) (s : State) : Out :=
  .next (s.doAccum m.val).settle

/-- ACCUM_RETRY (R248). -/
def execAccumRetry (m : MxNo) (s : State) : Out :=
  .next (s.doAccumRetry m.val).settle

/-- LAUTER_BLOCK_TIMEOUT (R250). -/
def execLauterBlockTimeout (m : MxNo) (block : BitVec 64) (s : State) : Out :=
  .next (s.doBlockTimeout m.val block.toNat).settle

/-- A write of `lauter.generation` (R251). -/
def execLauterGenerationWrite (o : Origin) (v : Byte) (s : State) : Out :=
  .next (s.dictWrite o 0x9210 2 (natLe 1 v.toNat)).settle

/-- BUILD: a write of 1 to `part.ctl` (R338, R339). -/
def execBuild (o : Origin) (p : PartNo) (s : State) : Out :=
  .next (s.dictWrite o (0x4000 + p.val) 2 [1#8]).settle

/-- DISSOLVE: a write of 2 to `part.ctl` (R342). -/
def execDissolve (o : Origin) (p : PartNo) (s : State) : Out :=
  .next (s.dictWrite o (0x4000 + p.val) 2 [2#8]).settle

/-- SEGMENT_ALLOCATE: KIND 1 with a partition (R340). -/
def execSegmentAllocate (o : Origin) (d : Die) (g : SegNo) (p : PartNo) (s : State) : Out :=
  .next (s.dictWrite o (0x4300 + d.val) g.val (natLe 2 (ownWord 1 0 p.val))).settle

/-- SEGMENT_FREE: KIND 0 (R340). -/
def execSegmentFree (o : Origin) (d : Die) (g : SegNo) (s : State) : Out :=
  .next (s.dictWrite o (0x4300 + d.val) g.val [0#8, 0#8]).settle

/-- SEGMENT_ZERO_FILL_DONE (R340). -/
def execSegmentZeroFillDone (d : Die) (g : SegNo) (s : State) : Out :=
  .next (s.doSegmentFilled d.val g.val).settle

/-- A write of `part.slice_ms` (R343). -/
def execSliceMsWrite (o : Origin) (p : PartNo) (cl : ClientNo) (v : BitVec 16) (s : State) : Out :=
  .next (s.dictWrite o (0x4100 + p.val) cl.val (natLe 2 v.toNat)).settle

/-- SLICE_END (R347). -/
def execSliceEnd (p : PartNo) (s : State) : Out :=
  .next (s.doSliceEnd p.val).settle

/-- SWITCH_COMPLETE (R348, R349). -/
def execSwitchComplete (p : PartNo) (s : State) : Out :=
  .next (s.doSwitchComplete p.val).settle

/-- SHADOW_START (R368). -/
def execShadowStart (p : PartNo) (k : Nat) (s : State) : Out :=
  .next (s.doShadowStart p.val k).settle

/-- SHADOW_COMPLETE (R369). -/
def execShadowComplete (p : PartNo) (k : Nat) (s : State) : Out :=
  .next (s.doShadowComplete p.val k).settle

/-- SHADOW_WINDOW_EXPIRY (R368). -/
def execShadowWindowExpiry (p : PartNo) (k : Nat) (s : State) : Out :=
  .next (s.doShadowExpiry p.val k).settle

end Sys2Proof.Machine
end

