-- ==== Sys2Proof/Machine/ExecStreams.lean ====
section
/-! DEFINITION. The meanings of the grist instructions (R105) and of the events of streams and rings, by core and
stream. -/

namespace Sys2Proof.Machine

/-- SETA (R105). -/
def execSeta (c : CoreNo) (n : StreamNo) (s : State) : Out :=
  .next (s.doPlain c.val n.val fun g => match g with | .seta .. => true | _ => false).settle

/-- ADDA, with an immediate or a register (R105). -/
def execAdda (c : CoreNo) (n : StreamNo) (s : State) : Out :=
  .next (s.doPlain c.val n.val fun g => match g with | .addaImm .. | .addaReg .. => true | _ => false).settle

/-- SETI, from an immediate or a parameter register (R105). -/
def execSeti (c : CoreNo) (n : StreamNo) (s : State) : Out :=
  .next (s.doPlain c.val n.val fun g => match g with | .setiImm .. | .setiReg .. => true | _ => false).settle

/-- LOOP (R105, R110). -/
def execLoop (c : CoreNo) (n : StreamNo) (s : State) : Out :=
  .next (s.doPlain c.val n.val fun g => match g with | .loopImm .. | .loopReg .. => true | _ => false).settle

/-- ENDL (R105, R110). -/
def execEndl (c : CoreNo) (n : StreamNo) (s : State) : Out :=
  .next (s.doPlain c.val n.val fun g => match g with | .endl .. => true | _ => false).settle

/-- LOAD (R105, R106). -/
def execLoad (c : CoreNo) (n : StreamNo) (s : State) : Out := .next (s.doLoad c.val n.val).settle

/-- STORE (R105, R106). -/
def execStore (c : CoreNo) (n : StreamNo) (s : State) : Out := .next (s.doStore c.val n.val).settle

/-- GATHER (R105, R108). -/
def execGather (c : CoreNo) (n : StreamNo) (s : State) : Out := .next (s.doGather c.val n.val).settle

/-- SCATTER (R105, R108). -/
def execScatter (c : CoreNo) (n : StreamNo) (s : State) : Out := .next (s.doScatter c.val n.val).settle

/-- EMIT (R105, R109). -/
def execEmit (c : CoreNo) (n : StreamNo) (s : State) : Out := .next (s.doEmit c.val n.val).settle

/-- TAKE (R105, R112). -/
def execTake (c : CoreNo) (n : StreamNo) (s : State) : Out := .next (s.doTake c.val n.val).settle

/-- FREE (R105). -/
def execFree (c : CoreNo) (n : StreamNo) (s : State) : Out := .next (s.doFree c.val n.val).settle

/-- WAIT (R105, R119). -/
def execGristWait (c : CoreNo) (n : StreamNo) (s : State) : Out := .next (s.doWait c.val n.val).settle

/-- ARRIVE (R105, R118). -/
def execArrive (c : CoreNo) (n : StreamNo) (s : State) : Out := .next (s.doArrive c.val n.val).settle

/-- END (R105, R111). -/
def execEndStream (c : CoreNo) (n : StreamNo) (s : State) : Out := .next (s.doEnd c.val n.val).settle

/-- STREAM_REQUEST_COMPLETE (R107). -/
def execStreamRequestComplete (c : CoreNo) (n : StreamNo) (s : State) : Out :=
  .next (s.doRequestComplete c.val n.val).settle

/-- PROBE_RESPONSE (R112). -/
def execProbeResponse (c : CoreNo) (r : RingNo) (s : State) : Out := .next (s.doProbeResponse c.val r.val).settle

/-- BARRIER_CONDITION_HOLDS (R119). -/
def execBarrierConditionHolds (c : CoreNo) (w : Waiter) (s : State) : Out := .next (s.doBarrierHolds c.val w).settle

/-- MEMORY_READ_COMPLETE (R262). -/
def execMemoryReadComplete (c : CoreNo) (n : StreamNo) (link : LinkRead) (s : State) : Out :=
  .next (s.doMemoryRead c.val n.val link.fails.val link.corrected).settle

/-- GENERATION_INCREMENT (R264). -/
def execGenerationIncrement (m : MxNo) (s : State) : Out := .next (s.doIncrement m.val).settle

/-- GENERATION_PROBE (R112, R264). -/
def execGenerationProbe (c : CoreNo) (r : RingNo) (s : State) : Out := .next (s.doProbe c.val r.val).settle

/-- WALK_COMPLETE (R277, R279). -/
def execWalkComplete (c : CoreNo) (n : StreamNo) (s : State) : Out := .next (s.doWalk c.val n.val).settle

end Sys2Proof.Machine
end

