-- ==== Sys2Proof/Machine/ExecSystem.lean ====
section
/-! DEFINITION. The meanings of the commands of kiln, of clocks and power, of the management dies and of start-up. -/

namespace Sys2Proof.Machine

/-- KILN_DUE (R385). -/
def execKilnDue (d : Die) (isSegment : Bool) (k : PosNo) (s : State) : Out :=
  .next (s.doKilnDue d.val isSegment k.val).settle

/-- KILN_FORCE (R386). -/
def execKilnForce (d : Die) (x : PosNo) (s : State) : Out :=
  .next (s.doKilnForce d.val x.val).settle

/-- KILN_SLICE (R380). -/
def execKilnSlice (d : Die) (x : PosNo) (s : State) : Out :=
  .next (s.doKilnSlice d.val x.val).settle

/-- KILN_SLICE_DONE (R380). -/
def execKilnSliceDone (d : Die) (x : PosNo) (r : BistResult) (s : State) : Out :=
  .next (((s.doKilnSliceDone d.val x.val r).opUpdate d.val).p5Check.dbgRetry).settle

/-- SEGMENT_TEST (R383). -/
def execSegmentTest (d : Die) (g : SegNo) (badRows : List (Fin 16 × Nat)) (s : State) : Out :=
  .next ((s.doSegmentTest d.val g.val badRows).p5Check.dbgRetry).settle

/-- SEGMENT_TEST_RETRY (R383). -/
def execSegmentTestRetry (d : Die) (g : SegNo) (s : State) : Out :=
  .next ((s.doSegmentRetry d.val g.val).dbgRetry).settle

/-- DIE_CHECK (R379). -/
def execDieCheck (u : PanelDie) (pllOk monitorOk : Bool) (s : State) : Out :=
  .next ((s.doDieCheck (unitOf u) (pllOk && monitorOk)).p5Check).settle

/-- LANE_LOOPBACK (R379). -/
def execLaneLoopback (x : LxNo) (slice : Fin 68) (ok : Bool) (s : State) : Out :=
  .next ((s.doLoopback x.val slice.val ok).p5Check).settle

/-- KILN_REQUEST_CORE (R388). -/
def execKilnRequestCore (o : Origin) (d : Die) (k : Byte) (force : Bool) (s : State) : Out :=
  .next (s.dictWrite o 0x6800 3 (natLe 4 (1 <<< 28 + d.val <<< 22 + k.toNat <<< 14 + b2n force <<< 13))).settle

/-- KILN_REQUEST_SEGMENT (R388). -/
def execKilnRequestSegment (o : Origin) (d : Die) (k : Byte) (s : State) : Out :=
  .next (s.dictWrite o 0x6800 3 (natLe 4 (2 <<< 28 + d.val <<< 22 + k.toNat <<< 14))).settle

/-- KILN_REQUEST_DIE_CHECK (R388). -/
def execKilnRequestDieCheck (o : Origin) (d : Die) (s : State) : Out :=
  .next (s.dictWrite o 0x6800 3 (natLe 4 (3 <<< 28 + d.val <<< 22))).settle

/-- KILN_REQUEST_PORT (R388). -/
def execKilnRequestPort (o : Origin) (x : LxNo) (k : Fin 8) (s : State) : Out :=
  .next (s.dictWrite o 0x6800 3 (natLe 4 (4 <<< 28 + x.val <<< 22 + k.val <<< 14))).settle

/-- REF_LOSS (R396, R397). -/
def execRefLoss (s : State) : Out :=
  .next (s.doRefLoss).settle

/-- CANDIDATE_COUNT_DONE (R397, R398). -/
def execCandidateCountDone (p : HostPort) (count : Nat) (s : State) : Out :=
  .next (s.doCandidate p.val count).settle

/-- PLL_STABLE (R394). -/
def execPllStable (u : PanelDie) (s : State) : Out :=
  .next (s.doPllStable (unitOf u)).settle

/-- PLL_LOCK_TIMEOUT (R394). -/
def execPllLockTimeout (u : PanelDie) (s : State) : Out :=
  .next (s.doPllTimeout (unitOf u)).settle

/-- HOLDOVER_EXPIRY (R397). -/
def execHoldoverExpiry (s : State) : Out :=
  .next (s.doHoldover).settle

/-- A write of `clk.ref_ctl` (R398). -/
def execRefCtlWrite (o : Origin) (n : Byte) (s : State) : Out :=
  .next (s.dictWrite o 0x2000 2 [n]).settle

/-- A write of `pwr.op_target` (R401). -/
def execOpTargetWrite (o : Origin) (d : Die) (v : Byte) (s : State) : Out :=
  .next (s.dictWrite o 0x2010 d.val [v]).settle

/-- VOLTAGE_SETTLED (R401). -/
def execVoltageSettled (d : Die) (s : State) : Out :=
  .next (s.doSettled d.val).settle

/-- GOVERNOR_WINDOW (R406). -/
def execGovernorWindow (s : State) : Out :=
  .next (s.doWindow).settle

/-- THERMAL_SAMPLE (R404). -/
def execThermalSample (u : PanelDie) (deciC : Int) (s : State) : Out :=
  .next (s.doThermal (unitOf u) deciC).settle

/-- GROUP_GATE (R405). -/
def execGroupGate (d : Die) (g : Fin 16) (s : State) : Out :=
  .next (s.doGate d.val g.val).settle

/-- HEARTBEAT (R409). -/
def execHeartbeat (s : State) : Out :=
  .next (s.doHeartbeat).settle

/-- KD_TAKEOVER (R409). -/
def execKdTakeover (s : State) : Out :=
  .next (s.doTakeover).settle

/-- MOD_RESET (R414). -/
def execModReset (s : State) : Out :=
  .next (s.doModReset).settle

/-- STBY_EN_LOW (R414, R416). -/
def execStbyEnLow (s : State) : Out :=
  .next (s.doStbyLow).settle

/-- STANDBY_APPLIED (R395, R410). -/
def execStandbyApplied (s : State) : Out :=
  .next (s.doStandbyOn).settle

/-- STANDBY_LOSS (R416). -/
def execStandbyLoss (s : State) : Out :=
  .next (s.doStandbyLoss).settle

/-- BOOT_RESET: `boot.ctl` 1 (R414). -/
def execBootReset (o : Origin) (s : State) : Out :=
  .next (s.dictWrite o 0x2030 1 [1#8]).settle

/-- BOOT_SHUTDOWN: `boot.ctl` 2 (R415). -/
def execBootShutdown (o : Origin) (s : State) : Out :=
  .next (s.dictWrite o 0x2030 1 [2#8]).settle

/-- PHASE_TIMEOUT (R410). -/
def execPhaseTimeout (s : State) : Out :=
  .next (s.doPhaseTimeout).settle

/-- DIE_RAMP_DONE (R411). -/
def execDieRampDone (u : PanelDie) (s : State) : Out :=
  .next (s.doRampDone (unitOf u)).settle

/-- DIE_RAMP_TIMEOUT (R411). -/
def execDieRampTimeout (u : PanelDie) (s : State) : Out :=
  .next (s.doRampTimeout (unitOf u)).settle

/-- MOD_RESET_RELEASE (R410). -/
def execModResetRelease (s : State) : Out :=
  .next (s.doRelease).settle

/-- STBY_EN_HIGH (R410). -/
def execStbyEnHigh (s : State) : Out :=
  .next (s.doStbyHigh).settle

/-- INPUT_SAMPLE (R468 to R470): a sample of the 48 V input and its current. -/
def execInputSample (milliV milliA : Int) (s : State) : Out :=
  match s.doInput milliV milliA with
  | .next s => .next s.settle
  | r => r

end Sys2Proof.Machine
end

