-- ==== Sys2Proof/Machine/ExecTrust.lean ====
section
/-! DEFINITION. The meanings of the commands of firmware and attestation, of the TAP and the debug port, and of Caddy. -/

namespace Sys2Proof.Machine

/-- FIRMWARE_VERIFY_DONE (R423, R424, R426). -/
def execFirmwareVerifyDone (k : Fin 2) (s : State) : Out :=
  .next (s.doVerifyDone k.val).settle

/-- FW_STAGE_WRITE (R426 step 1). -/
def execFwStageWrite (o : Origin) (chunk : Nat) (data : Bytes) (s : State) : Out :=
  .next (s.dictWrite o (0x7100 + min (chunk / 256) 0x30) (chunk % 256) data).settle

/-- FW_VERIFY: `fw.ctl` 1 (R426). -/
def execFwVerify (o : Origin) (s : State) : Out :=
  .next (s.dictWrite o 0x7000 1 [1#8]).settle

/-- FW_ARM: `fw.ctl` 2 (R426). -/
def execFwArm (o : Origin) (s : State) : Out :=
  .next (s.dictWrite o 0x7000 1 [2#8]).settle

/-- FW_COMMIT: `fw.ctl` 3 (R426). -/
def execFwCommit (o : Origin) (s : State) : Out :=
  .next (s.dictWrite o 0x7000 1 [3#8]).settle

/-- FW_REVERT: `fw.ctl` 4 (R426). -/
def execFwRevert (o : Origin) (s : State) : Out :=
  .next (s.dictWrite o 0x7000 1 [4#8]).settle

/-- A write of `trust.attest_nonce` (R431). -/
def execAttestNonceWrite (o : Origin) (nonce : BitVec 256) (s : State) : Out :=
  .next (s.dictWrite o 0x7011 0 (natLe 32 nonce.toNat)).settle

/-- ATTEST_REPORT_READY (R431). -/
def execAttestReportReady (s : State) : Out :=
  .next (s.doReportReady).settle

/-- A write of a principal slot (R430). -/
def execPrincipalWrite (o : Origin) (slot : Fin 16) (v : BitVec 640) (s : State) : Out :=
  .next (s.dictWrite o 0x7020 slot.val (natLe 80 v.toNat)).settle

/-- IDCODE (R433). -/
def execIdcode (s : State) : Out :=
  .next (s.doIdcode).settle

/-- EXTEST (R433). -/
def execExtest (s : State) : Out :=
  .next (s.doBoundary 0x00).settle

/-- SAMPLE/PRELOAD (R433). -/
def execSamplePreload (s : State) : Out :=
  .next (s.doBoundary 0x02).settle

/-- BYPASS (R433). -/
def execBypass (s : State) : Out :=
  .next (s.doBypass).settle

/-- TAP_RESET (R433, R436). -/
def execTapReset (s : State) : Out :=
  .next (s.doTapReset).settle

/-- DBG_XFER (R433). -/
def execDbgXfer (s : State) : Out :=
  .next (s.doDbgXfer).settle

/-- NOP (R434, R435). -/
def execDbgNop (_seq : Byte) (s : State) : Out :=
  .next (s.doDbgNop).settle

/-- CHALLENGE (R435, R436). -/
def execChallenge (seq : Byte) (arg : BitVec 48) (data : W64) (s : State) : Out :=
  .next (s.doChallenge seq.toNat arg.toNat data.toNat).settle

/-- RESPOND (R435, R436). -/
def execRespond (seq : Byte) (arg : BitVec 48) (data : W64) (s : State) : Out :=
  .next (s.doRespond seq.toNat arg.toNat data.toNat).settle

/-- LOCK (R435, R436). -/
def execLock (seq : Byte) (arg : BitVec 48) (data : W64) (s : State) : Out :=
  .next (s.doDbgLock seq.toNat arg.toNat data.toNat).settle

/-- HALT (R435, R437). -/
def execHalt (seq : Byte) (arg : BitVec 48) (data : W64) (s : State) : Out :=
  .next (s.doHalt seq.toNat arg.toNat data.toNat).settle

/-- HALT_EFFECT (R437). -/
def execHaltEffect (c : CoreNo) (h : CtxNo) (s : State) : Out :=
  .next (s.doHaltEffect c.val h.val).settle

/-- RESUME (R435, R437). -/
def execResume (seq : Byte) (arg : BitVec 48) (data : W64) (s : State) : Out :=
  .next (s.doDbgResume seq.toNat arg.toNat data.toNat).settle

/-- STEP (R435, R437). -/
def execStepCtx (seq : Byte) (arg : BitVec 48) (data : W64) (s : State) : Out :=
  .next (s.doStep seq.toNat arg.toNat data.toNat).settle

/-- CTX_READ (R435). -/
def execCtxRead (seq : Byte) (arg : BitVec 48) (data : W64) (s : State) : Out :=
  .next (s.doCtxRead seq.toNat arg.toNat data.toNat).settle

/-- BREAK_SET (R435). -/
def execBreakSet (seq : Byte) (arg : BitVec 48) (data : W64) (s : State) : Out :=
  .next (s.doBreakSet seq.toNat arg.toNat data.toNat).settle

/-- BREAK_CLEAR (R435). -/
def execBreakClear (seq : Byte) (arg : BitVec 48) (data : W64) (s : State) : Out :=
  .next (s.doBreakClear seq.toNat arg.toNat data.toNat).settle

/-- MEM_READ (R435, R438). -/
def execMemRead (seq : Byte) (arg : BitVec 48) (data : W64) (s : State) : Out :=
  .next (s.doMemRead seq.toNat arg.toNat data.toNat).settle

/-- MEM_WRITE (R435, R438). -/
def execMemWrite (seq : Byte) (arg : BitVec 48) (data : W64) (s : State) : Out :=
  .next (s.doMemWrite seq.toNat arg.toNat data.toNat).settle

/-- DICT_READ (R435). -/
def execDictRead (seq : Byte) (arg : BitVec 48) (data : W64) (s : State) : Out :=
  .next (s.doDictRead seq.toNat arg.toNat data.toNat).settle

/-- DICT_STAGE (R435). -/
def execDictStage (seq : Byte) (arg : BitVec 48) (data : W64) (s : State) : Out :=
  .next (s.doDictStage seq.toNat arg.toNat data.toNat).settle

/-- DICT_WRITE (R435). -/
def execDictWrite (seq : Byte) (arg : BitVec 48) (data : W64) (s : State) : Out :=
  .next (s.doDictWrite seq.toNat arg.toNat data.toNat).settle

/-- DEBUG_IDLE_EXPIRY (R436). -/
def execDebugIdleExpiry (s : State) : Out :=
  .next (s.doDebugIdle).settle

/-- HELLO (R451). -/
def execHello (t : Tuple) (msg : Bytes) (s : State) : Out :=
  .next (s.doHello t msg).settle

/-- OPEN (R451, R452). -/
def execOpenSession (t : Tuple) (msg : Bytes) (s : State) : Out :=
  .next (s.doOpen t msg).settle

/-- CLOSE (R452). -/
def execClose (t : Tuple) (msg : Bytes) (s : State) : Out :=
  .next (s.doClose t msg).settle

/-- READ (R454). -/
def execCaddyRead (t : Tuple) (msg : Bytes) (s : State) : Out :=
  .next (s.doCaddyRead t msg).settle

/-- WRITE (R454, R455). -/
def execCaddyWrite (t : Tuple) (msg : Bytes) (s : State) : Out :=
  .next (s.doCaddyWrite t msg).settle

/-- READ_BLOCK (R456). -/
def execReadBlock (t : Tuple) (msg : Bytes) (s : State) : Out :=
  .next (s.doReadBlock t msg).settle

/-- WRITE_BLOCK (R456). -/
def execWriteBlock (t : Tuple) (msg : Bytes) (s : State) : Out :=
  .next (s.doWriteBlock t msg).settle

/-- NOTIFY acknowledgement (R458). -/
def execNotify (t : Tuple) (msg : Bytes) (s : State) : Out :=
  .next (s.doNotify t msg).settle

/-- NOTIFY_RESEND (R458). -/
def execNotifyResend (session : W32) (s : State) : Out :=
  .next (s.doNotifyResend session.toNat).settle

/-- SESSION_IDLE_EXPIRY (R452). -/
def execSessionIdleExpiry (session : W32) (s : State) : Out :=
  .next (s.doIdleExpiry session.toNat).settle

/-- HALF_OPEN_EXPIRY (R451). -/
def execHalfOpenExpiry (session : W32) (s : State) : Out :=
  .next (s.doHalfOpenExpiry session.toNat).settle

/-- A write of `sticky.clear` (R464). -/
def execStickyClear (o : Origin) (mask : W256) (s : State) : Out :=
  .next (s.dictWrite o 0x1100 0x11 (natLe 32 mask.toNat)).settle

/-- A write of `audit.annotate` (R463). -/
def execAnnotate (o : Origin) (v : BitVec 128) (s : State) : Out :=
  .next (s.dictWrite o 0x1100 1 (natLe 16 v.toNat)).settle

/-- REGISTER_WRITE: a write of any dictionary entry (R443). -/
def execRegisterWrite (o : Origin) (index : BitVec 16) (sub : Byte) (value : Bytes) (s : State) : Out :=
  .next (s.dictWrite o index.toNat sub.toNat value).settle

end Sys2Proof.Machine
end

