-- ==== Sys2Proof/Machine/Dispatch.lean ====
section
/-! DEFINITION. The meaning of a command: one arm for each constructor, each a call of one definition. -/

namespace Sys2Proof.Machine

def exec (i : Instr) (s : State) : Host.Outcome State Fault Refusal :=
  match i with
  | .seta c n => Sys2Proof.Machine.execSeta c n s
  | .adda c n => Sys2Proof.Machine.execAdda c n s
  | .seti c n => Sys2Proof.Machine.execSeti c n s
  | .loop c n => Sys2Proof.Machine.execLoop c n s
  | .endl c n => Sys2Proof.Machine.execEndl c n s
  | .load c n => Sys2Proof.Machine.execLoad c n s
  | .store c n => Sys2Proof.Machine.execStore c n s
  | .gather c n => Sys2Proof.Machine.execGather c n s
  | .scatter c n => Sys2Proof.Machine.execScatter c n s
  | .emit c n => Sys2Proof.Machine.execEmit c n s
  | .take c n => Sys2Proof.Machine.execTake c n s
  | .free c n => Sys2Proof.Machine.execFree c n s
  | .gristWait c n => Sys2Proof.Machine.execGristWait c n s
  | .arrive c n => Sys2Proof.Machine.execArrive c n s
  | .endStream c n => Sys2Proof.Machine.execEndStream c n s
  | .streamRequestComplete c n => Sys2Proof.Machine.execStreamRequestComplete c n s
  | .probeResponse c r => Sys2Proof.Machine.execProbeResponse c r s
  | .barrierConditionHolds c w => Sys2Proof.Machine.execBarrierConditionHolds c w s
  | .kStepEnter c => Sys2Proof.Machine.execKStepEnter c s
  | .arrayContinue c => Sys2Proof.Machine.execArrayContinue c s
  | .spScrubVisit c => Sys2Proof.Machine.execSpScrubVisit c s
  | .tunScrubVisit d t => Sys2Proof.Machine.execTunScrubVisit d t s
  | .maintenanceRead c byDebug r => Sys2Proof.Machine.execMaintenanceRead c byDebug r s
  | .loadRequest d r => Sys2Proof.Machine.execLoadRequest d r s
  | .recipeHeaderFetched c h => Sys2Proof.Machine.execRecipeHeaderFetched c h s
  | .recipeImageFetched c h => Sys2Proof.Machine.execRecipeImageFetched c h s
  | .start d r => Sys2Proof.Machine.execStart d r s
  | .abort d r => Sys2Proof.Machine.execAbort d r s
  | .patchRequest d r => Sys2Proof.Machine.execPatchRequest d r s
  | .unload d r => Sys2Proof.Machine.execUnload d r s
  | .commandComplete c h => Sys2Proof.Machine.execCommandComplete c h s
  | .preemptionTaken c h => Sys2Proof.Machine.execPreemptionTaken c h s
  | .matmul c h => Sys2Proof.Machine.execMatmul c h s
  | .matmulT c h => Sys2Proof.Machine.execMatmulT c h s
  | .gradW c h => Sys2Proof.Machine.execGradW c h s
  | .elemwise c h => Sys2Proof.Machine.execElemwise c h s
  | .rownormFwd c h => Sys2Proof.Machine.execRownormFwd c h s
  | .rownormBwd c h => Sys2Proof.Machine.execRownormBwd c h s
  | .softmaxFwd c h => Sys2Proof.Machine.execSoftmaxFwd c h s
  | .softmaxBwd c h => Sys2Proof.Machine.execSoftmaxBwd c h s
  | .attnBlockFwd c h => Sys2Proof.Machine.execAttnBlockFwd c h s
  | .attnBlockBwd c h => Sys2Proof.Machine.execAttnBlockBwd c h s
  | .rope c h => Sys2Proof.Machine.execRope c h s
  | .kvAppend c h => Sys2Proof.Machine.execKvAppend c h s
  | .maskpack c h => Sys2Proof.Machine.execMaskpack c h s
  | .rngMask c h => Sys2Proof.Machine.execRngMask c h s
  | .castMx c h => Sys2Proof.Machine.execCastMx c h s
  | .gatherRows c h => Sys2Proof.Machine.execGatherRows c h s
  | .scatterAdd c h => Sys2Proof.Machine.execScatterAdd c h s
  | .optUpdate c h => Sys2Proof.Machine.execOptUpdate c h s
  | .gatedUpdateProceed c h => Sys2Proof.Machine.execGatedUpdateProceed c h s
  | .seal c h => Sys2Proof.Machine.execSeal c h s
  | .checkSeal c h => Sys2Proof.Machine.execCheckSeal c h s
  | .checkpoint c h => Sys2Proof.Machine.execCheckpoint c h s
  | .reducePush c h => Sys2Proof.Machine.execReducePush c h s
  | .layerDone c h => Sys2Proof.Machine.execLayerDone c h s
  | .barrierCmd c h => Sys2Proof.Machine.execBarrierCmd c h s
  | .waitCmd c h => Sys2Proof.Machine.execWaitCmd c h s
  | .fill c h => Sys2Proof.Machine.execFill c h s
  | .copy c h => Sys2Proof.Machine.execCopy c h s
  | .patchCmd c h => Sys2Proof.Machine.execPatchCmd c h s
  | .report c h => Sys2Proof.Machine.execReport c h s
  | .arbitrationStart p stepNo mashWord => Sys2Proof.Machine.execArbitrationStart p stepNo mashWord s
  | .gateStepWrite o p v => Sys2Proof.Machine.execGateStepWrite o p v s
  | .gateTimeout p => Sys2Proof.Machine.execGateTimeout p s
  | .pourStepWrite o p v => Sys2Proof.Machine.execPourStepWrite o p v s
  | .pourTableBaseWrite o v => Sys2Proof.Machine.execPourTableBaseWrite o v s
  | .flushComplete p => Sys2Proof.Machine.execFlushComplete p s
  | .pourRelease p => Sys2Proof.Machine.execPourRelease p s
  | .moveComplete p => Sys2Proof.Machine.execMoveComplete p s
  | .planCommit o v => Sys2Proof.Machine.execPlanCommit o v s
  | .accum m => Sys2Proof.Machine.execAccum m s
  | .accumRetry m => Sys2Proof.Machine.execAccumRetry m s
  | .lauterBlockTimeout m block => Sys2Proof.Machine.execLauterBlockTimeout m block s
  | .lauterGenerationWrite o v => Sys2Proof.Machine.execLauterGenerationWrite o v s
  | .refreshPoll m readout writeLinkErrors => Sys2Proof.Machine.execRefreshPoll m readout writeLinkErrors s
  | .wckOscillator m => Sys2Proof.Machine.execWckOscillator m s
  | .lpddrScrubVisit m ch => Sys2Proof.Machine.execLpddrScrubVisit m ch s
  | .memoryReadComplete c n link => Sys2Proof.Machine.execMemoryReadComplete c n link s
  | .generationIncrement m => Sys2Proof.Machine.execGenerationIncrement m s
  | .generationProbe c r => Sys2Proof.Machine.execGenerationProbe c r s
  | .lpddrTrainingDone failed ids => Sys2Proof.Machine.execLpddrTrainingDone failed ids s
  | .zeroFillDone => Sys2Proof.Machine.execZeroFillDone  s
  | .walkComplete c n => Sys2Proof.Machine.execWalkComplete c n s
  | .invalidate o p cl v => Sys2Proof.Machine.execInvalidate o p cl v s
  | .invalidateComplete p cl => Sys2Proof.Machine.execInvalidateComplete p cl s
  | .retry o p cl v => Sys2Proof.Machine.execRetry o p cl v s
  | .fail o p cl v => Sys2Proof.Machine.execFail o p cl v s
  | .windowOpen o w => Sys2Proof.Machine.execWindowOpen o w s
  | .windowClose o w => Sys2Proof.Machine.execWindowClose o w s
  | .windowCloseComplete w => Sys2Proof.Machine.execWindowCloseComplete w s
  | .flit g f marked => Sys2Proof.Machine.execFlit g f marked s
  | .retryTimer g => Sys2Proof.Machine.execRetryTimer g s
  | .mapFrame g f => Sys2Proof.Machine.execMapFrame g f s
  | .configFrame g f => Sys2Proof.Machine.execConfigFrame g f s
  | .doneFrame g f roundTripNs => Sys2Proof.Machine.execDoneFrame g f roundTripNs s
  | .lightDetected g lane => Sys2Proof.Machine.execLightDetected g lane s
  | .lockComplete g locked => Sys2Proof.Machine.execLockComplete g locked s
  | .mapPauseExpiry g => Sys2Proof.Machine.execMapPauseExpiry g s
  | .portStateTimeout g => Sys2Proof.Machine.execPortStateTimeout g s
  | .laneFail g lane => Sys2Proof.Machine.execLaneFail g lane s
  | .lossOfLight g => Sys2Proof.Machine.execLossOfLight g s
  | .portDisable o g => Sys2Proof.Machine.execPortDisable o g s
  | .portEnable o g => Sys2Proof.Machine.execPortEnable o g s
  | .portForceRepair o g => Sys2Proof.Machine.execPortForceRepair o g s
  | .write x => Sys2Proof.Machine.execWrite x s
  | .read x => Sys2Proof.Machine.execRead x s
  | .arriveTransaction x => Sys2Proof.Machine.execArriveTransaction x s
  | .gateVote x => Sys2Proof.Machine.execGateVote x s
  | .winOpen x => Sys2Proof.Machine.execWinOpen x s
  | .winClose x => Sys2Proof.Machine.execWinClose x s
  | .epochQuery x => Sys2Proof.Machine.execEpochQuery x s
  | .resp x => Sys2Proof.Machine.execResp x s
  | .readData x => Sys2Proof.Machine.execReadData x s
  | .transactionAbandon x txn => Sys2Proof.Machine.execTransactionAbandon x txn s
  | .routeWrite o dev v => Sys2Proof.Machine.execRouteWrite o dev v s
  | .rerouteHoldExpiry dev => Sys2Proof.Machine.execRerouteHoldExpiry dev s
  | .epochCacheExpiry dev => Sys2Proof.Machine.execEpochCacheExpiry dev s
  | .hostLinkUp p => Sys2Proof.Machine.execHostLinkUp p s
  | .hostLinkDown p => Sys2Proof.Machine.execHostLinkDown p s
  | .pfcFrame p quanta => Sys2Proof.Machine.execPfcFrame p quanta s
  | .pfcRefresh p => Sys2Proof.Machine.execPfcRefresh p s
  | .cnp p q => Sys2Proof.Machine.execCnp p q s
  | .cnpRateRecovery p q => Sys2Proof.Machine.execCnpRateRecovery p q s
  | .send p q ce data => Sys2Proof.Machine.execSend p q ce data s
  | .rdmaWrite p q ce va rkey data => Sys2Proof.Machine.execRdmaWrite p q ce va rkey data s
  | .rdmaRead p q ce va rkey len => Sys2Proof.Machine.execRdmaRead p q ce va rkey len s
  | .rdmaReadResponse p q data => Sys2Proof.Machine.execRdmaReadResponse p q data s
  | .ack p q => Sys2Proof.Machine.execAck p q s
  | .nak p q => Sys2Proof.Machine.execNak p q s
  | .rnrNak p q => Sys2Proof.Machine.execRnrNak p q s
  | .qpRetransmitTimeout p q => Sys2Proof.Machine.execQpRetransmitTimeout p q s
  | .arpRequest p targetIp senderIp senderMac => Sys2Proof.Machine.execArpRequest p targetIp senderIp senderMac s
  | .neighbourSolicitation p target sender senderMac => Sys2Proof.Machine.execNeighbourSolicitation p target sender senderMac s
  | .icmpEcho p v6 target sender data => Sys2Proof.Machine.execIcmpEcho p v6 target sender data s
  | .qpValidSet o p q v => Sys2Proof.Machine.execQpValidSet o p q v s
  | .qpReset o p q v => Sys2Proof.Machine.execQpReset o p q v s
  | .commitDoorbell p q d r v => Sys2Proof.Machine.execCommitDoorbell p q d r v s
  | .completionTailWrite p cl => Sys2Proof.Machine.execCompletionTailWrite p cl s
  | .build o p => Sys2Proof.Machine.execBuild o p s
  | .dissolve o p => Sys2Proof.Machine.execDissolve o p s
  | .segmentAllocate o d sg p => Sys2Proof.Machine.execSegmentAllocate o d sg p s
  | .segmentFree o d sg => Sys2Proof.Machine.execSegmentFree o d sg s
  | .sliceMsWrite o p cl v => Sys2Proof.Machine.execSliceMsWrite o p cl v s
  | .sliceEnd p => Sys2Proof.Machine.execSliceEnd p s
  | .switchComplete p => Sys2Proof.Machine.execSwitchComplete p s
  | .shadowStart p k => Sys2Proof.Machine.execShadowStart p k s
  | .shadowComplete p k => Sys2Proof.Machine.execShadowComplete p k s
  | .shadowWindowExpiry p k => Sys2Proof.Machine.execShadowWindowExpiry p k s
  | .kilnDue d isSegment k => Sys2Proof.Machine.execKilnDue d isSegment k s
  | .kilnForce d x => Sys2Proof.Machine.execKilnForce d x s
  | .kilnSlice d x => Sys2Proof.Machine.execKilnSlice d x s
  | .kilnSliceDone d x r => Sys2Proof.Machine.execKilnSliceDone d x r s
  | .segmentTest d sg badRows => Sys2Proof.Machine.execSegmentTest d sg badRows s
  | .segmentTestRetry d sg => Sys2Proof.Machine.execSegmentTestRetry d sg s
  | .dieCheck u pllOk monitorOk => Sys2Proof.Machine.execDieCheck u pllOk monitorOk s
  | .laneLoopback x slice ok => Sys2Proof.Machine.execLaneLoopback x slice ok s
  | .kilnRequestCore o d k force => Sys2Proof.Machine.execKilnRequestCore o d k force s
  | .kilnRequestSegment o d k => Sys2Proof.Machine.execKilnRequestSegment o d k s
  | .kilnRequestDieCheck o d => Sys2Proof.Machine.execKilnRequestDieCheck o d s
  | .kilnRequestPort o x k => Sys2Proof.Machine.execKilnRequestPort o x k s
  | .refLoss => Sys2Proof.Machine.execRefLoss  s
  | .candidateCountDone p count => Sys2Proof.Machine.execCandidateCountDone p count s
  | .pllStable u => Sys2Proof.Machine.execPllStable u s
  | .pllLockTimeout u => Sys2Proof.Machine.execPllLockTimeout u s
  | .holdoverExpiry => Sys2Proof.Machine.execHoldoverExpiry  s
  | .refCtlWrite o n => Sys2Proof.Machine.execRefCtlWrite o n s
  | .opTargetWrite o d v => Sys2Proof.Machine.execOpTargetWrite o d v s
  | .voltageSettled d => Sys2Proof.Machine.execVoltageSettled d s
  | .governorWindow => Sys2Proof.Machine.execGovernorWindow  s
  | .thermalSample u deciC => Sys2Proof.Machine.execThermalSample u deciC s
  | .groupGate d g => Sys2Proof.Machine.execGroupGate d g s
  | .inputSample milliV milliA => Sys2Proof.Machine.execInputSample milliV milliA s
  | .heartbeat => Sys2Proof.Machine.execHeartbeat  s
  | .kdTakeover => Sys2Proof.Machine.execKdTakeover  s
  | .modReset => Sys2Proof.Machine.execModReset  s
  | .stbyEnLow => Sys2Proof.Machine.execStbyEnLow  s
  | .standbyApplied => Sys2Proof.Machine.execStandbyApplied  s
  | .standbyLoss => Sys2Proof.Machine.execStandbyLoss  s
  | .bootReset o => Sys2Proof.Machine.execBootReset o s
  | .bootShutdown o => Sys2Proof.Machine.execBootShutdown o s
  | .phaseTimeout => Sys2Proof.Machine.execPhaseTimeout  s
  | .dieRampDone u => Sys2Proof.Machine.execDieRampDone u s
  | .dieRampTimeout u => Sys2Proof.Machine.execDieRampTimeout u s
  | .firmwareVerifyDone k => Sys2Proof.Machine.execFirmwareVerifyDone k s
  | .fwStageWrite o chunk data => Sys2Proof.Machine.execFwStageWrite o chunk data s
  | .fwVerify o => Sys2Proof.Machine.execFwVerify o s
  | .fwArm o => Sys2Proof.Machine.execFwArm o s
  | .fwCommit o => Sys2Proof.Machine.execFwCommit o s
  | .fwRevert o => Sys2Proof.Machine.execFwRevert o s
  | .attestNonceWrite o nonce => Sys2Proof.Machine.execAttestNonceWrite o nonce s
  | .attestReportReady => Sys2Proof.Machine.execAttestReportReady  s
  | .principalWrite o slot v => Sys2Proof.Machine.execPrincipalWrite o slot v s
  | .idcode => Sys2Proof.Machine.execIdcode  s
  | .extest => Sys2Proof.Machine.execExtest  s
  | .samplePreload => Sys2Proof.Machine.execSamplePreload  s
  | .bypass => Sys2Proof.Machine.execBypass  s
  | .tapReset => Sys2Proof.Machine.execTapReset  s
  | .dbgNop seq => Sys2Proof.Machine.execDbgNop seq s
  | .challenge seq arg data => Sys2Proof.Machine.execChallenge seq arg data s
  | .respond seq arg data => Sys2Proof.Machine.execRespond seq arg data s
  | .lock seq arg data => Sys2Proof.Machine.execLock seq arg data s
  | .halt seq arg data => Sys2Proof.Machine.execHalt seq arg data s
  | .haltEffect c h => Sys2Proof.Machine.execHaltEffect c h s
  | .resume seq arg data => Sys2Proof.Machine.execResume seq arg data s
  | .stepCtx seq arg data => Sys2Proof.Machine.execStepCtx seq arg data s
  | .ctxRead seq arg data => Sys2Proof.Machine.execCtxRead seq arg data s
  | .breakSet seq arg data => Sys2Proof.Machine.execBreakSet seq arg data s
  | .breakClear seq arg data => Sys2Proof.Machine.execBreakClear seq arg data s
  | .memRead seq arg data => Sys2Proof.Machine.execMemRead seq arg data s
  | .memWrite seq arg data => Sys2Proof.Machine.execMemWrite seq arg data s
  | .dictRead seq arg data => Sys2Proof.Machine.execDictRead seq arg data s
  | .dictStage seq arg data => Sys2Proof.Machine.execDictStage seq arg data s
  | .dictWrite seq arg data => Sys2Proof.Machine.execDictWrite seq arg data s
  | .debugIdleExpiry => Sys2Proof.Machine.execDebugIdleExpiry  s
  | .hello t msg => Sys2Proof.Machine.execHello t msg s
  | .openSession t msg => Sys2Proof.Machine.execOpenSession t msg s
  | .close t msg => Sys2Proof.Machine.execClose t msg s
  | .caddyRead t msg => Sys2Proof.Machine.execCaddyRead t msg s
  | .caddyWrite t msg => Sys2Proof.Machine.execCaddyWrite t msg s
  | .readBlock t msg => Sys2Proof.Machine.execReadBlock t msg s
  | .writeBlock t msg => Sys2Proof.Machine.execWriteBlock t msg s
  | .notify t msg => Sys2Proof.Machine.execNotify t msg s
  | .notifyResend session => Sys2Proof.Machine.execNotifyResend session s
  | .sessionIdleExpiry session => Sys2Proof.Machine.execSessionIdleExpiry session s
  | .halfOpenExpiry session => Sys2Proof.Machine.execHalfOpenExpiry session s
  | .stickyClear o mask => Sys2Proof.Machine.execStickyClear o mask s
  | .annotate o v => Sys2Proof.Machine.execAnnotate o v s
  | .registerWrite o index sub value => Sys2Proof.Machine.execRegisterWrite o index sub value s
  | .modResetRelease => Sys2Proof.Machine.execModResetRelease  s
  | .stbyEnHigh => Sys2Proof.Machine.execStbyEnHigh  s
  | .dbgXfer => Sys2Proof.Machine.execDbgXfer  s
  | .segmentZeroFillDone d sg => Sys2Proof.Machine.execSegmentZeroFillDone d sg s

end Sys2Proof.Machine
end

