-- ==== Sys2Proof/Machine/Step.lean ====
section
/-! DEFINITION. One step of the block: the command at the front of its queue, or the passing of one REF cycle. -/

namespace Sys2Proof.Machine

/-- One step: the oldest command that waits is executed on the state with the rest of the queue. On an empty queue no
command acts: the host ports and the debug port take up what waited for memory (R263, R317, log entry 67), and one cycle of
the reference passes while a source runs (R395); otherwise nothing changes (log entry 1). -/
def step (s : State) : Host.Outcome State Fault Refusal :=
  match s.pending with
  | [] => .next (((List.range 4).foldl State.rxPump s).dbgRetry).settle.tick
  | c :: rest => exec c { s with pending := rest }

/-- The state with the command that a table word spells in front of its queue; no word of this table spells one. -/
def State.withFetchWord (s : State) (nbits w : Nat) : State :=
  match decodeTableWord nbits w with
  | some c => { s with pending := c :: s.pending }
  | none => s

end Sys2Proof.Machine
end

