-- ==== Sys2Proof/Safety.lean ====
section
/-! DEFINITION. What counts as a safe step and a sound state, and the conditions under which commands act, in the
terms that claims use. -/

namespace Sys2Proof.Machine

/-- The step goes on: it ends in a next state. -/
def Goes (o : Out) : Prop := ∃ t, o = .next t

/-- The step stops, with a fault or a refusal. -/
def Stops (o : Out) : Prop := (∃ f, o = .fault f) ∨ ∃ r, o = .refused r

/-- Nothing that an earlier command caused is left to be done: every step handles its own events. -/
def State.Calm (s : State) : Prop := s.events = []

/-- The table row that executes a grist instruction of stream n of core c (R105). -/
def gristRow (c : CoreNo) (n : StreamNo) : Grist → Instr
  | .seta .. => .seta c n
  | .addaImm .. | .addaReg .. => .adda c n
  | .setiImm .. | .setiReg .. => .seti c n
  | .loopImm .. | .loopReg .. => .loop c n
  | .endl .. => .endl c n
  | .load .. => .load c n
  | .store .. => .store c n
  | .gather .. => .gather c n
  | .scatter .. => .scatter c n
  | .emit _ => .emit c n
  | .take => .take c n
  | .free => .free c n
  | .wait .. => .gristWait c n
  | .arrive .. => .arrive c n
  | .done => .endStream c n

/-- A grist instruction that only changes registers: SETA, ADDA, SETI, LOOP, ENDL (R105). -/
def plainGrist : Grist → Bool
  | .seta .. | .addaImm .. | .addaReg .. | .setiImm .. | .setiReg .. | .loopImm .. | .loopReg .. | .endl .. => true
  | _ => false

/-- Grist instructions whose fields hold no reserved value (R104): `ACC` is at most 2 and `MODE` at most 1. -/
def gristWf : Grist → Bool
  | .store _ _ acc _ => acc != 3
  | .scatter _ _ _ _ _ acc => acc != 3
  | .wait mode _ _ _ => decide (mode.val < 2)
  | _ => true

/-- Core n executes command k of context h, of the given opcode, in an open iteration that no pre-emption stops. -/
def State.atWork (s : State) (n h op : Nat) (k : CmdRun) : Prop :=
  s.running n h = some k ∧ k.open_ = true ∧ cOp k.word = op ∧ (s.ctx n h).stopsHere k = false

/-- The reader of ring r of die d stands at a well-formed request of a TYPE (R328, R329); u is the state once void
packets are discarded. -/
def State.readsType (s : State) (d r ty : Nat) (u : State) (bs : Bytes) : Prop :=
  s.heads d r = (u, .good bs) ∧ rqType bs = ty

/-- A RoCE message of k frames reaches a READY queue pair of a port whose link is up (R318, R320, R335); u is the state once its
frames are counted and its CE mark is answered. -/
def State.takesRoce (s : State) (p q k : Nat) (ce : Bool) (u : State) : Prop :=
  s.linkUp p = true ∧ (s.rxFrames p k).qpState p q = 1 ∧ u = (s.rxFrames p k).markCe p q ce

/-- The request m of such a message finds the receive buffer empty and does not wait (R263, R317); u is the state in which it is
served. -/
def State.servesRoce (s : State) (p q k : Nat) (ce : Bool) (m : RxMsg) (u : State) : Prop :=
  ∃ v, s.takesRoce p q k ce v ∧ (v.hport p).inq = [] ∧
    let w := v.setHport p { v.hport p with inq := [(q, m)] }
    w.rxWaits m = false ∧ u = w.setHport p { w.hport p with inq := [] }

/-- The debug port takes a request of a scope (R433, R435): the TAP accepts inputs and selects the debug frame register,
no request is outstanding, and the scope is unlocked. -/
def State.dbgReady (s : State) (scope : Nat) : Prop :=
  s.tapOn = true ∧ s.dbg.ir = 0x20 ∧ s.dbg.busy = none ∧ s.scopeOpen scope = true

/-- A message is a well-formed Caddy request of a type, next in sequence, of the open session x, which has no write
outstanding (R453, R457). -/
def State.takesRequest (s : State) (t : Tuple) (m : Bytes) (ty : Nat) (x : Session) : Prop :=
  s.caddyOn t = true ∧ msgType m = ty ∧ badHeader ty m = false ∧ (s.rxFrames t.port.val 1).authentic t m = some x ∧
  msgSeq m = (x.lastSeq + 1) % 2 ^ 32 ∧ msgSeq m ≠ x.lastSeq ∧ x.waiting = false

/-- The dictionary entry and the value that a row writes, with its writer (R443): index, sub-index, bytes. -/
def dictRow : Instr → Option (Origin × Nat × Nat × Bytes)
  | .gateStepWrite o p v => some (o, 0x9400 + p.val, 1, natLe 4 v.toNat)
  | .pourStepWrite o p v => some (o, 0x9500 + p.val, 0, natLe 4 v.toNat)
  | .pourTableBaseWrite o v => some (o, 0x9000, 0, natLe 8 v.toNat)
  | .planCommit o v => some (o, 0x9210, 0, natLe 4 v.toNat)
  | .lauterGenerationWrite o v => some (o, 0x9210, 2, natLe 1 v.toNat)
  | .invalidate o p cl v => some (o, 0x3900 + p.val, cl.val, natLe 8 v.toNat)
  | .retry o p cl v => some (o, 0x3A00 + p.val, cl.val, natLe 8 (setFld v.toNat 36 36 0))
  | .fail o p cl v => some (o, 0x3A00 + p.val, cl.val, natLe 8 (setFld v.toNat 36 36 1))
  | .windowOpen o w => some (o, 0x3C00, 0, natLe 4 (2 ^ 30 + w.val))
  | .windowClose o w => some (o, 0x3C00, 0, natLe 4 (2 ^ 31 + w.val))
  | .portDisable o g => some (o, 0x5010, g.val, [0#8])
  | .portEnable o g => some (o, 0x5010, g.val, [1#8])
  | .portForceRepair o g => some (o, 0x5010, g.val, [2#8])
  | .routeWrite o dev v => some (o, 0x5100 + dev.val / 256, dev.val % 256, natLe 4 v.toNat)
  | .qpValidSet o p q v =>
    some (o, 0x5810 + 4 * p.val + q.val / 256, q.val % 256, natLe 64 (setFld v.toNat 225 225 1))
  | .qpReset o p q v =>
    some (o, 0x5810 + 4 * p.val + q.val / 256, q.val % 256, natLe 64 (setFld v.toNat 225 225 0))
  | .build o p => some (o, 0x4000 + p.val, 2, [1#8])
  | .dissolve o p => some (o, 0x4000 + p.val, 2, [2#8])
  | .segmentAllocate o d g p => some (o, 0x4300 + d.val, g.val, natLe 2 (ownWord 1 0 p.val))
  | .segmentFree o d g => some (o, 0x4300 + d.val, g.val, [0#8, 0#8])
  | .sliceMsWrite o p cl v => some (o, 0x4100 + p.val, cl.val, natLe 2 v.toNat)
  | .kilnRequestCore o d k force =>
    some (o, 0x6800, 3, natLe 4 (1 <<< 28 + d.val <<< 22 + k.toNat <<< 14 + b2n force <<< 13))
  | .kilnRequestSegment o d k => some (o, 0x6800, 3, natLe 4 (2 <<< 28 + d.val <<< 22 + k.toNat <<< 14))
  | .kilnRequestDieCheck o d => some (o, 0x6800, 3, natLe 4 (3 <<< 28 + d.val <<< 22))
  | .kilnRequestPort o x k => some (o, 0x6800, 3, natLe 4 (4 <<< 28 + x.val <<< 22 + k.val <<< 14))
  | .refCtlWrite o n => some (o, 0x2000, 2, [n])
  | .opTargetWrite o d v => some (o, 0x2010, d.val, [v])
  | .bootReset o => some (o, 0x2030, 1, [1#8])
  | .bootShutdown o => some (o, 0x2030, 1, [2#8])
  | .fwStageWrite o chunk data => some (o, 0x7100 + min (chunk / 256) 0x30, chunk % 256, data)
  | .fwVerify o => some (o, 0x7000, 1, [1#8])
  | .fwArm o => some (o, 0x7000, 1, [2#8])
  | .fwCommit o => some (o, 0x7000, 1, [3#8])
  | .fwRevert o => some (o, 0x7000, 1, [4#8])
  | .attestNonceWrite o nonce => some (o, 0x7011, 0, natLe 32 nonce.toNat)
  | .principalWrite o slot v => some (o, 0x7020, slot.val, natLe 80 v.toNat)
  | .stickyClear o mask => some (o, 0x1100, 0x11, natLe 32 mask.toNat)
  | .annotate o v => some (o, 0x1100, 1, natLe 16 v.toNat)
  | .registerWrite o index sub value => some (o, index.toNat, sub.toNat, value)
  | _ => none

end Sys2Proof.Machine
end

