-- ==== Sys2Proof/WellFormed.lean ====
section
/-! DEFINITION. Which commands the module's interfaces can deliver: the bounds of operands that their types leave
open. -/

namespace Sys2Proof

/-- A chunk of `fw.stage` exists, and is 4 KiB (R440). -/
def wfChunk (chunk : Nat) (data : Bytes) : Bool := decide (chunk < 12288) && decide (data.length = 4096)

/-- A unit of kiln: a position, or a segment of the 176 (R380, R388). -/
def wfUnit (isSegment : Bool) (k : Nat) : Bool := !isSegment || decide (k < 176)

/-- The failed rows of a segment test lie in their banks: 45,056 rows each (R86). -/
def wfRows (rows : List (Fin 16 × Nat)) : Bool := rows.all fun r => decide (r.2 < 45056)

/-- A value of a dictionary entry is at most 4,096 B (R442). -/
def wfValue (value : Bytes) : Bool := decide (value.length ≤ 4096)

/-- A maintenance read names elements of 1, 2, 4 or 8 B, and 1 to 384 rows and columns (R82). -/
def wfMaint (r : MaintRead) : Bool :=
  (r.elemBytes == 1 || r.elemBytes == 2 || r.elemBytes == 4 || r.elemBytes == 8) &&
    decide (1 ≤ r.rows) && decide (r.rows ≤ 384) && decide (1 ≤ r.cols) && decide (r.cols ≤ 384)

/-- The command can be delivered. -/
def Instr.wf : Instr → Bool
  | .fwStageWrite _ chunk data => wfChunk chunk data
  | .kilnDue _ isSegment k => wfUnit isSegment k.val
  | .kilnRequestSegment _ _ k => wfUnit true k.toNat
  | .segmentTest _ _ rows => wfRows rows
  | .registerWrite _ _ _ value => wfValue value
  | .refreshPoll _ _ errors => decide (errors.length = 8)
  | .lpddrTrainingDone _ ids => decide (ids.length = 16)
  | .maintenanceRead _ _ r => wfMaint r
  | _ => true

end Sys2Proof
end

