-- ==== Sys2Proof/Certificates/Slice0/Obligations.lean ====
section
/-! DEFINITION. The statements for the provers: each `def Obligations.<Name> : Prop` says what its name says, and its
docstring names the rule of spec/ or the log entry that it rests on. A conclusion `exec c s = .next (t.settle)` says that the
command ends in t once the events that t lists have been handled; with none, `t.settle` is t (`SettleCalm`). -/

open Sys2Proof Sys2Proof.Machine

/-! ### Streams (chapter 05) -/

/-- R105: each of SETA, ADDA, SETI, LOOP and ENDL, in a stream that can execute it, ends in the state where only that
stream's registers have changed, as `SRegs.plain` computes them from the context's parameters. -/
def Obligations.PlainGristCompletes : Prop :=
  ∀ (c : CoreNo) (n : StreamNo) (s : State) (y : Stream) (g : Grist),
    s.ready c.val n.val = some (y, g) → plainGrist g = true →
      exec (gristRow c n g) s = .next
        (s.setStream c.val n.val
          { y with regs := y.regs.plain (s.ctx c.val y.ctx) (s.core c.val).prog g }).settle

/-- R105, the table's results of SETA, ADDA, SETI, LOOP and ENDL, register by register; every register that the row
does not name keeps its value. -/
def Obligations.PlainGristResults : Prop :=
  ∀ (r : SRegs) (x : Ctx) (prog : SMap (BitVec 32)),
    (∀ a px py, let t := r.plain x prog (.seta a px py)
      t.getAr a.val = BitVec.ofNat 48 ((x.param py.val % 65536) * 2 ^ 32 + x.param px.val) ∧
      (∀ b : Fin 4, b ≠ a → t.getAr b.val = r.getAr b.val) ∧ t.pc = r.pc + 1 ∧ t.ir = r.ir ∧ t.lc = r.lc ∧
      t.cursor = r.cursor) ∧
    (∀ (a : Fin 4) (i : Fin 8), let t := r.plain x prog (.addaReg a i)
      t.getAr a.val = r.getAr a.val + (r.getIr i.val).signExtend 48 ∧
      (∀ b : Fin 4, b ≠ a → t.getAr b.val = r.getAr b.val) ∧ t.pc = r.pc + 1 ∧ t.ir = r.ir ∧ t.lc = r.lc) ∧
    (∀ (a : Fin 4) (m : Fin 2097152), let t := r.plain x prog (.addaImm a m)
      t.getAr a.val = r.getAr a.val + 32 * (BitVec.ofNat 21 m.val).signExtend 48 ∧
      (∀ b : Fin 4, b ≠ a → t.getAr b.val = r.getAr b.val) ∧ t.pc = r.pc + 1 ∧ t.ir = r.ir ∧ t.lc = r.lc) ∧
    (∀ (i : Fin 8) (m : Fin 8388608), let t := r.plain x prog (.setiImm i m)
      t.getIr i.val = (BitVec.ofNat 23 m.val).signExtend 32 ∧
      (∀ j : Fin 8, j ≠ i → t.getIr j.val = r.getIr j.val) ∧ t.pc = r.pc + 1 ∧ t.ar = r.ar ∧ t.lc = r.lc) ∧
    (∀ (i : Fin 8) (p : Fin 64), let t := r.plain x prog (.setiReg i p)
      t.getIr i.val = BitVec.ofNat 32 (x.param p.val) ∧
      (∀ j : Fin 8, j ≠ i → t.getIr j.val = r.getIr j.val) ∧ t.pc = r.pc + 1 ∧ t.ar = r.ar ∧ t.lc = r.lc) ∧
    (∀ (l : Fin 4) (m : Fin 16777216), m.val ≠ 0 → let t := r.plain x prog (.loopImm l m)
      t.getLc l.val = BitVec.ofNat 24 m.val ∧ t.ret[l.val]? = some (r.pc + 1) ∧ t.pc = r.pc + 1 ∧ t.ar = r.ar ∧
      t.ir = r.ir) ∧
    (∀ (l : Fin 4) (m : Fin 16) (s3 s2 s1 s0 : Fin 8), let t := r.plain x prog (.endl l m s3 s2 s1 s0)
      t.getLc l.val = r.getLc l.val - 1 ∧
      t.pc = (if r.getLc l.val - 1 = 0 then r.pc + 1 else (r.ret[l.val]?).getD 0) ∧ t.ir = r.ir ∧
      ∀ a : Fin 4, t.getAr a.val =
        if bit m.val a.val then
          r.getAr a.val + (r.getIr (([s0, s1, s2, s3].getD a.val 0).val)).signExtend 48
        else r.getAr a.val)

/-- R105 to R108: LOAD and GATHER whose ring has a free slot and whose every piece leaves as a request end with their
address registers and cursor moved on; R114 and R239 stand aside for STORE and SCATTER with `ACC` = 0 of a taken slot. -/
def Obligations.TransfersComplete : Prop :=
  ∀ (c : CoreNo) (n : StreamNo) (s t : State) (y : Stream),
    (∀ ar post len, s.ready c.val n.val = some (y, .load ar post len) →
      y.regs.cursor + 32 * (len.val + 1) ≤ s.slotSize c.val y → s.ringFree c.val y.ring = true →
      (s.beginSlot c.val n.val).runMove c.val n.val (y.regs.getAr ar.val).toNat (32 * (len.val + 1)) y.regs.cursor none
        4096 y.regs.done = (t, .left) →
      exec (.load c n) s = .next
        (t.finishMove c.val n.val fun g => g.moved ar.val post (32 * (len.val + 1))).settle) ∧
    (∀ ab ai irl irs m, s.ready c.val n.val = some (y, .gather ab ai irl irs m) →
      badRows (s.slotSize c.val y) y.regs.cursor (m.val + 1) (y.regs.getIr irl.val).toNat = false →
      badIndexing y.regs ai.val irl.val irs.val = false → s.ringFree c.val y.ring = true →
      (s.beginSlot c.val n.val).runRows c.val n.val ab.val ai.val (m.val + 1) (y.regs.getIr irl.val).toNat irs.val none
        8192 = (t, .left) →
      exec (.gather c n) s = .next
        (t.finishMove c.val n.val fun g => g.gathered ai.val (m.val + 1) (y.regs.getIr irl.val).toNat).settle) ∧
    (∀ ar post len, s.ready c.val n.val = some (y, .store ar post 0 len) → y.taken = true → y.suppress = false →
      y.regs.cursor + 32 * (len.val + 1) ≤ s.slotSize c.val y →
      s.runMove c.val n.val (y.regs.getAr ar.val).toNat (32 * (len.val + 1)) y.regs.cursor (some 0) 4096 y.regs.done
        = (t, .left) →
      exec (.store c n) s = .next
        (t.finishMove c.val n.val fun g => g.moved ar.val post (32 * (len.val + 1))).settle) ∧
    (∀ ab ai irl irs m, s.ready c.val n.val = some (y, .scatter ab ai irl irs m 0) → y.taken = true →
      y.suppress = false → badRows (s.slotSize c.val y) y.regs.cursor (m.val + 1) (y.regs.getIr irl.val).toNat = false →
      badIndexing y.regs ai.val irl.val irs.val = false →
      s.runRows c.val n.val ab.val ai.val (m.val + 1) (y.regs.getIr irl.val).toNat irs.val (some 0) 8192 = (t, .left) →
      exec (.scatter c n) s = .next
        (t.finishMove c.val n.val fun g => g.gathered ai.val (m.val + 1) (y.regs.getIr irl.val).toNat).settle)

/-- R99, R101, R102, R105: EMIT commits its slot, TAKE takes a visible head slot, and FREE releases a slot whose bytes
match its seal. -/
def Obligations.SlotGristCompletes : Prop :=
  ∀ (c : CoreNo) (n : StreamNo) (s : State) (y : Stream),
    (∀ z, s.ready c.val n.val = some (y, .emit z) → y.waiting = false → s.ringFree c.val y.ring = true →
      s.slotSize c.val y ≤ y.regs.cursor →
      exec (.emit c n) s = .next
        ((s.commitSlot c.val y.ring (some (y.rec_.getD { ckpt := y.ckpt }))).setStream c.val n.val y.newSlot).settle) ∧
    (∀ r, s.ready c.val n.val = some (y, .take) → y.taken = false → s.ring c.val y.ring = some r →
      s.headVisible r = true →
      exec (.take c n) s = .next
        ((s.setRing c.val y.ring { r with busy := true }).setStream c.val n.val
          { y with regs := { y.regs with pc := y.regs.pc + 1, cursor := 0, done := 0 },
                   ckpt := { y.regs with pc := y.regs.pc + 1, cursor := 0, done := 0 },
                   taken := true, passed := false, idx := none }).settle) ∧
    (∀ r t bs, s.ready c.val n.val = some (y, .free) → y.waiting = false → s.ring c.val y.ring = some r → y.taken = true →
      y.regs.cursor = r.slotBytes → s.readSlot c.val r r.consPos 0 r.slotBytes = (t, .ok, bs) →
      (crc32c bs).toNat = SMap.get 0 r.seals r.consPos → y.aborted = false →
      exec (.free c n) s = .next
        ((t.releaseSlot c.val y.ring).setStream c.val n.val y.newSlot).settle)

/-- R105, R111, R118, R119: grist WAIT passes once its writes are acknowledged or its barrier has reached the target;
ARRIVE makes its arrival; END ends the stream. -/
def Obligations.SyncGristCompletes : Prop :=
  ∀ (c : CoreNo) (n : StreamNo) (s : State) (y : Stream),
    (∀ d b px, s.ready c.val n.val = some (y, .wait 0 d b px) → y.writing = false →
      exec (.gristWait c n) s = .next
        (s.setStream c.val n.val { y with regs := { y.regs with pc := y.regs.pc + 1 } }).settle) ∧
    (∀ d b px, s.ready c.val n.val = some (y, .wait 1 d b px) →
      s.barRefusal (s.ctx c.val y.ctx).part d.val b.val = none →
      (s.barrier d.val b.val).reached ((s.ctx c.val y.ctx).param px.val % 65536) = true →
      exec (.gristWait c n) s = .next
        (s.setStream c.val n.val { y with regs := { y.regs with pc := y.regs.pc + 1 } }).settle) ∧
    (∀ d b, s.ready c.val n.val = some (y, .arrive d b) → y.writing = false →
      s.barRefusal (s.ctx c.val y.ctx).part d.val b.val = none → y.arrMax ≤ y.regs.arr →
      exec (.arrive c n) s = .next
        ((s.setBarrier d.val b.val (s.barrier d.val b.val).arrive).setStream c.val n.val
          { y with regs := { y.regs with pc := y.regs.pc + 1, arr := y.regs.arr + 1 },
                   arrMax := max y.arrMax (y.regs.arr + 1) }).settle) ∧
    (s.ready c.val n.val = some (y, .done) → y.reqs = [] → y.regs.cursor = 0 → y.taken = false →
      (y.drains = true ∨ (s.ctx c.val y.ctx).rewinds y.ring = false) →
      exec (.endStream c n) s = .next (s.endStream c.val n.val).settle)

/-- R107, R111, R112, R119, R264, R277: the events of streams and rings. A completed write request frees its tag; a
memory read that the link delivers gives its request the bytes read; a generation increment advances its granule and
readies its request; a probe reads the counters that the head slot records; a probe that finds every recorded generation
delivers the head slot; a waiting context whose barrier has reached its target goes on; a walk that resolves its address
lets its stream run. -/
def Obligations.StreamEventsComplete : Prop :=
  ∀ (c : CoreNo) (n : StreamNo) (s t : State) (y : Stream),
    (∀ q, s.stream c.val n.val = some y → y.completable = some q → q.status = .ok → q.write = true →
      exec (.streamRequestComplete c n) s = .next
        (s.setStream c.val n.val { y with reqs := y.reqs.erase q }).settle) ∧
    (∀ (f : Fin 4) e q bs, f.val < 3 → s.stream c.val n.val = some y → s.memRead y = some q →
      let d := s.lpDecode (locOf q.gaddr)
      let u := (s.bump 32 (0x8820 + d.1) d.2.1 e).bump 32 (0x8830 + d.1) d.2.1 (min f.val 2)
      u.readArray (locOf q.gaddr) q.len (u.ctx c.val y.ctx).lastTag = (t, .ok, bs) →
      exec (.memoryReadComplete c n ⟨f, e⟩) s = .next
        (t.setStream c.val n.val
          (let z := y.putReq q { q with ready := true, tries := f.val, data := bs }
           if y.drains || q.dead || q.off = passMark || q.off = refMark then z
           else { z with rec_ := some (t.noteRead (y.rec_.getD { ckpt := y.ckpt }) (locOf q.gaddr) q.len) })).settle) ∧
    (∀ e q, s.stream c.val n.val = some y → s.memRead y = some q →
      let d := s.lpDecode (locOf q.gaddr)
      exec (.memoryReadComplete c n ⟨3, e⟩) s = .next
        ((((s.bump 32 (0x8820 + d.1) d.2.1 e).bump 32 (0x8830 + d.1) d.2.1 2).channelEvent d.1 d.2.1
          (s.ctx c.val y.ctx).lastTag).setStream c.val n.val
            (y.putReq q { q with ready := true, tries := 3, status := .eccUncorrectable })).settle) ∧
    (∀ (m : MxNo) g va rest q, (s.mx m.val).incr = (g, c.val, n.val, va) :: rest →
      s.stream c.val n.val = some y →
      (y.reqs.find? fun q => q.write && q.va == va && q.owner == some m.val) = some q →
      exec (.generationIncrement m) s = .next
        (((s.setMx m.val { s.mx m.val with incr := rest }).bumpGen g).setStream c.val n.val
          (y.putReq q { q with ready := true, owner := none })).settle) ∧
    (∀ (r : RingNo) q x, s.ring c.val r.val = some q → q.kept < q.held → q.busy = false →
      SMap.find? q.cur q.recs = some x → q.hd ≠ .delivered → q.hd ≠ .refetching →
      exec (.generationProbe c r) s = .next
        (s.setRing c.val r.val { q with hd := .probing (some (x.gens.map fun g => SMap.get 0 s.gens g.1)) }).settle) ∧
    (∀ (r : RingNo) q x, s.ring c.val r.val = some q → SMap.find? q.cur q.recs = some x →
      q.hd = .probing (some (x.gens.map (·.2))) → x.unrecorded = false → s.fresh x = true →
      exec (.probeResponse c r) s = .next (s.setRing c.val r.val { q with hd := .delivered }).settle) ∧
    (∀ (h : CtxNo) k, (s.ctx c.val h.val).cmd = some k → (s.ctx c.val h.val).state = .waiting →
      (cOp k.word = 0x48 ∨ cOp k.word = 0x49) → (s.ctx c.val h.val).halted = false →
      (s.barrier (barDie k.word) (barObj k.word)).reached (opnd (s.opsNow c.val h.val k) 0 % 65536) = true →
      (s.core c.val).exec_ = none →
      exec (.barrierConditionHolds c (.context h)) s = .next (s.syncDone c.val h.val).settle) ∧
    (∀ va w g lo, s.stream c.val n.val = some y → y.phase = .walking va w →
      (s.walks (c.val / 256)).contains (c.val, n.val) = true →
      ({ s with walkQ := s.walkQ.filter fun e => e != (c.val, n.val) } : State).walkFill c.val y.ctx
        (s.ctx c.val y.ctx).part (s.ctx c.val y.ctx).client va w = (t, .ok g lo) →
      exec (.walkComplete c n) s = .next (t.setStream c.val n.val { y with phase := .running }).settle)

/-! ### Arrays and macro-operations (chapters 02, 07, 08) -/

/-- R164, R165, R168 to R173, R175, R177 to R179: a vector macro-operation whose iteration is open reads what its input
rings present and writes what its kernel forms from it. Each kernel is the one named for the row. -/
def Obligations.VectorRowsComplete : Prop :=
  ∀ (c : CoreNo) (h : CtxNo) (s : State) (k : CmdRun), let n := c.val; let m := h.val
    (s.atWork n m 0x08 k → exec (.elemwise c h) s = .next
      (s.vecStep n m (fun s k ops => kElemwise (s.seedOf n m) k ops) k).settle) ∧
    (s.atWork n m 0x10 k → exec (.rownormFwd c h) s = .next
      (s.vecStep n m (fun s k ops => kRownormFwd (s.seedOf n m) k ops) k).settle) ∧
    (s.atWork n m 0x11 k → exec (.rownormBwd c h) s = .next
      (s.vecStep n m (fun s k ops => kRownormBwd (s.seedOf n m) k ops) k).settle) ∧
    (s.atWork n m 0x12 k → exec (.softmaxFwd c h) s = .next
      (s.vecStep n m (fun s k ops => kSoftmaxFwd (s.seedOf n m) k ops) k).settle) ∧
    (s.atWork n m 0x13 k → exec (.softmaxBwd c h) s = .next
      (s.vecStep n m (fun s k ops => kSoftmaxBwd (s.seedOf n m) k ops) k).settle) ∧
    (s.atWork n m 0x1A k → exec (.rope c h) s = .next
      (s.vecStep n m (fun s k ops => kRope (s.seedOf n m) k ops) k).settle) ∧
    (s.atWork n m 0x1B k → exec (.kvAppend c h) s = .next
      (s.vecStep n m (fun _ k ops => kKvAppend k ops) k).settle) ∧
    (s.atWork n m 0x20 k → exec (.maskpack c h) s = .next
      (s.vecStep n m (fun _ k ops => kMaskpack k ops) k).settle) ∧
    (s.atWork n m 0x21 k → exec (.rngMask c h) s = .next
      (s.vecStep n m (fun s k ops => kRngMask (s.seedOf n m) k ops) k).settle) ∧
    (s.atWork n m 0x22 k → exec (.castMx c h) s = .next
      (s.vecStep n m (fun s k ops => kCastMx (s.seedOf n m) k ops) k).settle) ∧
    (s.atWork n m 0x28 k → exec (.gatherRows c h) s = .next
      (s.vecStep n m (fun s k ops => kGatherRows (s.seedOf n m) k ops) k).settle) ∧
    (s.atWork n m 0x30 k → exec (.optUpdate c h) s = .next
      (s.vecStep n m (fun _ k ops => kOptUpdate k ops) k).settle) ∧
    (s.atWork n m 0x38 k → exec (.seal c h) s = .next (s.vecStep n m (fun _ k ops => kSeal k ops) k).settle) ∧
    (s.atWork n m 0x39 k → exec (.checkSeal c h) s = .next
      ((s.vecStep n m (fun _ k ops => kCheckSeal k ops) k).sealHold n m).settle) ∧
    (s.atWork n m 0x3A k → exec (.checkpoint c h) s = .next
      (s.vecStep n m (fun _ k ops => kCheckpoint k ops) k).settle) ∧
    (s.atWork n m 0x40 k → exec (.reducePush c h) s = .next
      (s.vecStep n m (fun _ k ops => kReducePush k ops) k).settle)

/-- R131, R133: one step of a vector iteration whose inputs have all been read and whose outputs have all been committed
ends the iteration: kept slots are released, and the loop vector goes on or the command finishes. -/
def Obligations.VectorIterationEnds : Prop :=
  ∀ (n h : Nat) (s : State) (k : CmdRun) (kern : State → CmdRun → List Nat → Kernel),
    s.running n h = some k →
    (kern s k (s.opsNow n h k)).read k = true →
    (∀ e ∈ (kern s k (s.opsNow n h k)).outs, k.pushed e.1 e.2 = true) →
    s.vecStep n h kern k =
      (((kern s k (s.opsNow n h k)).ins.foldl
          (fun (s : State) e => if e.2.2 then s.dropKept n (cRole k.word e.1) 16 else s) s).modCmd n h fun q =>
        { q with note := q.note ++ (kern s k (s.opsNow n h k)).note ((kern s k (s.opsNow n h k)).input k),
                 failed := q.failed + ((kern s k (s.opsNow n h k)).note ((kern s k (s.opsNow n h k)).input k)).length }).endIter n h k

/-- R158, R160, R162: a matrix product whose iteration is open begins its next pass when the array is free, and ends the
pass in the array once every k-step has entered. -/
def Obligations.ProductRowsComplete : Prop :=
  ∀ (c : CoreNo) (h : CtxNo) (s : State) (k : CmdRun) (op : Nat) (row : Instr),
    (op, row) ∈ [(0x01, Instr.matmul c h), (0x02, Instr.matmulT c h), (0x03, Instr.gradW c h)] →
    s.atWork c.val h.val op k →
    ((s.core c.val).array = none →
      exec row s = .next (s.passBegin c.val h.val (s.prod c.val k (s.opsNow c.val h.val k))).settle) ∧
    (∀ a, (s.core c.val).array = some a → a.hold = false →
      (s.prod c.val k (s.opsNow c.val h.val k)).steps ≤ a.step →
      exec row s = .next (s.passEnd c.val h.val (s.prod c.val k (s.opsNow c.val h.val k)) a).settle)

/-- R24, R26, R34, R38, R40, R41, R477: K_STEP_ENTER with both operands staged advances every accumulator by one k-step
and, but for the turn registers of a fallback, nothing else while the pass has steps left. Once every k-step of the pass
has entered, its results drain into their slots: the pass is done when the array is empty, and the array holds, at its
drain position and with its accumulators, when a result has no slot. ARRAY_CONTINUE takes a held array on. -/
def Obligations.ArrayRowsComplete : Prop :=
  ∀ (c : CoreNo) (s : State) (a : ArrayRun) (k : CmdRun),
    (s.core c.val).array = some a → s.running c.val a.ctx = some k →
    let q := s.prod c.val k (s.opsNow c.val a.ctx k)
    let mask := if q.masked then k.got 2 (q.lenIn2 (s.opsNow c.val a.ctx k)) else []
    (∀ t b, a.hold = false → q.steps ≤ a.step → k.full 0 q.lenA = true → k.full 1 q.lenB = true →
      s.drainPass c.val a.ctx q (s.opsNow c.val a.ctx k) mask (33 * q.wid) a = (t, b, .ok) →
      (a.drained ≤ b.drained ∧ b.acc = a.acc) ∧
      exec (.kStepEnter c) s = .next
        (if 32 * q.wid ≤ b.drained then t.passDone c.val a.ctx q b
         else (t.setArray c.val (some { b with hold := true })).drainStall c.val a.ctx (cRole k.word 3)).settle) ∧
    (a.hold = false → a.step + 1 < q.steps → k.full 0 (q.needA a.step) = true →
      k.full 1 (q.needB a.nTile a.step) = true →
      exec (.kStepEnter c) s = .next
        ((s.turnTiles c.val q (SMap.get [] k.inBuf 0) (SMap.get [] k.inBuf 1) a.nTile a.step).setArray c.val (some { a with
          acc := q.stepAcc (SMap.get [] k.inBuf 0) (SMap.get [] k.inBuf 1) a.nTile a.step a.acc,
          step := a.step + 1 })).settle) ∧
    (a.hold = true → exec (.arrayContinue c) s = .next (s.passEnd c.val a.ctx q { a with hold := false }).settle)

/-- R28, R24: a k-step keeps the number of accumulators, and each cell of the result depends on its own accumulator and
operands only. -/
def Obligations.StepAccShape : Prop :=
  ∀ (q : Prod) (a b : Bytes) (nt st : Nat) (acc : List W32), acc.length = 32 * q.wid →
    (q.stepAcc a b nt st acc).length = 32 * q.wid ∧
    ∀ i j, i < 32 → j < q.wid →
      (q.stepAcc a b nt st acc)[i * q.wid + j]? =
        (acc[i * q.wid + j]?).map fun v => cellUpdate v
          ((List.range q.p).map fun e =>
            (elemA q.fa q.ta q.kcA q.slotA a i (q.p * st + e),
              if q.wid * nt + j < q.nn then elemB q.fb q.tb q.nn q.kk q.kcB q.slotB b (q.p * st + e) (q.wid * nt + j)
              else .fin false 0 0))

/-- R174, R180 to R184, R194, R207 to R212: the macro-operations that are no vector commands. -/
def Obligations.OtherMacroRowsComplete : Prop :=
  ∀ (c : CoreNo) (h : CtxNo) (s : State) (k : CmdRun), let n := c.val; let m := h.val
    (s.atWork n m 0x18 k → exec (.attnBlockFwd c h) s = .next (s.attnStep n m kAttnFwd k).settle) ∧
    (s.atWork n m 0x19 k → exec (.attnBlockBwd c h) s = .next (s.attnStep n m kAttnBwd k).settle) ∧
    (s.atWork n m 0x29 k → exec (.scatterAdd c h) s = .next (s.scatterStep n m k).settle) ∧
    (s.atWork n m 0x41 k → exec (.layerDone c h) s = .next
      ((((s.layerEntries (s.ctx n m).part (opnd (s.opsNow n m k) 0)).foldl
        (fun (s : State) e => s.admitDie (n / 256) e) s).modCtx n m fun x =>
          { x with layers := insertAsc (opnd (s.opsNow n m k) 0) x.layers }).endIter n m k).settle) ∧
    (s.atWork n m 0x48 k → s.cmdBarRefusal (s.ctx n m).part k.word = none → cFlag k.word 32 = true →
      exec (.barrierCmd c h) s = .next
        ((s.arriveAt (barDie k.word) (barObj k.word)).modCmd n m fun k => { k with phase := .last, open_ := false }).settle) ∧
    (s.atWork n m 0x49 k → s.cmdBarRefusal (s.ctx n m).part k.word = none →
      (s.barrier (barDie k.word) (barObj k.word)).reached (opnd (s.opsNow n m k) 0 % 65536) = true →
      exec (.waitCmd c h) s = .next (s.syncDone n m).settle) ∧
    (∀ t u, s.atWork n m 0x50 k → s.fillLease n m k = (t, none) →
      t.writeMem (spBase n + opnd (s.opsNow n m k) 0)
        (fillBytes (opnd (s.opsNow n m k) 2 + opnd (s.opsNow n m k) 3 * 2 ^ 32) (opnd (s.opsNow n m k) 1)) = (u, .ok) →
      exec (.fill c h) s = .next (u.endIter n m k).settle) ∧
    (∀ t u v bs, s.atWork n m 0x51 k → s.fillLease n m k = (t, none) →
      t.readMem (spBase n + opnd (s.opsNow n m k) 0) (opnd (s.opsNow n m k) 2) (cTag k.word) = (u, .ok, bs) →
      u.writeMem (spBase n + opnd (s.opsNow n m k) 1) bs = (v, .ok) →
      exec (.copy c h) s = .next (v.endIter n m k).settle) ∧
    (s.atWork n m 0x58 k → exec (.patchCmd c h) s = .next
      ((s.modCtx n m fun x => x.setParam (cOpr k.word 0) (patchValue k.word (s.opsNow n m k))).modCmd n m fun k =>
        { k with phase := .last, open_ := false }).settle) ∧
    ((s.ctx n m).cmd = some k → k.phase = .held → (s.ctx n m).state = .waiting → k.pos = 0 →
      (s.ctx n m).kind ≠ .third → exec (.report c h) s = .next (s.reportSecond n m (s.ctx n m) k).settle) ∧
    ((s.ctx n m).cmd = some k → k.phase = .gate → (s.ctx n m).state = .running → (s.ctx n m).preempt = false →
      (s.ctx n m).halted = false → s.gateSays (s.ctx n m).part (opnd (s.opsNow n m k) 3) = some .ok →
      (s.core n).exec_ = none → s.scan n = some m → (s.core n).maint = false → (s.core n).retire = none →
      s.awake n = true →
      exec (.gatedUpdateProceed c h) s = .next
        ((((s.modCore n fun c => { c with issued := m }).modCmd n m fun k => { k with phase := .run }).modCore n fun c =>
          { c with exec_ := some m }).openUp n m).settle)

/-- R177, R178: blocks checked against the seals that SEAL forms of the same bytes differ nowhere; and CHECK_SEAL lists
exactly the blocks whose recorded seal is not that of their bytes, in order, with the seal it recomputed. -/
def Obligations.SealsAgree : Prop :=
  (∀ data : Bytes, sealDiffs data (unwords32 ((blocksOf data).map crc32c)) = []) ∧
  ∀ (data : Bytes) (seals : List W32) (i v : Nat), seals.length = (blocksOf data).length →
    ((i, v) ∈ sealDiffs data (unwords32 seals) ↔
      ∃ b w, (blocksOf data)[i]? = some b ∧ seals[i]? = some w ∧ v = (crc32c b).toNat ∧ crc32c b ≠ w)

/-- R131: the iteration vectors of a command follow each other with level 0 outermost and the innermost level fastest,
start at all zeros, end after the last, and take in every vector within the counts. -/
def Obligations.IterationOrder : Prop :=
  ∀ counts : List Nat, (∀ c ∈ counts, 0 < c) →
    iterAt counts 0 = counts.map (fun _ => 0) ∧
    (∀ i, i + 1 < iterCount counts → nextIter counts (iterAt counts i) = some (iterAt counts (i + 1))) ∧
    nextIter counts (iterAt counts (iterCount counts - 1)) = none ∧
    ∀ v : List Nat, v.length = counts.length → (∀ l, l < counts.length → v.getD l 0 < counts.getD l 0) →
      ∃ i, i < iterCount counts ∧ iterAt counts i = v

/-! ### Recipes, contexts and commands (chapter 06) -/

/-- R126, R139, R140, R290: the intake rows. A LOAD that nothing refuses makes its context LOADING and begins the fetch
of the image's header; a START that the run accepts is answered ST_OK, and one for a
context that is neither READY nor DONE is refused with ST_BUSY; an ABORT of the run in progress ends it with
ST_ABORTED; a PATCH without `START` writes its parameters; an UNLOAD of a READY or DONE context empties it. -/
def Obligations.IntakeRowsComplete : Prop :=
  ∀ (d : Die) (r : IntakeNo) (s u : State) (bs : Bytes), let n := rqCore bs; let h := rqCtx bs
    let p := u.ringPart d.val r.val; let c := u.ringClient d.val r.val
    (s.readsType d.val r.val 1 u bs → u.serves p c n h = true →
      u.loadRefusals n (u.ctxOf n h p c).state (leNat (sliceZ bs 8 32)) = [] →
      exec (.loadRequest d r) s = .next
        (((u.setIntake d.val r.val { u.intake d.val r.val with busy := true }).setCtx n h
          { state := .loading, part := p, client := c,
            load := some { srcVa := fld (leNat (sliceZ bs 8 32)) 207 160, region := fld (leNat (sliceZ bs 8 32)) 15 6,
                           start := bit (leNat (sliceZ bs 8 32)) 0, dieRing := (d.val, r.val), hostTag := rqTag bs },
            haltReq := (u.ctx n h).haltReq }).dmaStart n h 0 32).settle) ∧
    (∀ t, s.readsType d.val r.val 2 u bs → u.presented n = true → u.serves p c n h = true →
      ((u.ctxOf n h p c).state = .ready ∨ (u.ctxOf n h p c).state = .done) → u.startRun n h = (t, .ok) →
      exec (.start d r) s = .next (t.reply d.val r.val (rqTag bs) n h .ok).settle) ∧
    (s.readsType d.val r.val 2 u bs → u.presented n = true → u.answers p c = true →
      (u.ctxOf n h p c).state ≠ .ready → (u.ctxOf n h p c).state ≠ .done →
      exec (.start d r) s = .next (u.reply d.val r.val (rqTag bs) n h .busy).settle) ∧
    (s.readsType d.val r.val 3 u bs → u.presented n = true → u.savedOf n h p c = none →
      abortReply (u.ctxOf n h p c) (fld (rqArgs bs) 15 0) = .aborted →
      exec (.abort d r) s = .next ((u.endRun n h .aborted).reply d.val r.val (rqTag bs) n h .aborted).settle) ∧
    (s.readsType d.val r.val 4 u bs → u.presented n = true → fld (rqArgs bs) 23 18 + fld (rqArgs bs) 17 11 ≤ 64 →
      ((u.ctxOf n h p c).state = .ready ∨ (u.ctxOf n h p c).state = .done) → bit (rqArgs bs) 0 = false →
      exec (.patchRequest d r) s = .next
        ((u.setCtxOf n h p c ((u.ctxOf n h p c).patch (fld (rqArgs bs) 23 18)
          (words32 (sliceZ bs 8 (4 * fld (rqArgs bs) 17 11))))).reply d.val r.val (rqTag bs) n h .ok).settle) ∧
    (s.readsType d.val r.val 5 u bs → u.presented n = true →
      ((u.ctxOf n h p c).state = .ready ∨ (u.ctxOf n h p c).state = .done) →
      exec (.unload d r) s = .next
        ((u.unloadCtx n h p c).reply d.val r.val (rqTag bs) n h .ok).settle)

/-- R126 steps 3 to 7: a header that passes its checks is taken into the context and the rest of the image is fetched; an
image that passes them is installed and its context becomes READY. R135, R136, R142: a command whose last iteration has
finished and whose streams have ended completes; a context that stands at a pre-emption point with a pre-emption requested
is saved. -/
def Obligations.LoadAndCommandEndRowsComplete : Prop :=
  ∀ (c : CoreNo) (h : CtxNo) (s : State), let n := c.val; let m := h.val;
    (∀ l : LoadReq,
      (s.ctx n m).load = some l → l.ended = true → l.bad = none →
      (l.header = none → s.headerRefusals n m (leNat (l.bytesFrom 0)) l.region = [] →
        exec (.recipeHeaderFetched c h) s = .next
          ((((s.modCtx n m fun x => { x with base := l.region, count := hCount (leNat (l.bytesFrom 0)),
                                             progBase := hProgBase (leNat (l.bytesFrom 0)),
                                             progWords := hProgWords (leNat (l.bytesFrom 0)),
                                             first := hFirst (leNat (l.bytesFrom 0)) }).setLoad n m
            { l with header := some (leNat (l.bytesFrom 0)) }).dmaStart n m 32
              (32 * (hCount (leNat (l.bytesFrom 0)) - 1))).retireCheck n).settle) ∧
      (∀ hd, l.header = some hd → imageCrc hd (l.bytesFrom 32) = true →
        s.validate (s.ctx n m).part (s.ctx n m).client m l.region (hd :: (chunks 32 (l.bytesFrom 32)).map leNat) = [] →
        s.armClash (s.ctx n m).part (armRecords (hd :: (chunks 32 (l.bytesFrom 32)).map leNat)) = false →
        exec (.recipeImageFetched c h) s = .next
          ((s.loadDone n m l (hd :: (chunks 32 (l.bytesFrom 32)).map leNat)).retireCheck n).settle)) ∧
    (∀ k : CmdRun,
      ((s.ctx n m).cmd = some k → k.phase = .last → (s.ctx n m).state = .running → (s.core n).streamsOf m = [] →
        (s.core n).maint = false → ((s.core n).exec_ = none ∨ (s.core n).exec_ = some m) → k.outcome = .ok →
        exec (.commandComplete c h) s = .next
          ((((s.overDone (s.ctx n m).part n m (s.ctx n m).lastTag).noteForward n m k).noteShadow n m k).completeCommand
            n m k.word).settle) ∧
      (s.canPreempt n m = true → (s.core n).kiln = false → (s.core n).retire = none →
        exec (.preemptionTaken c h) s = .next
          (((((s.overDone (s.ctx n m).part n m (s.ctx n m).lastTag).saveCtx n m false).1).retireCheck n).stir
            (s.ctx n m).part).settle))

/-- R137: a PATCH writes `COUNT` consecutive parameter registers from `FIRST` on and leaves the others. -/
def Obligations.PatchWritesParameters : Prop :=
  ∀ (x : Ctx) (first : Nat) (ws : List W32) (p : Nat),
    (x.patch first ws).param p =
      (if first ≤ p ∧ p < first + ws.length then (ws.getD (p - first) 0).toNat else x.param p) ∧
    (x.patch first ws).state = x.state ∧ (x.patch first ws).run = x.run ∧ (x.patch first ws).seed = x.seed ∧
    (x.patch first ws).status = x.status

/-! ### Gates, pour, lauter engines, partitions, shadows and kiln (chapters 08 to 10, 15 to 17) -/

/-- R195, R200: an arbitration whose targets are distinct and free starts its third runs; a gate that times out while its
step is open fails, and tells its parent and its children. -/
def Obligations.GateRowsComplete : Prop :=
  ∀ (p : PartNo) (s : State),
    (∀ (v w : W32) k, (s.gate p.val).key v.toNat w.toNat = some k → k.stage = 1 →
      distinct (k.reports.map fun r => s.arbTarget p.val r.core) = true →
      (k.reports.all fun r => s.presented (s.arbTarget p.val r.core) &&
        (s.ctxOf (s.arbTarget p.val r.core) (s.reg (0x9400 + p.val) 9) p.val r.client).state == .empty &&
        (s.resident p.val != r.client || (s.ctx (s.arbTarget p.val r.core) (s.reg (0x9400 + p.val) 9)).state == .empty))
          = true →
      exec (.arbitrationStart p v w) s = .next
        ((k.reports.foldl (fun (s : State) r => s.startThird p.val r)
          ((s.setGate p.val ((s.gate p.val).putKey
            { k with stage := 2, arb := (k.reports.map fun r => s.arbTarget p.val r.core).zipIdx })).restoreBars
              p.val v.toNat w.toNat)).stir p.val).settle) ∧
    (s.reg (0x9400 + p.val) 6 ≠ 0 → s.gState p.val = 1 →
      exec (.gateTimeout p) s = .next (((s.setGState p.val 4).voteUp p.val 3).voteDown p.val 3).settle)

/-- R218, R222, R226, R227: the pour rows. A flush whose copy is written and acknowledged gives its page its frame, advances
the client's flush counter, notes its success in the entry and zeroes the staging frame; a spill or a prefetch that is
complete is counted; a release with no flush outstanding takes the commands, grants the eligible entries and begins their
walk; a walk of which every write has been acknowledged writes the work list, spills and prefetches, arrives at its
barrier and posts its record. -/
def Obligations.PourRowsComplete : Prop :=
  ∀ (p : PartNo) (s t : State) (x y : Copy), let q := p.val
    (∀ d, (s.pour q).due = [] → (s.pour q).copies.find? (fun e => e.kind == .flush) = some x →
      s.copyRun q x = (t, y) → y.bad = none → y.stage = 2 →
      let a := t.setCopy q y
      let n := SMap.get 0 (a.pour q).serials y.client
      let b := a.setPour q { a.pour q with
        serials := SMap.putD 0 y.client ((n + 1) % 2 ^ 32) (a.pour q).serials }
      let b := b.setDevHalf y.entry (withLast (b.devHalf y.entry) .ok)
      let c := (b.dropCopy q y.id).setPage q ⟨y.entry, y.page, y.lg, y.client, y.tier, y.frame, n, false⟩
      c.zeroVa q y.client y.src (framePieces (c.frameBytes q) false) = (d, none) →
      exec (.flushComplete p) s = .next ((d.bump 32 (0x8600 + q) 0 1).spills q).settle) ∧
    ((s.pour q).copies.find? (fun e => e.kind != .flush && e.stage != 2) = some x → s.copyRun q x = (t, y) →
      y.bad = none → y.stage = 2 →
      let a := (t.setCopy q y).bump 32 (0x8600 + q) (if y.kind == .spill then 1 else 2) 1
      a.reg (0x9500 + q) 1 ≠ 2 → exec (.moveComplete p) s = .next a.settle) ∧
    (∀ granted, s.reg (0x9500 + q) 1 = 1 → ((s.pour q).copies.any fun e => e.kind == .flush) = false →
      (s.pour q).walk = none → (s.pour q).due = [] →
      let a := (s.scanTable.pourEntries q).foldl (fun (s : State) i => s.pourCommand q i) s.scanTable
      let order := ((a.pourEntries q).filter (a.eligible q)).foldl
        (fun l i => insertPrio (fun i => (fld (a.hostHalf i) 74 71, dWaited (a.devHalf i))) i l) []
      a.grants q order (a.reg (0x9500 + q) 2) (a.reg (0x9500 + q) 3) = (t, granted) →
      let u := t.setPour q { t.pour q with walk := some { todo := granted } }
      (u.pour q).quiet = true → (u.pour q).bad = none →
      exec (.pourRelease p) s = .next (u.goOnWalk q { todo := granted }).settle) ∧
    (∀ w e x, s.reg (0x9500 + q) 1 = 1 → ((s.pour q).copies.any fun e => e.kind == .flush) = false →
      (s.pour q).walk = some w → (s.pour q).due = [] →
      (w.blocks = none → (s.pour q).quiet = true ∧ (s.pour q).bad = none) →
      s.walkAll q w.blocks w.todo = (t, e) → e.todo = [] → (t.pour q).quiet = true →
      let recs := w.recs ++ e.recs
      let v := t.setPour q { t.pour q with walk := none }
      let step := v.reg (0x9500 + q) 0
      v.writeLocal .pour (v.reg (0x9500 + q) 5)
        (natLe 16 (step <<< 96 + recs.length) ++ recs.flatMap fun r => natLe 16 r.2) = (x, .ok) →
      let b := x.spills q
      let c := b.prefetch q (recs.flatMap fun r =>
        (b.pour q).awayPages r.1 (dLen (b.devHalf r.1) / 256) (hLG (b.govHalf r.1)))
      let k := c.reg (0x9500 + q) 4
      exec (.pourRelease p) s = .next
        (((c.arriveAt (fld k 29 24) (fld k 23 16)).setReg (0x9500 + q) 1 2).complete
          { kind := 2, status := .ok, part := q, client := 0, data := step }).settle)

/-- R247, R248, R250: the rows of a lauter engine. An accumulate of the current generation that nothing refuses joins its
block; a refused one is presented again after `lauter.retry_us`, or given up when its command has been aborted; a block open
longer than the limit fails. -/
def Obligations.LauterRowsComplete : Prop :=
  ∀ (m : MxNo) (s : State) (c : Contrib) (rest : List Contrib),
    ((s.mx m.val).queue = c :: rest → ∀ i x,
      let u := s.modMx m.val fun k => { k with queue := rest }
      cGen c.header = u.reg 0x9210 2 → (u.mx m.val).failed.contains (c.dest / 4096) = false →
      u.planFind c.dest = some i → u.arrivalRefusal m.val c (some i) = none →
      u.openBlock m.val i (c.dest / 4096) = some x →
      exec (.accum m) s = .next
        (((u.putBlock m.val (c.dest / 4096) (x.add c.header c.payload)).answerContrib m.val c .ok).advanceBlock m.val
          (c.dest / 4096)).settle) ∧
    (∀ n k va y q, (s.mx m.val).retry = c :: rest → c.sender = .stream n k va →
      let u := s.modMx m.val fun k => { k with retry := rest }
      u.stream n k = some y → y.contribReq va = some q →
      exec (.accumRetry m) s = .next
        (if y.aborted then u.setStream n k { y with reqs := y.reqs.erase q } else u.arrival m.val c).settle) ∧
    (∀ (b : BitVec 64) x, SMap.find? b.toNat (s.mx m.val).blocks = some x → s.reg 0x9210 3 ≠ 0 →
      exec (.lauterBlockTimeout m b) s = .next (s.failBlock m.val b.toNat (some x.entry) .remoteUnreachable).settle)

/-- R340, R347 to R349, R368, R369: partitions and shadow checks. A zero-fill that is complete clears the segment; at the
end of a slice the next client with work begins its switch; a switch whose contexts are all saved charges the outgoing
client and brings in the next; a shadow check starts, compares, and expires. -/
def Obligations.PartitionRowsComplete : Prop :=
  ∀ (p : PartNo) (s t : State), let q := p.val
    (∀ (d : Die) (g : SegNo), s.filling.contains (d.val * 256 + g.val) = true →
      exec (.segmentZeroFillDone d g) s = .next
        ((((s.parts.filter fun e => e.2.closing).map (·.1)).foldl State.advanceDissolve
          ({ s with filling := s.filling.filter (· != d.val * 256 + g.val),
                    mem := SMap.delIf (inSeg d.val g.val) s.mem,
                    poison := s.poison.filter fun w => !inSeg d.val g.val w,
                    flaws := SMap.delIf (inSeg d.val g.val) s.flaws } : State)).settle)) ∧
    (∀ c, s.built q = true → (s.part q).closing = false → (s.part q).switch = none → s.resident q < 8 →
      s.choose q (after (s.resident q)) = (t, some c) →
      exec (.sliceEnd p) s = .next (t.beginSwitch q c).settle) ∧
    (∀ w, (s.part q).switch = some w → s.liveCtxs q = [] → w.wasOver = false →
      let a := s.resident q
      let b := (s.setPart q { s.part q with
        charge := SMap.putD 0 a (SMap.get 0 (s.part q).charge a + (s.localNs - w.since)) (s.part q).charge }).bump 32
          (0x8D10 + a) q 1
      exec (.switchComplete p) s = .next
        ((({ b with saved := b.saved.map fun (v : Saved) =>
            if v.part == q && v.client == a then { v with kiln := false } else v } : State).becomeResident q w.dest).stir
              q).settle) ∧
    (∀ k w lo hi, (s.shadowList q)[k]? = some w → w.running = false →
      let n := s.shadowTarget q w
      let h := s.reg (0x9400 + q) 9
      let base := s.reg (0x9400 + q) 0xA
      let prog := s.reg (0x9400 + q) 0xB
      s.presented n = true → (s.ctxOf n h q w.client).state = .empty →
      (s.resident q ≠ w.client ∨ (s.ctx n h).state = .empty) → (s.core n).kiln = false → (s.core n).maint = false →
      base + w.count ≤ 1024 → prog + w.progWords ≤ 1024 →
      let img := (List.range w.count).map fun e => (SMap.get 0#256 w.recipe e).toNat
      cmdRange img = some (lo, hi) →
      exec (.shadowStart p k) s = .next
        (((s.setShadow q k { w with target := n, running := true, place := s.physPos n, result := none }).placeRun q
          w.client n h base prog (moveProg img lo hi ((1024 + prog - w.progBase) % 1024))
          ((List.range w.progWords).map (SMap.get 0#32 w.prog))
          (w.ctxOf q base prog (s.physPos n))).stir q).settle) ∧
    (∀ k w, (s.shadowList q)[k]? = some w → w.result = some (some w.digest) → w.tie = false →
      exec (.shadowComplete p k) s = .next ((s.bump 32 (0x8C00 + q) 0 1).dropShadow q k).settle) ∧
    (∀ k w, (s.shadowList q)[k]? = some w → w.running = false →
      exec (.shadowWindowExpiry p k) s = .next (s.shadowSkip q k w).settle)

/-- R379 to R387: the rows of kiln. A unit falls due; a forced slice is counted and asks for its core; a slice whose core
is free, or that has none, is isolated; its result, a segment's test, a retry, a die check and a lane loop-back have the
effects named. -/
def Obligations.KilnRowsComplete : Prop :=
  ∀ (d : Die) (x : PosNo) (s : State),
    (s.inP7 = true → s.dieUp d.val = true → s.posRetired d.val x.val = false →
      s.kiln.slices.contains (d.val, x.val) = false →
      exec (.kilnDue d false x) s = .next (s.makeDue d.val kilnCore x.val).settle) ∧
    (s.kiln.due.contains (d.val, kilnCore, x.val) = true → s.kiln.forced.contains (d.val, x.val) = false →
      s.sliceRoom d.val = true → s.quiescing = false →
      exec (.kilnForce d x) s = .next ((s.bump 32 0x8F01 d.val 1).forceSlice d.val x.val).settle) ∧
    (s.kiln.due.contains (d.val, kilnCore, x.val) = true → s.sliceRoom d.val = true → s.quiescing = false →
      s.coreAtPos d.val x.val = none →
      exec (.kilnSlice d x) s = .next (s.isolate d.val x.val).settle) ∧
    (∀ r, s.inPhase 5 = false → s.kiln.slices.contains (d.val, x.val) = true →
      exec (.kilnSliceDone d x r) s = .next
        (((s.sliceOutcome d.val x.val r).opUpdate d.val).p5Check.dbgRetry).settle) ∧
    (∀ (g : SegNo) bad, s.inPhase 5 = false → s.inP7 = true → s.quiescing = false → s.dieUp d.val = true →
      s.kiln.due.contains (d.val, kilnSegment, g.val) = true → s.segOwner d.val g.val = 0 →
      let u := (s.undue d.val kilnSegment g.val).sweepSegment d.val g.val
      u.reg (0x3180 + d.val) g.val ≠ 1 →
      exec (.segmentTest d g bad) s = .next ((u.marchSegment d.val g.val bad).p5Check.dbgRetry).settle) ∧
    (∀ g : SegNo, s.kiln.spans.contains (d.val, g.val) = true →
      exec (.segmentTestRetry d g) s = .next
        ((({ s with kiln := { s.kiln with spans := s.kiln.spans.filter (· != (d.val, g.val)) } } : State).makeDue d.val
          kilnSegment g.val).dbgRetry).settle) ∧
    (∀ u : PanelDie, 5 ≤ s.phase → s.fencedDie (unitOf u) = false → (unitOf u < 64 → s.fused (unitOf u) = false) →
      exec (.dieCheck u true true) s = .next
        ((((s.undue (unitOf u) kilnDie 0).modPower fun p =>
          { p with suspect := p.suspect.filter (· != unitOf u) }).p5Note (p5Die (unitOf u)) 0).p5Check).settle) ∧
    (∀ (y : LxNo) (k : Fin 68), 5 ≤ s.phase → s.fencedDie (80 + y.val) = false → s.inPhase 5 = true →
      s.kiln.badSlices.contains (y.val, k.val) = false →
      exec (.laneLoopback y k true) s = .next
        (((s.p5Note (p5Lane y.val k.val) 0).undue (80 + y.val) kilnPort (k.val / 8)).p5Check).settle)

/-! ### Dictionary writes (chapter 20) -/

/-- R443 to R445, R455, R459, R461: every row that writes a dictionary entry, once the management dies have booted and
no check refuses the write, ends with the entry's own rule applied, its KIND 0 record, and the sessions of a rewritten
principal slot closed; a write whose reply follows later joins the writes that wait; one of `boot.ctl` is recorded before
it acts. -/
def Obligations.DictRowsComplete : Prop :=
  ∀ (r : Instr) (o : Origin) (index sub : Nat) (value : Bytes) (s t : State),
    dictRow r = some (o, index, sub, value) → 3 ≤ s.phase → s.writeCheck o index sub value = .ok →
    (index ≠ 0x2030 → s.applyWrite o index sub value = (t, .done .ok) →
      exec r s = .next
        ((t.writeNote o index sub (s.reg index sub) (t.valueAfter index sub (leNat value)) .ok).afterWrite index sub
          (some .ok)).settle) ∧
    (∀ what left, index ≠ 0x2030 → s.applyWrite o index sub value = (t, .later what left) →
      exec r s = .next
        (({ t with waits := t.waits ++
            [⟨what, o, index, sub, s.reg index sub, value, .nobody, left⟩] } : State).settle)) ∧
    (index = 0x2030 →
      exec r s = .next
        ((s.writeNote o index sub (s.reg index sub) (leNat value) .ok).writeBoot (leNat value)).settle)

/-- R16, R443 to R445, R459: a write that a check refuses leaves its KIND 0 record, with the lowest code of what the check
found, and the sticky bit of every condition that it found; while the mirror is off it changes no entry but those of the
audit log, and neither memory, cores nor partitions. -/
def Obligations.RefusedWriteOnlyNotes : Prop :=
  ∀ (r : Instr) (o : Origin) (index sub : Nat) (value : Bytes) (s : State) (st : Status),
    dictRow r = some (o, index, sub, value) → 3 ≤ s.phase → s.writeCheck o index sub value = st → st ≠ .ok →
      let found := s.writeRefusals o index sub value
      let u := s.refuseWrite o index sub (s.reg index sub) (leNat value) found
      exec r s = .next u.settle ∧
      (∀ e ∈ found, e.sticky = true → bit (u.reg 0x1100 0x10) e.code = true) ∧
      (s.reg 0x1100 3 ≠ 1 → u.mem = s.mem ∧ u.cores = s.cores ∧ u.parts = s.parts ∧
        ∀ i j, i < 65536 → j < 256 → (i < 0x1100 ∨ 0x1300 ≤ i) → u.reg i j = s.reg i j)

/-- What each dictionary row does once it is accepted: the entry's own operation on the value that the row carries
(R201, R217, R222, R236, R251, R254, R278, R280, R302, R310, R320, R340, R343, R388, R398, R401, R426, R430, R431, R463,
R464). -/
def Obligations.DictRowEffects : Prop :=
  ∀ (s : State) (o : Origin),
    (∀ (p : PartNo) (v : W32), s.applyWrite o (0x9400 + p.val) 1 (natLe 4 v.toNat) =
      doneNow (s.writeGateStep p.val v.toNat)) ∧
    (∀ (p : PartNo) (v : W32), s.applyWrite o (0x9500 + p.val) 0 (natLe 4 v.toNat) =
      doneNow (s.writePourStep p.val v.toNat)) ∧
    (∀ v : W64, s.applyWrite o 0x9000 0 (natLe 8 v.toNat) = doneNow (s.writePour 0x9000 0 v.toNat)) ∧
    (∀ v : W32, s.applyWrite o 0x9210 0 (natLe 4 v.toNat) = doneNow (s.writePlanCommit v.toNat)) ∧
    (∀ v : Byte, s.applyWrite o 0x9210 2 (natLe 1 v.toNat) = doneNow (s.writeGeneration v.toNat)) ∧
    (∀ (p : PartNo) (cl : ClientNo) (v : W64), s.applyWrite o (0x3900 + p.val) cl.val (natLe 8 v.toNat) =
      s.writeInvalidate p.val cl.val v.toNat) ∧
    (∀ (p : PartNo) (cl : ClientNo) (v : W64), v.toNat < 2 ^ 36 →
      s.applyWrite o (0x3A00 + p.val) cl.val (natLe 8 (setFld v.toNat 36 36 0)) =
        doneNow (s.writeResume p.val cl.val v.toNat) ∧
      s.applyWrite o (0x3A00 + p.val) cl.val (natLe 8 (setFld v.toNat 36 36 1)) =
        doneNow (s.writeResume p.val cl.val (2 ^ 36 + v.toNat))) ∧
    (∀ w : WindowNo, s.applyWrite o 0x3C00 0 (natLe 4 (2 ^ 30 + w.val)) = s.writeWinCtl (2 ^ 30 + w.val) ∧
      s.applyWrite o 0x3C00 0 (natLe 4 (2 ^ 31 + w.val)) = s.writeWinCtl (2 ^ 31 + w.val)) ∧
    (∀ (g : PortNo) (v : Byte), s.applyWrite o 0x5010 g.val [v] =
      doneNow ((s.writePortEnable g.val v.toNat).1.p6Check, (s.writePortEnable g.val v.toNat).2)) ∧
    (∀ (dev : DeviceId) (v : W32), s.applyWrite o (0x5100 + dev.val / 256) (dev.val % 256) (natLe 4 v.toNat) =
      doneNow (s.writeRoute dev.val v.toNat)) ∧
    (∀ (p : HostPort) (q : QpNo) (v : BitVec 512),
      s.applyWrite o (0x5810 + 4 * p.val + q.val / 256) (q.val % 256) (natLe 64 v.toNat) =
        doneNow (s.writeQp p.val q.val v.toNat)) ∧
    (∀ p : PartNo, s.applyWrite o (0x4000 + p.val) 2 [1#8] = s.writePartCtl p.val 1 ∧
      s.applyWrite o (0x4000 + p.val) 2 [2#8] = s.writePartCtl p.val 2) ∧
    (∀ (d : Die) (g : SegNo) (p : PartNo),
      s.applyWrite o (0x4300 + d.val) g.val (natLe 2 (ownWord 1 0 p.val)) =
        doneNow (s.writeSegOwner d.val g.val (ownWord 1 0 p.val)) ∧
      s.applyWrite o (0x4300 + d.val) g.val [0#8, 0#8] = doneNow (s.writeSegOwner d.val g.val 0)) ∧
    (∀ (p : PartNo) (cl : ClientNo) (v : BitVec 16), s.applyWrite o (0x4100 + p.val) cl.val (natLe 2 v.toNat) =
      doneNow (s.writeSliceMs p.val cl.val v.toNat)) ∧
    (∀ v : W32, s.applyWrite o 0x6800 3 (natLe 4 v.toNat) = doneNow (s.writeKilnRequest v.toNat)) ∧
    (∀ n : Byte, s.applyWrite o 0x2000 2 [n] = s.writeRefCtl n.toNat) ∧
    (∀ (d : Die) (v : Byte), s.applyWrite o 0x2010 d.val [v] = doneNow (s.writeOpTarget d.val v.toNat)) ∧
    (∀ chunk data, chunk < 12288 → s.applyWrite o (0x7100 + chunk / 256) (chunk % 256) data =
      doneNow (s.writeStage chunk data)) ∧
    (∀ n : Byte, s.applyWrite o 0x7000 1 [n] = doneNow (s.writeFwCtl n.toNat)) ∧
    (∀ nonce : BitVec 256, s.applyWrite o 0x7011 0 (natLe 32 nonce.toNat) = doneNow (s.writeNonce nonce.toNat)) ∧
    (∀ (k : Fin 16) (v : BitVec 640), s.applyWrite o 0x7020 k.val (natLe 80 v.toNat) =
      doneNow (s.writePrincipal k.val v.toNat)) ∧
    (∀ mask : W256, s.applyWrite o 0x1100 0x11 (natLe 32 mask.toNat) = (s.clearSticky o mask.toNat, .done .ok)) ∧
    (∀ v : BitVec 128, s.applyWrite o 0x1100 1 (natLe 16 v.toNat) =
      (s.record { kind := 4, origin := o, index := 0x1100, sub := 1, new := v.toNat }, .done .ok))

/-- R10: the little-endian bytes of a value give the value back, and any byte sequence is that of its value. -/
def Obligations.LittleEndianRoundTrip : Prop :=
  (∀ len v, v < 256 ^ len → leNat (natLe len v) = v) ∧ ∀ bs : Bytes, natLe bs.length (leNat bs) = bs

/-- R460, R462, R463: a record takes the next sequence number modulo 2^32, stands in the slot of its number, and leaves
byte memory, cores, partitions and the queue as they were while the mirror is off. -/
def Obligations.RecordFrame : Prop :=
  ∀ (s : State) (r : AuditRec), s.reg 0x1100 3 ≠ 1 → r.status.sticky = false →
    (s.record r).reg 0x1100 0 = (s.reg 0x1100 0 + 1) % 2 ^ 32 ∧
    (s.record r).reg (0x1200 + s.reg 0x1100 0 % Config.auditSlots / 256) (s.reg 0x1100 0 % Config.auditSlots % 256) =
      r.word s.localNs (s.reg 0x1100 0) ∧
    (∀ index sub, index < 65536 → sub < 256 → index ≠ 0x1100 → (index < 0x1200 ∨ 0x1300 ≤ index) →
      (s.record r).reg index sub = s.reg index sub) ∧
    (s.record r).mem = s.mem ∧ (s.record r).cores = s.cores ∧ (s.record r).parts = s.parts ∧
    (s.record r).pending = s.pending ∧ (s.record r).out = s.out

/-- R373, R464: the sticky bit of a status set by a record stays set under every later record, and names the first
record that set it. -/
def Obligations.StickyBitsStay : Prop :=
  ∀ (s : State) (r : AuditRec) (c : Nat), c < 256 → bit (s.reg 0x1100 0x10) c = true →
    bit ((s.record r).reg 0x1100 0x10) c = true ∧ (s.record r).reg 0x1110 c = s.reg 0x1110 c

/-! ### Memory, translation and windows (chapters 04, 11, 12) -/

/-- R75, R82, R255 to R257, R261, R265, R278, R287: the rows of memory upkeep and of waiting writes. A scrubber visits the
words of its next row, or its next
word, and moves on; a maintenance read of a core in maintenance mode answers its elements; a refresh poll takes the
readout and counts the write link errors; training builds the map and the zero-fill clears LPDDR5X and enters P5; the
WCK oscillator adjusts the MX die's own timing, which is no state of the machine. A write that waits for an invalidation
is answered once it is complete; a window that closes is shut once its accesses have ended, its writers are answered, and
a dissolve may go on. -/
def Obligations.MemoryRowsComplete : Prop :=
  ∀ (s : State),
    (∀ c : CoreNo, s.presented c.val = true →
      let row := (s.core c.val).scrubRow
      exec (.spScrubVisit c) s = .next
        ((((List.range 32).flatMap fun b => (List.range 4).map fun i =>
            spBase c.val + b * 0x3000 + row * 32 + 8 * i).foldl
          (fun (s : State) w => s.scrubWord (c.val / 256) (detail1 0xFF 0xFF c.val 0) w) s).modCore c.val fun k =>
            { k with scrubRow := (row + 1) % 384 }).settle) ∧
    (∀ (d : Die) (b : Fin 16), s.fused d.val = false → s.fencedDie d.val = false →
      let row := SMap.get 0 s.tunRows (d.val * 16 + b.val)
      let off := tunOffset b.val (row * 1024)
      s.reg (0x3180 + d.val) (off / 0x400000) ≠ 2 →
      let t := ((List.range 128).map fun i => tunBase d.val + off + 8 * i).foldl
        (fun (s : State) w => s.scrubWord d.val (detail1 0xFF 0xFF 0xFFFF (off / 0x400000)) w) s
      exec (.tunScrubVisit d b) s = .next
        (({ t with tunRows := SMap.putD 0 (d.val * 16 + b.val) ((row + 1) % 45056) t.tunRows } : State).settle)) ∧
    (∀ (m : MxNo) (ch : Fin 8) a,
      let k := SMap.get 0 s.lpWords (m.val * 8 + ch.val)
      s.lpEncode m.val ch.val (32 * k) = some a →
      let t := s.scrubWord (64 + m.val) (detail1 0xFF 0xFF 0xFFFF (m.val * 8 + ch.val)) a
      exec (.lpddrScrubVisit m ch) s = .next
        (({ t with lpWords := SMap.putD 0 (m.val * 8 + ch.val) ((k + 1) % (chBytes / 32)) t.lpWords } : State).settle)) ∧
    (∀ (c : CoreNo) dbg r t bs, s.fused (c.val / 256) = false → s.inMaint c.val = true → maintOk r = true →
      s.maintElems c.val r.elemBytes (maintOffsets r) = (t, .ok, bs) →
      exec (.maintenanceRead c dbg r) s = .next (({ t with maintOut := some (.ok, bs) } : State).settle)) ∧
    (∀ (m : MxNo) (r : Fin 6) errs, r.val ≠ 5 →
      exec (.refreshPoll m r errs) s = .next
        (((errs.take 8).zipIdx).foldl (fun (s : State) e => s.bump 32 (0x8820 + m.val) e.2 e.1)
          (s.setReg 0x3030 m.val r.val)).settle) ∧
    (∀ m : MxNo, exec (.wckOscillator m) s = .next s) ∧
    (∀ ids, s.inPhase 4 = true → s.power.trained = false → s.power.fenced = [] →
      let u := ((ids.map BitVec.toNat).take 16).zipIdx.foldl (fun (s : State) (e : Nat × Nat) => s.setReg 0x1013 e.2 e.1) s
      let v := u.setReg 0x3000 0 u.lpUsable
      exec (.lpddrTrainingDone [] ids) s = .next
        (({ v with power := { v.power with trained := true } } : State).settle)) ∧
    (s.inPhase 4 = true → s.power.trained = true →
      let u : State := { s with
        mem := s.mem.filter fun e => !inLpddr e.1, poison := s.poison.filter fun w => !inLpddr w,
        flaws := s.flaws.filter fun e => !inLpddr e.1, gens := s.gens.filter fun e => !inLpddr (e.1 * 65536) }
      exec .zeroFillDone s = .next (u.checkCask.checkPour.checkMirror.setPhase 5).settle) ∧
    (∀ (p : PartNo) (cl : ClientNo),
      exec (.invalidateComplete p cl) s = .next
        ((s.waits.filter (s.waitOver (.invalidate p.val cl.val))).foldl (fun (s : State) w => s.endWait w .ok)
          ({ s with waits := s.waits.filter fun w => !s.waitOver (.invalidate p.val cl.val) w } : State)).settle) ∧
    (∀ w : WindowNo, winState (s.win w.val) = 2 → s.closeDone w.val = true →
      let u := s.shutWindow w.val
      exec (.windowCloseComplete w) s = .next
        (({ u with events := u.events ++ [.answer (.window w.val) .ok] } : State).advanceDissolve
          (winPart (s.win w.val))).settle)

/-- R73, R88: a stored range is read back byte for byte, and every byte outside it reads as before. -/
def Obligations.StoreFrame : Prop :=
  ∀ (s : State) (a : Nat) (bs : Bytes) (gen : Bool) (x : Nat),
    (s.store a bs gen).byte x = (if a ≤ x ∧ x < a + bs.length then bs.getD (x - a) 0#8 else s.byte x) ∧
    (s.store a bs gen).dict = s.dict ∧ (s.store a bs gen).cores = s.cores ∧
    (s.store a bs gen).barriers = s.barriers ∧ (s.store a bs gen).pending = s.pending

/-- R87, R88: a write request advances the generation of each granule it touches, by one modulo 2^32, before it is
acknowledged, and of no other. -/
def Obligations.WritesAdvanceGenerations : Prop :=
  ∀ (s : State) (a : Nat) (bs : Bytes) (g : Nat), bs ≠ [] → (∀ x, a ≤ x → x < a + bs.length → place x = .lpddr) →
    SMap.get 0 (s.store a bs true).gens g =
      if a / 65536 ≤ g ∧ g ≤ (a + bs.length - 1) / 65536 then (SMap.get 0 s.gens g + 1) % 2 ^ 32
      else SMap.get 0 s.gens g

/-- R73, R74, R262: a write request happens whole or not at all: when a word that it covers in part cannot be read, or the
link does not deliver it, no byte changes and the status is ST_ECC_UNCORRECTABLE; otherwise the status is ST_OK and all its
bytes are stored. -/
def Obligations.WritesWholeOrNot : Prop :=
  ∀ (s : State) (a : Nat) (bs : Bytes) (gen : Bool) (tag : Nat),
    ((s.writeMem a bs gen tag).2 = .ok ∧
      ∀ x, (s.writeMem a bs gen tag).1.byte x = if a ≤ x ∧ x < a + bs.length then bs.getD (x - a) 0#8 else s.byte x) ∨
    ((s.writeMem a bs gen tag).2 = .eccUncorrectable ∧ bs ≠ [] ∧ partWords a bs.length ≠ [] ∧
      ((∃ w ∈ partWords a bs.length, s.poisoned w = true ∨ SMap.get 0 s.flaws w ≠ 0) ∨
        (place a = .lpddr ∧ s.linkErrs ≠ [])) ∧
      (s.reg 0x1100 3 ≠ 1 → ∀ x, (s.writeMem a bs gen tag).1.byte x = s.byte x))

/-- R74, R262: a read of a range with a poisoned word delivers no byte of it; a read of sound words over a sound link
changes nothing and delivers the bytes stored; a read whose link fails a third time delivers no byte, completes with
ST_ECC_UNCORRECTABLE and poisons nothing. -/
def Obligations.PoisonIsNotDelivered : Prop :=
  ∀ (s : State) (a len tag : Nat),
    ((∃ w ∈ wordsOf a len, s.poisoned w = true) → (s.readMem a len tag).2 = (.eccUncorrectable, [])) ∧
    ((∀ w ∈ wordsOf a len, s.poisoned w = false ∧ SMap.get 0 s.flaws w = 0) → (place a ≠ .lpddr ∨ s.linkErrs = []) →
      s.readMem a len tag = (s, .ok, s.bytes a len)) ∧
    (∀ k f e, place a = .lpddr → s.lpChannels a len = [k] → SMap.find? k s.linkErrs = some (f, e) → 3 ≤ f →
      (s.readMem a len tag).2 = (.eccUncorrectable, []) ∧
        (s.reg 0x1100 3 ≠ 1 → (s.readMem a len tag).1.poison = s.poison))

/-- R258, R260: below the usable capacity the address decode of LPDDR5X loses nothing: the channel address it gives names
the same local address again, lies in a good channel, and stays within the channel. The check bits of a channel's words lie
above its data and below its last 32 MiB, two bytes for each word; a stored code word is whole, has one flipped bit, which a
read corrects, or is uncorrectable. -/
def Obligations.LpddrDecodeIsExact : Prop :=
  (∀ (s : State) (a : Nat), a < s.lpUsable →
    (s.lpDecode a).1 < 16 ∧ (s.lpDecode a).2.1 ∈ s.goodChannels (s.lpDecode a).1 ∧
    (s.lpDecode a).2.2 < chBytes ∧
    s.lpEncode (s.lpDecode a).1 (s.lpDecode a).2.1 (s.lpDecode a).2.2 = some a) ∧
  (checkAddr 0x2468AD40 = 0x1E2468AD4 ∧
    ∀ ca, ca < chBytes → ca % 32 = 0 → chBytes ≤ checkAddr ca ∧ checkAddr ca + 2 ≤ checkTail ∧
      ∀ cb, checkAddr cb = checkAddr ca → cb % 32 = 0 → cb = ca) ∧
  (∀ v, (errClass v = 0 ↔ v = 0) ∧ (errClass v = 1 ↔ ∃ i, v = 2 ^ i) ∧ errClass v ≤ 2) ∧
  ∀ (s : State) (w tag : Nat), s.poisoned w = false → s.flawOf w = 1 →
    (s.readWord w tag).2 = true ∧ SMap.get 0 (s.readWord w tag).1.flaws w = 0 ∧ (s.readWord w tag).1.mem = s.mem

/-- R118, R119: an arrival counts, and the arrival that completes the count clears it and advances the phase modulo 2^16;
no other object changes. The condition of a wait holds for a target just reached, for every phase up to 32,767 beyond it,
and for no other. -/
def Obligations.BarrierCounts : Prop :=
  (∀ (s : State) (d b : Nat), let x := s.barrier d b; let y := (s.arriveAt d b).barrier d b;
    (x.arrived + 1 ≠ x.expect → y = { x with arrived := x.arrived + 1 }) ∧
    (x.arrived + 1 = x.expect → y = { x with arrived := 0, phase := (x.phase + 1) % 65536 }) ∧
    (∀ e c, e * 256 + c ≠ d * 256 + b → (s.arriveAt d b).barrier e c = s.barrier e c) ∧
    (s.arriveAt d b).mem = s.mem ∧ (s.arriveAt d b).cores = s.cores ∧ (s.arriveAt d b).dict = s.dict) ∧
  ∀ (b : Barrier) (target k : Nat), b.phase < 65536 → target < 65536 → k < 65536 → b.phase = (target + k) % 65536 →
    (b.reached target = true ↔ k < 32768)

/-- R99, R101, R102: a commit moves the tail and the producer position by one and records the slot's seal; a release
moves the head and the consumer position by one; so the slots held rise and fall by one, and the other ring ends stay. -/
def Obligations.RingCounts : Prop :=
  ∀ (s : State) (n rn : Nat) (r : Ring) (x : Option SlotRec), s.ring n rn = some r → r.tail < 65536 → r.head < 65536 →
    (∃ c, (s.commitSlot n rn x).ring n rn = some c ∧ c.tail = (r.tail + 1) % 65536 ∧ c.head = r.head ∧
      c.prodPos = (r.prodPos + 1) % r.slots ∧ c.consPos = r.consPos ∧
      SMap.get 0 c.seals r.prodPos = s.slotSeal n r r.prodPos ∧ (r.held < 65535 → c.held = r.held + 1)) ∧
    (∃ c, (s.releaseSlot n rn).ring n rn = some c ∧ c.head = (r.head + 1) % 65536 ∧ c.tail = r.tail ∧
      c.consPos = (r.consPos + 1) % r.slots ∧ c.prodPos = r.prodPos ∧ (0 < r.held → c.held + 1 = r.held)) ∧
    (s.commitSlot n rn x).mem = s.mem ∧ (s.releaseSlot n rn).mem = s.mem

/-! ### Links and transactions (chapter 13) -/

/-- R297 to R305, R312, R314: the rows of the link ports, one by one. A sound flit that carries the
next payload is acknowledged, taken, and followed by what the port has to send; the retry timer goes back, and takes the port
down once it has gone back 16 times; MAP, CONFIG and DONE frames take a training port on; light, lock, loss, a lane that has
lost lock or exceeds a limit of R315, and the time-outs move the port between the states of R302; the re-route hold and the
epoch cache forget a device. -/
def Obligations.LinkRowsComplete : Prop :=
  ∀ (g : PortNo) (s : State),
    (∀ f : BitVec 2048, s.portState g.val = 5 → crcOk f.toNat = true → fld f.toNat 7 0 = 0 → fld f.toNat 32 31 = 1 →
      let u := s.takeAck g.val f.toNat
      u.portState g.val = 5 → fld f.toNat 63 52 = (u.port g.val).rxNext →
      let v := u.takePayload g.val f.toNat
      v.portState g.val = 5 →
      let w := v.pumpPort g.val ((v.port g.val).outq.length + 1)
      exec (.flit g f false) s = .next (if w.out.length = v.out.length then w.sendFlit g.val none else w).settle) ∧
    (s.portState g.val = 5 → (s.port g.val).retry ≠ [] → (s.port g.val).resends < 16 →
      exec (.retryTimer g) s = .next
        ((s.setPort g.val { s.port g.val with resends := (s.port g.val).resends + 1 }).resend g.val
          (s.port g.val).retry).settle) ∧
    (s.portState g.val = 5 → (s.port g.val).retry ≠ [] → 16 ≤ (s.port g.val).resends →
      exec (.retryTimer g) s = .next (s.portDown g.val 1).settle) ∧
    (∀ f : BitVec 2048, frameOk f.toNat 1 = true → s.portState g.val = 5 →
      exec (.mapFrame g f) s = .next (s.enterRepair g.val 0).settle) ∧
    (∀ f : BitVec 2048, frameOk f.toNat 1 = true → s.portState g.val ≠ 5 → s.mapping g.val = true →
      let x := s.port g.val
      let u := (s.setPort g.val { x with peerMask := some (frReport f.toNat) }).reserveSpares (g.val / 8)
      ((u.port g.val).locked &&& (frReport f.toNat).1) % 256 = 255 →
      exec (.mapFrame g f) s = .next (u.fixLanes g.val (frReport f.toNat)).settle) ∧
    (∀ f : BitVec 2048, frameOk f.toNat 2 = true → s.portState g.val ≠ 5 → s.configuring g.val = true →
      (s.port g.val).cfgGot = none → (s.port g.val).repair = false → frDevice f.toNat ≠ s.ownId →
      frLevel f.toNat ≠ 0 →
      let u := (s.setReg 0x5040 g.val
        (2 ^ 31 + (frLx f.toNat * 8 + frPort f.toNat) * 2 ^ 24 + frDevice f.toNat))
      let v := u.setReg 0x5050 g.val
        (setFld (setFld (s.reg 0x5050 g.val) 15 8 (min (s.reg 0x5000 1) (frLevel f.toNat))) 7 0 (frEpoch f.toNat))
      let w := (v.setPort g.val { s.port g.val with cfgGot := some f.toNat, doneSent := true }).cacheEpoch
        (frDevice f.toNat) (frEpoch f.toNat)
      exec (.configFrame g f) s = .next
        (((w.sendTraining g.val 3 ((bitList (s.port g.val).active 9).map (w.waveOf g.val))).goActive g.val).p6Check).settle) ∧
    (∀ (f : BitVec 2048) rt, frameOk f.toNat 3 = true → s.portState g.val ≠ 5 → s.configuring g.val = true →
      let u := s.setReg 0x5050 g.val
        (setFld (s.reg 0x5050 g.val) 31 16 (min ((rt - fld f.toNat 186 171) / 2) 65535))
      exec (.doneFrame g f rt) s = .next
        (((u.setPort g.val { u.port g.val with doneGot := true }).goActive g.val).p6Check).settle) ∧
    (∀ l : Fin 9, s.portState g.val = 1 →
      exec (.lightDetected g l) s = .next
        ((s.setPort g.val { s.port g.val with light := (s.port g.val).light ||| 2 ^ l.val }).setReg 0x5020 g.val 2).settle) ∧
    (∀ m : BitVec 9, s.portState g.val = 2 → (s.port g.val).spare = false →
      exec (.lockComplete g m) s = .next
        ((((s.setPort g.val { s.port g.val with locked := m.toNat % 256 }).setReg 0x5020 g.val 3).sendMap
          g.val).reserveSpares (g.val / 8)).settle) ∧
    ((s.port g.val).paused = true → exec (.mapPauseExpiry g) s = .next (s.portDown g.val 1).settle) ∧
    ((s.portState g.val = 4 ∨ s.portState g.val = 6) →
      exec (.portStateTimeout g) s = .next (s.portDown g.val 1).settle) ∧
    (s.portState g.val = 3 → (s.port g.val).paused = false →
      exec (.portStateTimeout g) s = .next
        (s.fixLanes g.val ((s.port g.val).peerMask.getD (0, false))).settle) ∧
    (∀ (l : Fin 9) lost marked corrected symbols,
      let u := (s.bump 64 0x8A02 g.val corrected).bump 32 0x8A03 g.val marked
      u.portState g.val = 5 →
      exec (.laneFail g ⟨l, lost, marked, corrected, symbols⟩) s = .next
        (if lost = true ∨ u.reg 0x5000 4 ≤ marked ∨ u.serOver corrected symbols = true then
          u.enterRepair g.val (2 ^ l.val) else u).settle) ∧
    (s.portState g.val = 5 → exec (.lossOfLight g) s = .next (s.portDown g.val 1).settle) ∧
    (∀ dev : DeviceId, exec (.rerouteHoldExpiry dev) s = .next
      (({ s with holds := s.holds.filter (· != dev.val) } : State).settle)) ∧
    (∀ dev : DeviceId, exec (.epochCacheExpiry dev) s = .next
      (({ s with epochs := s.epochs.filter fun e => e.1 != dev.val } : State).settle))

/-- R286, R289, R308, R309, R345: the rows of fabric transactions. The oldest inbound transaction of a link die is consumed
and its buffers are free again; an admitted WRITE or READ outside the save areas acts and is answered with its status, one of a
save area is refused, and one that has to wait changes nothing; an admitted ARRIVE arrives; a vote is delivered; a window
that its controller opens is open; an epoch query is answered; a response that fits the request that it names ends it, and
one that does not is discarded and counted; giving a request up takes it out of its port's queue and ends it. -/
def Obligations.TransactionRowsComplete : Prop :=
  ∀ (x : LxNo) (s : State) (t : Txn) (rest : List Txn), (s.lx x.val).inq = t :: rest →
    let u := (s.setLx x.val { s.lx x.val with inq := rest }).freeBufs t
    (∀ v w st, t.op = 1 → s.txnHeld x.val = false → u.admitTxn x.val t t.len .write = (v, .ok) →
      inWindowMem t.addr = true → v.inSaveArea t.addr = false → v.writeLocal .engine t.addr t.data = (w, st) →
      exec (.write x) s = .next (w.answerTxn x.val t st).settle) ∧
    (∀ v w st bs, t.op = 2 → s.txnHeld x.val = false → u.admitTxn x.val t t.len .read = (v, .ok) →
      inWindowMem t.addr = true → v.inSaveArea t.addr = false → v.readLocal t.addr t.len = (w, st, bs) →
      exec (.read x) s = .next (w.answerTxn x.val t st bs).settle) ∧
    (∀ v, s.txnHeld x.val = false → v.inSaveArea t.addr = true →
      (t.op = 1 → u.admitTxn x.val t t.len .write = (v, .ok) →
        exec (.write x) s = .next (v.respond t .accessDenied).settle) ∧
      (t.op = 2 → u.admitTxn x.val t t.len .read = (v, .ok) →
        exec (.read x) s = .next (v.respond t .accessDenied).settle)) ∧
    (s.txnHeld x.val = true → exec (.write x) s = .next s.settle ∧ exec (.read x) s = .next s.settle) ∧
    (∀ v d b, t.op = 4 → place t.addr = .arrival d b 0 →
      u.admitTxn x.val t 32 .arrive = (v, .ok) → v.fused d = false →
      exec (.arriveTransaction x) s = .next ((v.arriveAt d b).respond t .ok).settle) ∧
    (∀ v st, t.op = 5 →
      u.deliverVote (fld t.aux 31 24) t.src (fld t.aux 23 16) (fld t.aux 63 32) (fld t.aux 1 0) = (v, st) →
      exec (.gateVote x) s = .next (v.respond t st).settle) ∧
    (∀ v, t.op = 6 → u.controls t.src (fld t.aux 11 0) = true → u.openWindow (fld t.aux 11 0) = (v, .ok) →
      exec (.winOpen x) s = .next (v.respond t .ok [] (winInc (v.win (fld t.aux 11 0)))).settle) ∧
    (∀ v what left, t.op = 7 → u.controls t.src (fld t.aux 11 0) = true →
      u.closeWindow (fld t.aux 11 0) = (v, .later what left) →
      exec (.winClose x) s = .next
        (({ v with waits := v.waits ++ [⟨what, v.kdOrigin, 0, 0, 0, [], .fabric t, left⟩] } : State).settle)) ∧
    (t.op = 8 → exec (.epochQuery x) s = .next (u.respond t .ok).settle) ∧
    (∀ o, SMap.find? t.txn (u.lx t.srcLink).outst = some o →
      let v := if o.fits t then
          u.settleTxn t.srcLink t.txn (.ofCode (fld t.aux 7 0)) (fld t.aux 31 24) t.data
        else u.bump 32 0x8A05 x.val 1
      (t.op = 9 → exec (.resp x) s = .next v.settle) ∧ (t.op = 10 → exec (.readData x) s = .next v.settle)) ∧
    (∀ (n : BitVec 12) o, SMap.find? n.toNat (s.lx x.val).outst = some o →
      let v := s.setPort o.port { s.port o.port with
        outq := (s.port o.port).outq.filter fun e => !Txn.isOwn s x.val n.toNat e.2 }
      exec (.transactionAbandon x n) s = .next
        ((v.bump 32 0x8A04 x.val 1).settleTxn x.val n.toNat .remoteUnreachable 0 []).settle)

/-- R302: whatever a link-port row does, a port that is DISABLED stays DISABLED, and but for the counts of a lane's receiver
nothing changes. -/
def Obligations.DisabledPortsStay : Prop :=
  ∀ (g : PortNo) (s : State) (r : Instr), s.events = [] → s.portState g.val = 0 →
    (s.port g.val).paused = false →
    ((∃ f m, r = .flit g f m) ∨ r = .retryTimer g ∨ (∃ f, r = .mapFrame g f) ∨
    (∃ l, r = .lightDetected g l) ∨ (∃ m, r = .lockComplete g m) ∨ r = .mapPauseExpiry g ∨ r = .portStateTimeout g ∨
    r = .lossOfLight g → exec r s = .next s) ∧
    ∀ l lost marked corrected symbols, r = .laneFail g ⟨l, lost, marked, corrected, symbols⟩ →
      exec r s = .next ((s.bump 64 0x8A02 g.val corrected).bump 32 0x8A03 g.val marked) ∧
      ((s.bump 64 0x8A02 g.val corrected).bump 32 0x8A03 g.val marked).portState g.val = 0
/-! ### Host ports (chapter 14) -/

/-- R316 to R321, R323, R333: the rows of the host ports: flow control, congestion, acknowledgements, what arrives, and
the tail counts, each in the case in which the row acts. A request that finds the receive buffer empty is served at once; one
behind a request that waits joins the buffer. XOFF goes out above 1.5 MiB and XON below 1 MiB. -/
def Obligations.HostRowsComplete : Prop :=
  ∀ (p : HostPort) (q : QpNo) (s : State), let a := p.val; let b := q.val
    (∀ quanta : BitVec 16, s.linkUp a = true → quanta ≠ 0 →
      let u := s.rxFrames a 1
      exec (.pfcFrame p quanta) s = .next (u.setHport a { u.hport a with paused := true }).settle) ∧
    (s.linkUp a = true → exec (.pfcRefresh p) s = .next
      (((s.setHport a { s.hport a with xoff := true }).bump 32 0x8B01 a 1).emit
        (.pfc a (s.reg (0x5800 + a) 4) 0xFFFF)).settle) ∧
    (s.linkUp a = true → s.qpState a b ≠ 0 →
      exec (.cnp p q) s = .next
        ((s.rxFrames a 1).setQp a b { s.qp a b with rate := max 1000000000 ((s.qp a b).rate / 2) }).settle) ∧
    (s.qpState a b ≠ 0 →
      exec (.cnpRateRecovery p q) s = .next
        (s.setQp a b { s.qp a b with rate := min lineRate ((s.qp a b).rate + 4000000000) }).settle) ∧
    (∀ ce data d r u, s.servesRoce a b (s.packets a b data.length) ce (.send data) u →
      u.ringOf a b = some (d, r) → 64 ≤ u.intakeFree d r → (u.intake d r).got = 0 → (u.intake d r).curVoid = false →
      exec (.send p q ce data) s = .next
        ((((u.intakeBytes d r 0 data).intakeCommit d r data.length).sendAck a b data.length).flowControl a).settle) ∧
    (∀ ce (va : W64) (rkey : W32) data u v w, rkey ≠ 0 →
      s.servesRoce a b (s.packets a b data.length) ce (.write va.toNat rkey.toNat data) u →
      u.hostWindow a b rkey.toNat va.toNat data.length .write = (v, .ok) →
      v.writeLocal .host va.toNat data = (w, .ok) →
      exec (.rdmaWrite p q ce va rkey data) s = .next ((w.sendAck a b data.length).flowControl a).settle) ∧
    (∀ ce (va : W64) (rkey : W32) len u v w bs, rkey ≠ 0 →
      s.servesRoce a b 1 ce (.read va.toNat rkey.toNat len) u →
      u.hostWindow a b rkey.toNat va.toNat len .read = (v, .ok) →
      v.readLocal va.toNat len = (w, .ok, bs) →
      exec (.rdmaRead p q ce va rkey len) s = .next ((w.sendData a b bs).flowControl a).settle) ∧
    (∀ ce (d : Die) (r : IntakeNo) (v : W64) u w,
      let page := 0x13001000000 + d.val * 0x100000 + r.val * 0x10000 + 0x8000
      s.servesRoce a b (s.packets a b 8) ce (.write page 0 (natLe 8 v.toNat)) u →
      u.pageWrite a b page (natLe 8 v.toNat) = some w →
      exec (.commitDoorbell p ⟨q, ce⟩ d r v) s = .next ((w.sendAck a b 8).flowControl a).settle) ∧
    (∀ ce (va : W64) (rkey : W32) data v x t, s.takesRoce a b (s.packets a b data.length) ce v →
      (v.hport a).inq = x :: t →
      let w := v.setHport a { v.hport a with inq := x :: t ++ [(b, .write va.toNat rkey.toNat data)] }
      w.rxWaits x.2 = true →
      exec (.rdmaWrite p q ce va rkey data) s = .next (w.flowControl a).settle) ∧
    (s.linkUp a = true →
      ((s.hport a).xoff = false → 0x180000 < s.rxHeld a →
        s.flowControl a = ((s.setHport a { s.hport a with xoff := true }).bump 32 0x8B01 a 1).emit
          (.pfc a (s.reg (0x5800 + a) 4) 0xFFFF)) ∧
      ((s.hport a).xoff = true → s.rxHeld a < 0x100000 →
        s.flowControl a = (s.setHport a { s.hport a with xoff := false }).emit (.pfc a (s.reg (0x5800 + a) 4) 0)) ∧
      (0x100000 ≤ s.rxHeld a → s.rxHeld a ≤ 0x180000 → s.flowControl a = s)) ∧
    (∀ ce u x t, s.takesRoce a b 1 ce u → (u.qp a b).unacked = x :: t → x.read = false → x.sent = true →
      exec (.ack p ⟨q, ce⟩) s = .next
        (((u.setQp a b { u.qp a b with unacked := t, retries := 0, rnrs := 0 }).acked x []).qpPump a b).settle) ∧
    (∀ ce data u x t, s.takesRoce a b (s.packets a b data.length) ce u →
      (u.qp a b).unacked = x :: t → x.read = true → x.sent = true → x.len = data.length →
      exec (.rdmaReadResponse p ⟨q, ce⟩ data) s = .next
        (((u.setQp a b { u.qp a b with unacked := t, retries := 0, rnrs := 0 }).acked x data).qpPump a b).settle) ∧
    (∀ ce u, s.takesRoce a b 1 ce u → exec (.nak p ⟨q, ce⟩) s = .next (u.qpError a b).settle) ∧
    (∀ ce u, s.takesRoce a b 1 ce u →
      (u.qp a b).unacked.all (fun w => !w.sent) = false → fld (u.qpCtx a b) 246 244 = 7 →
      exec (.rnrNak p ⟨q, ce⟩) s = .next ((u.setQp a b { u.qp a b with rnrs := (u.qp a b).rnrs + 1 }).qpResend a b).settle) ∧
    (s.qpState a b = 1 → (s.qp a b).unacked.all (fun w => !w.sent) = false →
      (s.qp a b).retries < fld (s.qpCtx a b) 249 247 →
      exec (.qpRetransmitTimeout p q) s = .next
        ((s.setQp a b { s.qp a b with retries := (s.qp a b).retries + 1 }).qpResend a b).settle) ∧
    (∀ (target sender : W32) (mac : BitVec 48), s.linkUp a = true →
      let u := s.rxFrames a 1
      u.reg (0x5800 + a) 1 ≠ 0 → u.reg (0x5800 + a) 1 = target.toNat →
      exec (.arpRequest p target sender mac) s = .next
        (u.emit (.frame a (u.ethernet a mac.toNat 0x0806
          (natBe 2 1 ++ natBe 2 0x0800 ++ natBe 1 6 ++ natBe 1 4 ++ natBe 2 2 ++ natBe 6 (u.macOf a) ++
            natBe 4 target.toNat ++ natBe 6 mac.toNat ++ natBe 4 sender.toNat)))).settle) ∧
    (∀ (target sender : BitVec 128) (mac : BitVec 48), s.linkUp a = true →
      let u := s.rxFrames a 1
      u.ipv6Of a ≠ 0 → u.ipv6Of a = target.toNat →
      exec (.neighbourSolicitation p target sender mac) s = .next
        (u.emit (.frame a (u.ethernet a mac.toNat 0x86DD (ipv6Packet target.toNat sender.toNat 58 255
          (icmp6 target.toNat sender.toNat 136
            (natBe 4 0x60000000 ++ natBe 16 target.toNat ++ natBe 1 2 ++ natBe 1 1 ++ natBe 6 (u.macOf a))))))).settle) ∧
    (∀ (target sender : BitVec 128) data, s.linkUp a = true →
      let u := s.rxFrames a 1
      u.reg (0x5800 + a) 1 ≠ 0 → u.reg (0x5800 + a) 1 = target.toNat →
      exec (.icmpEcho p false target sender data) s = .next
        (u.emit (.packet a (ipv4Echo target.toNat sender.toNat data))).settle) ∧
    (∀ (pt : PartNo) (cl : ClientNo), exec (.completionTailWrite pt cl) s = .next
      ((s.tailOf pt.val cl.val false).tailOf pt.val cl.val true).settle)

/-- R318: a CNP halves the sending rate of its queue pair, down to 1 Gbit/s, and recovery raises it by 4 Gbit/s up to line
rate; whatever the order of the two, the rate never leaves that range once it lies in it, and no other queue pair's rate
changes. -/
def Obligations.RatesStayInRange : Prop :=
  ∀ (p r : HostPort) (q u : QpNo) (s t : State), s.events = [] →
    (exec (.cnp p q) s = .next t ∨ exec (.cnpRateRecovery p q) s = .next t) →
    (1000000000 ≤ (s.qp r.val u.val).rate ∧ (s.qp r.val u.val).rate ≤ lineRate →
      1000000000 ≤ (t.qp r.val u.val).rate ∧ (t.qp r.val u.val).rate ≤ lineRate) ∧
    ((r, u) ≠ (p, q) → t.qp r.val u.val = s.qp r.val u.val)


/-! ### Kiln requests aside, the module as a whole: references, power, start-up (chapters 17 and 18) -/

/-- R392 to R398, R410: the rows of the reference, each in the case in which it acts: a port whose receiver locks, and one
that loses its lock; the loss of REF; a candidate whose count lies within 65,536 ± 10; a PLL that is stable during a
relock that waits for others; a PLL that does not lock while REF or an accepted port is there; the end of holdover. -/
def Obligations.ReferenceRowsComplete : Prop :=
  ∀ (p : HostPort) (u : PanelDie) (s : State), let a := p.val; let v := unitOf u;
    (s.receiving = true → s.kiln.badLanes.contains a = false → s.inPhase 1 = false →
      exec (.hostLinkUp p) s = .next
        (((s.setReg (0x5800 + a) 7 1).setReg 0x2000 3 (setFld (s.reg 0x2000 3) a a 1)).leaveP0).settle) ∧
    (let w := (s.portLost a).setReg 0x2000 3 (setFld (s.reg 0x2000 3) a a 0);
      w.inPhase 1 = false → w.reg 0x2000 0 = a → w.reg 0x2000 1 = 1 →
      exec (.hostLinkDown p) s = .next w.loseRef.settle) ∧
    (s.reg 0x2000 1 = 1 → exec .refLoss s = .next s.loseRef.settle) ∧
    (∀ count : Nat, 65526 ≤ count → count ≤ 65546 → s.lockedPorts.contains a = true → s.power.counting = none →
      s.reg 0x2000 1 = 2 → s.power.port = none → s.candidate = some a →
      exec (.candidateCountDone p count) s = .next
        (((s.setReg 0x2000 1 2).modPower fun w =>
          { w with port := some a, relock := s.clocked })).settle) ∧
    (s.power.relock.contains v = true → s.inPhase 1 = false →
      exec (.pllStable u) s = .next
        ((s.modPower fun w => { w with relock := w.relock.filter (· != v) }).relocked).settle) ∧
    (s.inPhase 1 = false → s.reg 0x2000 1 = 1 ∨ s.power.port.isSome = true → s.power.relock.contains v = true →
      exec (.pllLockTimeout u) s = .next ((s.fenceDie v).relocked).settle) ∧
    (s.reg 0x2000 1 = 2 → exec .holdoverExpiry s = .next s.quiesce.settle)

/-- R401, R403 to R406, R469: the rows of operating points, temperature, the governor and the input, each in the case in
which it acts: the settled voltage of a locked transition; a new window of the governor; a sample of a memory die below
105 °C; the gating of an idle group within the window's budget; the first nine samples of an input that stays in range. -/
def Obligations.PowerRowsComplete : Prop :=
  ∀ (d : Die) (g : Fin 16) (s : State),
    (∀ m, SMap.find? d.val s.power.moves = some m → m.locked = true →
      exec (.voltageSettled d) s = .next ((s.setReg 0x2011 d.val m.dst).endMove d.val).settle) ∧
    (exec .governorWindow s = .next
      (({ s with power := { s.power with spent := 0 } } : State).govern s.govQueue.length).settle) ∧
    (∀ (x : MxNo) (t : Int), 3 ≤ s.phase → t < 1050 →
      exec (.thermalSample (.mx x) t) s = .next (s.setReg 0x2051 x.val (ratioF32 t 10)).settle) ∧
    (bit (s.reg 0x2013 d.val) g.val = true → s.groupIdle d.val g.val = true →
      s.power.spent + s.stepCost ⟨d.val, some g.val, 0⟩ ≤ s.reg 0x2020 1 →
      exec (.groupGate d g) s = .next
        ((s.setReg 0x2013 d.val (setFld (s.reg 0x2013 d.val) g.val g.val 0)).modPower fun p =>
          { p with spent := p.spent + s.stepCost ⟨d.val, some g.val, 0⟩ }).settle) ∧
    (∀ mv ma : Int, 0 ≤ mv → mv ≤ 60000 → ma ≤ 400000 → s.power.volts.length < 9 →
      exec (.inputSample mv ma) s = .next
        (s.modPower fun p =>
          { p with volts := p.volts ++ [mv], amps := p.amps ++ [ma], over400 := 0 }).settle)

/-- R409 to R412, R414, R416: the rows of the management dies and of start-up, each in the case in which it acts. -/
def Obligations.StartUpRowsComplete : Prop :=
  ∀ (u : PanelDie) (s : State),
    (s.reg 0x2040 1 = 1 →
      exec .heartbeat s = .next (s.modPower fun p => { p with beatAt := s.localNs }).settle) ∧
    (s.reg 0x2040 1 = 1 → exec .kdTakeover s = .next s.takeover.settle) ∧
    (s.power.standby = true →
      exec .modReset s = .next ((s.modPower fun p => { p with modResetN := false }).toReset.unlatch).settle) ∧
    (s.power.standby = true →
      exec .stbyEnLow s = .next ((s.modPower fun p => { p with stbyEn := false }).toReset.unlatch).settle) ∧
    (s.power.standby = false → exec .standbyApplied s = .next
      ((({ s with time := 0 } : State).modPower fun p => { p with standby := true, started := false }).leaveP0).settle) ∧
    (∃ t : State, exec .standbyLoss s = .next t.settle ∧ t.phase = 0 ∧ t.power.standby = false ∧ t.mem = State.reset.mem ∧
      t.cores = [] ∧ t.sessions = [] ∧
      ∀ i k, t.reg i k = if dictPers (rk i k) = .persistent then s.reg i k else State.reset.reg i k) ∧
    (s.phase = 5 → s.haltedBoot = false → exec .phaseTimeout s = .next
      (match Config.signatureSet s.fw.body with
        | some v => (s.endP5 v).enterP6
        | none => s.haltBoot .accessDenied).settle) ∧
    (s.inPhase 3 = true → s.power.inRange = true → (s.ramping.take 4).contains (unitOf u) = true →
      exec (.dieRampDone u) s = .next
        ((s.modPower fun p =>
          { p with ramped := p.ramped ++ [unitOf u], relock := p.relock ++ [unitOf u] }).rampCheck).settle ∧
      exec (.dieRampTimeout u) s = .next ((s.fenceDie (unitOf u)).rampCheck).settle) ∧
    (exec .modResetRelease s = .next (s.modPower fun p => { p with modResetN := true }).leaveP0.settle) ∧
    (exec .stbyEnHigh s = .next (s.modPower fun p => { p with stbyEn := true }).leaveP0.settle)

/-! ### Firmware, attestation, the TAP and the debug port (chapter 19) -/

/-- R423, R426, R431, R433: a verification of the inactive bank ends with its result in `fw.result` and the state of
`fw.state`; the report that a nonce asked for is the signed report body, with a fresh random value in its signature. The
TAP instructions each select their data register; IDCODE shifts out the 32 bits of `id.idcode`, EXTEST and SAMPLE/PRELOAD
the boundary cell of STBY_EN, BYPASS one zero; Test-Logic-Reset ends an unlock and selects IDCODE. -/
def Obligations.TrustAndTapRowsComplete : Prop :=
  ∀ (k : Fin 2) (q : Byte) (s : State),
    (s.reg 0x7000 0 = 2 →
      let r := (s.bundle (1 - s.reg 0x7000 2)).1
      exec (.firmwareVerifyDone k) s = .next
        ((s.setReg 0x7000 3 r).setReg 0x7000 0 (if r = 0 then 3 else 6)).settle) ∧
    (∀ nonce r u, s.fw.forming = some nonce → s.draw = (r, u) →
      let body := s.reportBody nonce
      exec .attestReportReady s = .next
        (({ u with fw := { u.fw with forming := none } } : State).setReg 0x7011 1
          (leNat (body ++ sm2Sign Config.deviceKey s.devicePub body (r.toNat % sm2n)))).settle) ∧
    (s.tapOn = true →
      (exec .idcode s = .next
        ((s.modDbg fun d => { d with ir := 0x01 }).emit (.tap ((List.range 32).map (bit (s.reg 0x1000 8))))).settle) ∧
      (exec .extest s = .next ((s.modDbg fun d => { d with ir := 0x00 }).emit (.tap [s.power.stbyEn])).settle) ∧
      (exec .samplePreload s = .next
        ((s.modDbg fun d => { d with ir := 0x02 }).emit (.tap [s.power.stbyEn])).settle) ∧
      (exec .bypass s = .next ((s.modDbg fun d => { d with ir := 0xFF }).emit (.tap [false])).settle) ∧
      (exec .tapReset s = .next (s.endUnlock.modDbg fun d => { d with ir := 0x01, busy := none }).settle) ∧
      (exec .dbgXfer s = .next (s.modDbg fun d => { d with ir := 0x20 }).settle) ∧
      (s.dbg.ir = 0x20 → exec (.dbgNop q) s = .next
        (s.emit (.tap ((List.range 128).map (bit s.dbg.resp.toNat)))).settle))

/-- R435 to R439: the debug requests that need no unlock, and those of scope RUN, each in the case in which it acts on a
port that takes it; the scan shifts out the response to the request before (u). HALT_EFFECT halts a context at a command
boundary, and answers a HALT that waits for it with the tag of the command that the halt concerns (R130); the idle bound ends
an unlock. -/
def Obligations.DebugRunRowsComplete : Prop :=
  ∀ (q : Byte) (a : BitVec 48) (w : W64) (s : State),
    let u := s.dbgScan; let n := q.toNat; let x := a.toNat; let d := w.toNat; let c := argCore x; let h := argCtx x;
    (s.dbgReady 0 → d = 0 → fld x 47 2 = 0 → fld x 1 0 ≠ 0 → s.reg 0x7030 0 ≠ 0 → s.dbg.blocked ≤ s.localNs →
      exec (.challenge q a w) s = .next
        ((u.dbgReply n .ok (leNat (sliceZ s.dbg.nonce (8 * fld x 1 0) 8))).flushMerge).settle) ∧
    (s.dbgReady 0 → d = 0 → x = 0 → s.reg 0x7030 0 ≠ 0 → s.dbg.blocked ≤ s.localNs → ∀ r v, u.draw = (r, v) →
      exec (.challenge q a w) s = .next
        (((v.modDbg fun d => { d with nonce := natLe 32 r.toNat, sig := [] }).dbgReply n .ok
          (leNat (sliceZ (natLe 32 r.toNat) 0 8))).dbgNote 0x01 0 .ok 0 0).settle) ∧
    (let v := u.modDbg fun d => { d with sig := SMap.put (fld x 2 0) w d.sig };
      s.dbgReady 0 → fld x 40 3 = 0 →
      (fld x 2 0 ≠ 7 → exec (.respond q a w) s = .next (v.dbgDone 0x02 n x .ok 0).settle) ∧
      (fld x 2 0 = 7 → v.unlocks (fld x 47 44) (fld x 43 41) = true →
        exec (.respond q a w) s = .next
          ((((v.modDbg fun d => { d with nonce := [], sig := [] }).setReg 0x7030 2
            (2 ^ 15 + 2 ^ 14 + fld x 43 41 <<< 11 + fld x 47 44 <<< 4)).bump 32 0x8F10 0 1).dbgDone 0x02 n x .ok 0).settle)) ∧
    (s.dbgReady 0 → d = 0 → x = 0 → s.unlocked = true →
      exec (.lock q a w) s = .next ((u.endUnlock).dbgReply n .ok 0).settle) ∧
    (s.dbgReady scopeRun → d = 0 → fld x 47 16 = 0 → s.coreGone c = none →
      (s.dbgCtx c h).halted = false → (s.dbgCtx c h).state ≠ .waiting →
      exec (.halt q a w) s = .next
        ((u.modDbgCtx c h fun x => { x with haltReq := true }).dbgWait n (.halt c h)).settle) ∧
    (s.dbgReady scopeRun → d = 0 → fld x 47 16 = 0 → s.coreGone c = none →
      (s.dbgCtx c h).halted = false → s.dbgSaved c h = none → (s.ctx c h).state = .waiting →
      exec (.halt q a w) s = .next
        ((u.modCtx c h fun x => { x with halted := true }).dbgDone 0x10 n x .ok 0
          (u.haltTag c (u.dbgCtx c h))).settle) ∧
    (s.dbgReady scopeRun → d = 0 → fld x 47 16 = 0 → s.coreGone c = none →
      let v := u.modDbgCtx c h fun x => { x with halted := false, haltReq := false, stepOne := false,
                                                 noMatch := x.halted || x.noMatch }
      exec (.resume q a w) s = .next
        ((v.requestWake c).dbgDone 0x11 n x .ok 0 (v.haltTag c (u.dbgCtx c h))).settle) ∧
    (s.dbgReady scopeRun → d = 0 → fld x 47 16 = 0 → s.coreGone c = none → (s.dbgCtx c h).halted = true →
      exec (.stepCtx q a w) s = .next
        (((u.modDbgCtx c h fun x => if x.cmd.isSome then { x with halted := false, haltReq := true }
          else { x with halted := false, stepOne := true, noMatch := true }).requestWake c).dbgWait n (.step c h)).settle) ∧
    (s.dbgReady scopeRun → d = 0 → fld x 47 24 = 0 → fld x 23 16 ≤ 33 → s.coreGone c = none →
      exec (.ctxRead q a w) s = .next (u.dbgDone 0x13 n x .ok (u.ctxItem c h (fld x 23 16))).settle) ∧
    (s.dbgReady scopeRun → d < 65536 → (fld x 43 42 = 1 ∨ fld x 43 42 = 2) → fld x 32 14 = 0 → bit x 41 = false →
      exec (.breakSet q a w) s = .next
        ((u.setReg 0x7031 (fld x 47 44) (d * 2 ^ 48 + x)).dbgDone 0x14 n x .ok 0).settle) ∧
    (s.dbgReady scopeRun → d = 0 → fld x 43 0 = 0 →
      exec (.breakClear q a w) s = .next ((u.setReg 0x7031 (fld x 47 44) 0).dbgDone 0x15 n x .ok 0).settle) ∧
    (∀ (k : CoreNo) (g : CtxNo), (s.ctx k.val g.val).state = .running → (s.ctx k.val g.val).cmd = none →
      (s.ctx k.val g.val).halted = false → s.haltDue k.val g.val = true → s.dbg.busy = none →
      exec (.haltEffect k g) s = .next
        (s.setCtx k.val g.val { s.ctx k.val g.val with halted := true, haltReq := false }).settle) ∧
    (∀ (k : CoreNo) (g : CtxNo) seq, (s.ctx k.val g.val).state = .running → (s.ctx k.val g.val).cmd = none →
      (s.ctx k.val g.val).halted = false → s.haltDue k.val g.val = true → s.dbg.busy = some (seq, .halt k.val g.val) →
      exec (.haltEffect k g) s = .next
        ((s.setCtx k.val g.val { s.ctx k.val g.val with halted := true, haltReq := false }).dbgDone 0x10 seq
          (g.val <<< 14 + k.val) .ok 0 (s.haltTag k.val (s.ctx k.val g.val))).settle) ∧
    exec .debugIdleExpiry s = .next s.endUnlock.settle

/-- R435, R438, R439: the debug requests of scope READ and WRITE, each in the case in which it acts on a port that takes
it: a read and a write of local memory that nothing holds, a dictionary read and write, and a staged chunk. -/
def Obligations.DebugDataRowsComplete : Prop :=
  ∀ (q : Byte) (a : BitVec 48) (w : W64) (s : State),
    let u := s.dbgScan; let n := q.toNat; let x := a.toNat; let d := w.toNat;
    (∀ e off t bs, s.dbgReady scopeRead → d = 0 → x < 2 ^ 47 → x % 8 = 0 → place x = .tun e off →
      u.inSaveArea x = false → u.accessWaits x 8 = false → u.readLocal x 8 = (t, .ok, bs) →
      exec (.memRead q a w) s = .next
        ((t.dbgReply n .ok (leNat bs)).dbgMerge 0x20 x 8 .ok).settle) ∧
    (∀ e off t, s.dbgReady scopeWrite → x < 2 ^ 47 → x % 8 = 0 → place x = .tun e off →
      u.inSaveArea x = false → u.accessWaits x 8 = false → u.writeLocal .debug x (natLe 8 d) = (t, .ok) →
      exec (.memWrite q a w) s = .next
        ((t.dbgReply n .ok 0).dbgNote 0x21 x .ok (leNat (u.bytes x 8)) d).settle) ∧
    (∀ bs, s.dbgReady scopeRead → d = 0 → fld x 15 0 = 0 →
      u.dictRead s.tapRoles (fld x 47 32) (fld x 31 24) = (.ok, bs) →
      exec (.dictRead q a w) s = .next
        ((u.dbgReply n .ok (leNat (sliceZ bs (8 * fld x 23 16) 8))).dbgMerge 0x30 x 65536 .ok).settle) ∧
    (s.dbgReady scopeWrite → fld x 47 24 = 0 → fld x 15 0 = 0 →
      exec (.dictStage q a w) s = .next
        ((u.modDbg fun z => { z with stage := SMap.putD 0#64 (fld x 23 16) w z.stage }).dbgDone 0x31 n x .ok 0).settle) ∧
    (∀ t, s.dbgReady scopeWrite → d = 0 → fld x 23 16 = 0 → fld x 47 32 ≠ 0x2030 →
      u.writeEntry u.tapWriter (fld x 47 32) (fld x 31 24) (u.staged (fld x 15 0)) (.tap n) = (t, some .ok) →
      exec (.dictWrite q a w) s = .next
        ((t.afterWrite (fld x 47 32) (fld x 31 24) (some .ok)).dbgDone 0x32 n x .ok 0).settle)

/-! ### Caddy (chapter 20) -/

/-- R451, R452: HELLO opens a half-open session and answers with its identifier; an OPEN whose signature verifies opens
the session; a session that is idle too long closes, and a half-open one lapses. -/
def Obligations.SessionRowsComplete : Prop :=
  ∀ (t : Tuple) (m : Bytes) (i : W32) (s : State), let u := s.rxFrames t.port.val 1;
    (s.caddyOn t = true → msgType m = 0x01 → bit (u.reg 0x7080 0) t.port.val = true → 48 ≤ m.length → msgMac m = noMac →
      badHeader 0x01 m = false → msgSession m = 0 → (msgPayload m).length = 32 →
      ∀ r v n w sig z, u.roomForHello.draw = (r, v) → v.draw = (n, w) →
      let id := freeId v.sessIds (r.toNat % 2 ^ 32) (v.sessIds.length + 2); let device := natLe 32 n.toNat;
      let serial := natLe 8 (w.reg 0x1000 3);
      w.deviceSign (ascii "CDY1" ++ msgPayload m ++ device ++ natBe 4 id ++ serial) = (sig, z) →
      exec (.hello t m) s = .next
        (({ z with sessions := z.sessions ++ [{ id := id, tuple := t, isOpen := false, nonces := msgPayload m ++ device }],
                   sessIds := z.sessIds ++ [id] } : State).emit
          (.caddy t (plainMsg 0x01 .ok id (msgSeq m) (device ++ serial ++ sig)))).settle) ∧
    (∀ x, s.caddyOn t = true → msgType m = 0x02 → u.session (msgSession m) = some x → x.tuple = t → x.isOpen = false →
      48 ≤ m.length → msgMac m = noMac → badHeader 0x02 m = false →
      let p := msgPayload m; let slot := leNat (sliceZ p 0 1); let flags := leNat (sliceZ p 1 1);
      p.length = 72 → flags ≤ 1 → leNat (slice p 2 6) = 0 → u.openRefused slot (msgSeq m) false = none →
      u.openValid x slot flags (slice p 8 64) = true →
      exec (.openSession t m) s = .next (u.openDone x slot flags).settle) ∧
    ((s.sessions.any fun x => x.id == i.toNat && x.isOpen) = true →
      exec (.sessionIdleExpiry i) s = .next (s.closeSessions (fun x => x.id == i.toNat && x.isOpen) 1).settle) ∧
    exec (.halfOpenExpiry i) s = .next
      ({ s with sessions := s.sessions.filter fun x => !(x.id == i.toNat && !x.isOpen) } : State).settle

/-- R453 to R456, R458: the requests of an open session (x), each in the case in which a well-formed request, next in
sequence, is executed; and the rows of notifications. -/
def Obligations.RequestRowsComplete : Prop :=
  ∀ (t : Tuple) (m : Bytes) (i : W32) (s : State) (x : Session),
    let u := s.rxFrames t.port.val 1; let p := msgPayload m; let k := itemIndex p; let j := itemSub p;
    (s.takesRequest t m 0x03 x → p = [] →
      exec (.close t m) s = .next
        ((u.caddyReply x 0x03 (msgSeq m) .ok []).closeSessions (fun y => y.id == x.id) 0).settle) ∧
    (∀ v, s.takesRequest t m 0x10 x → badRead p = false → itemCount p = 1 →
      u.dictRead x.roles (itemIndex (slice p 8 8)) (itemSub (slice p 8 8)) = (.ok, v) →
      exec (.caddyRead t m) s = .next
        ((u.caddyReply x 0x10 (msgSeq m) .ok (natLe 8 1 ++ (natLe 2 (itemIndex (slice p 8 8)) ++
          natLe 1 (itemSub (slice p 8 8)) ++ natLe 1 0 ++ natLe 4 v.length ++ padTo 8 v)))).settle) ∧
    (s.takesRequest t m 0x11 x → badOpening p = false → writeItemsOk (itemCount p) (p.drop 8) = true →
      exec (.caddyWrite t m) s = .next
        ((u.executing x (msgSeq m)).runWrites x (msgSeq m) [] 16 (p.drop 8)).settle) ∧
    (∀ v, s.takesRequest t m 0x12 x → p.length = 8 → leNat (sliceZ p 3 1) = 0 → blockLen p ≠ 0 → blockLen p ≤ 2048 →
      blockOff p = 0 → u.dictRead x.roles k j = (.ok, v) →
      exec (.readBlock t m) s = .next
        ((u.modSession x.id fun y => { y with snap := some (blockKey p, v) }).caddyReply x 0x12 (msgSeq m) .ok
          (natLe 2 k ++ natLe 1 j ++ natLe 1 0 ++ natLe 2 v.length ++ natLe 2 0 ++ slice v 0 (blockLen p))).settle) ∧
    (∀ v, s.takesRequest t m 0x13 x → p.length = 8 + blockLen p → blockLen p ≠ 0 → blockLen p ≤ 2048 →
      x.stageWith p = some v →
      (leNat (sliceZ p 3 1) = 0 → exec (.writeBlock t m) s = .next
        ((u.modSession x.id fun y => { y with stage := some (blockKey p, v) }).caddyReply x 0x13 (msgSeq m) .ok
          (replyItem k j .ok)).settle) ∧
      (∀ w, leNat (sliceZ p 3 1) = 1 →
        ((u.executing x (msgSeq m)).modSession x.id fun y => { y with stage := none }).writeEntry x.origin k j v
          (.block x.id (msgSeq m)) = (w, some .ok) →
        exec (.writeBlock t m) s = .next (w.blockReply x.id (msgSeq m) k j .ok).settle)) ∧
    (s.caddyOn t = true → msgIsReply m = true → msgType m = 0x20 → u.authentic t m = some x → x.nOut = true →
      x.nNum = msgSeq m → x.nDirty = false →
      exec (.notify t m) s = .next (u.modSession x.id fun _ => { x with nOut := false, nDirty := false }).settle) ∧
    (s.session i.toNat = some x → x.nOut = true → x.nSends < 10 →
      exec (.notifyResend i) s = .next
        ((s.modSession i.toNat fun x => { x with nSends := x.nSends + 1 }).sendCaddy x.tuple x.nMsg).settle)

/-! ### The block as a whole -/

/-- A step executes the command at the front of the queue on the state with the rest of the queue. -/
def Obligations.StepRunsFront : Prop :=
  ∀ (c : Instr) (rest : List Instr) (s : State), s.pending = c :: rest → step s = exec c { s with pending := rest }

/-- The model's choice (log entries 1 and 67): on an empty queue the host ports and the debug port first take up what waited
for memory, and then one cycle of REF passes. By R395 the local time counter then advances while a source runs, and holds
its value while none does; nothing but the dictionary's counters of time changes beside it. Where no port holds a request
or owes its peer an XON, no debug request is open and no event is left, that cycle is all that passes. -/
def Obligations.IdleStepCountsTime : Prop :=
  ∀ s : State, s.pending = [] → let u := (((List.range 4).foldl State.rxPump s).dbgRetry).settle
    ∃ t, step s = .next t ∧
      ((u.reg 0x2000 1 = 1 ∨ u.reg 0x2000 1 = 2) →
        t.time = u.time + 1 ∧ t.localNs = (u.time + 1) * 6400 / 1000 % 2 ^ 64 ∧ t.mem = u.mem ∧ t.cores = u.cores ∧
        t.parts = u.parts ∧ t.pending = [] ∧ t.out = u.out) ∧
      (u.reg 0x2000 1 ≠ 1 → u.reg 0x2000 1 ≠ 2 → t = u) ∧
      ((∀ p, p < 4 → (s.hport p).inq = [] ∧ (s.hport p).xoff = false) → s.dbg.busy = none → s.Calm → u = s)

/-- What a command causes elsewhere follows it within the same step (log entry 9): without events settling changes nothing,
and where events wait they are handled in order, the first of them first. -/
def Obligations.SettleCalm : Prop :=
  ∀ s : State, (s.Calm → s.settle = s) ∧
    ∀ e rest, s.events = e :: rest → s.settle = State.settleN 65535 (({ s with events := rest } : State).handle e)

/-- Reset (R410, R414): the device stands in P0 with an empty queue, no run, no session and no listed byte of memory, and
every dictionary entry holds the value of its table row; where the spec gives a row none, that is the model's choice (log
entry 6). -/
def Obligations.ResetState : Prop :=
  State.reset.phase = 0 ∧ State.reset.pending = [] ∧ State.reset.events = [] ∧ Memory.wf State.reset.mem = true ∧
  State.reset.mem = [] ∧ State.reset.cores = [] ∧ State.reset.sessions = [] ∧ State.reset.parts = [] ∧
  State.reset.time = 0 ∧ State.reset.unlocked = false ∧
  ∀ index sub, State.reset.reg index sub = dictDefault (rk index sub)

/-- The effect of a command leaves the queue of waiting commands as it is: no command, and nothing that it causes, adds or
takes one. -/
def Obligations.ExecLeavesTheQueue : Prop :=
  ∀ (c : Instr) (s t : State), exec c s = .next t → t.pending = s.pending

/-- Every step keeps byte memory in its canonical form: addresses strictly rising, no listed zero. -/
def Obligations.MemoryStaysCanonical : Prop :=
  ∀ s t : State, Memory.wf s.mem = true → step s = .next t → Memory.wf t.mem = true

/-- R103, R104: the word of every grist instruction without a reserved field value fits 32 bits and decodes to that
instruction, with every operand at every value; a word of a reserved opcode decodes to none. -/
def Obligations.GristRoundTrip : Prop :=
  (∀ g : Grist, gristWf g = true → encodeGrist g < 2 ^ 32 ∧ decodeGrist (encodeGrist g) = some g) ∧
  ∀ w, w < 2 ^ 32 → (w / 2 ^ 27 = 0 ∨ 16 ≤ w / 2 ^ 27) → decodeGrist w = none

/-- R64: an element's mask bit is 1 exactly when its draw u is at least the threshold T; of the 65,536 values of u, T lie
below the threshold; and a threshold of 0 keeps every element. -/
def Obligations.MaskKeepsAtThreshold : Prop :=
  ∀ (seed : Nat) (k : CmdRun) (ops : List Nat) (f : Nat → Bytes) (role i : Nat), i < opnd ops 0 → opnd ops 2 < 65536 →
    let u := drawU seed 2 (cImm k.word) (opnd ops 3) (opnd ops 1 + i)
    let keep := bit (leNat ((kRngMask seed k ops).run f role)) i
    (keep = true ↔ opnd ops 2 ≤ u) ∧ u < 65536 ∧ (opnd ops 2 = 0 → keep = true) ∧
    ((List.range 65536).filter fun v => decide (v < opnd ops 2)).length = opnd ops 2

/-- R259: a read or a write of LPDDR5X addresses from `mem.usable_bytes` on and below 0xF0_0000_0000 completes with
ST_UNIT_RETIRED, one from 0xF0_0000_0000 on within the range of the local map with ST_ACCESS_DENIED; nothing is written,
and nothing else changes. -/
def Obligations.BeyondUsableRange : Prop :=
  ∀ (s : State) (a len : Nat) (bs : Bytes) (w : Writer) (gen : Bool), 0 < len → bs.length = len →
    (s.reg 0x3000 0 ≤ a → a + len ≤ 0xF000000000 →
      s.readLocal a len = (s, .unitRetired, []) ∧ s.writeLocal w a bs gen = (s, .unitRetired)) ∧
    (0xF000000000 ≤ a → a + len ≤ 0x10000000000 →
      s.readLocal a len = (s, .accessDenied, []) ∧ s.writeLocal w a bs gen = (s, .accessDenied))

/-- R463: a write of 16 B to `audit.annotate` adds one `KIND` 4 record with the 16 B in `NEW`, uninterpreted; like every
accepted write of an entry it then has its own KIND 0 record. -/
def Obligations.AnnotateAddsRecord : Prop :=
  ∀ (o : Origin) (v : BitVec 128) (s : State), 3 ≤ s.phase → s.writeCheck o 0x1100 1 (natLe 16 v.toNat) = .ok →
    let r : AuditRec := { kind := 4, origin := o, index := 0x1100, sub := 1, new := v.toNat }
    exec (.annotate o v) s = .next
      ((s.record r).writeNote o 0x1100 1 (s.reg 0x1100 1) v.toNat .ok).settle ∧
    fld (r.word s.localNs (s.reg 0x1100 0)) 415 412 = 4 ∧ fld (r.word s.localNs (s.reg 0x1100 0)) 127 0 = v.toNat

/-- R367: a gated OPT_UPDATE is shadowed when `shadow.enable` of its partition is 1, `mash.policy` is 0 and (n + s) mod 64
is 0, and otherwise not; so of 64 consecutive step numbers exactly one is shadowed. By R368 a shadow executes the
primary's command only, and is no primary itself. -/
def Obligations.ShadowOneStepIn64 : Prop :=
  (∀ (s : State) (n h : Nat) (k : CmdRun), let p := (s.ctx n h).part; let t := s.noteShadow n h k;
    gated k.word = true → (s.ctx n h).kind ≠ .shadow → (s.ctx n h).kind ≠ .third →
    ((s.reg (0x6200 + p) 0 = 1 ∧ s.reg (0x9400 + p) 8 = 0 ∧ (n + s.stepOf n h k) % 64 = 0) →
      ∃ w : Shadow, SMap.get [] t.shadows p = SMap.get [] s.shadows p ++ [w] ∧ w.core = n ∧ w.ctx = h ∧
        w.entry = k.index ∧ w.step = s.stepOf n h k) ∧
    (¬ (s.reg (0x6200 + p) 0 = 1 ∧ s.reg (0x9400 + p) 8 = 0 ∧ (n + s.stepOf n h k) % 64 = 0) → t = s)) ∧
  ∀ n first : Nat, ∃ j, j < 64 ∧ (n + (first + j)) % 64 = 0 ∧ ∀ i, i < 64 → (n + (first + i)) % 64 = 0 → i = j
end

