-- ==== Sys2Proof/Laws/State.lean ====
section
/-! SUPPORT. What each field holds after one update of the state: one lemma a field. -/

namespace Sys2Proof.Machine

@[simp] theorem State.setReg_mem (s : State) (i k v : Nat) : (s.setReg i k v).mem = s.mem := rfl
@[simp] theorem State.setReg_poison (s : State) (i k v : Nat) : (s.setReg i k v).poison = s.poison := rfl
@[simp] theorem State.setReg_flaws (s : State) (i k v : Nat) : (s.setReg i k v).flaws = s.flaws := rfl
@[simp] theorem State.setReg_gens (s : State) (i k v : Nat) : (s.setReg i k v).gens = s.gens := rfl
@[simp] theorem State.setReg_cores (s : State) (i k v : Nat) : (s.setReg i k v).cores = s.cores := rfl
@[simp] theorem State.setReg_barriers (s : State) (i k v : Nat) : (s.setReg i k v).barriers = s.barriers := rfl
@[simp] theorem State.setReg_saved (s : State) (i k v : Nat) : (s.setReg i k v).saved = s.saved := rfl
@[simp] theorem State.setReg_sessions (s : State) (i k v : Nat) : (s.setReg i k v).sessions = s.sessions := rfl
@[simp] theorem State.setReg_sessIds (s : State) (i k v : Nat) : (s.setReg i k v).sessIds = s.sessIds := rfl
@[simp] theorem State.setReg_openFails (s : State) (i k v : Nat) : (s.setReg i k v).openFails = s.openFails := rfl
@[simp] theorem State.setReg_qps (s : State) (i k v : Nat) : (s.setReg i k v).qps = s.qps := rfl
@[simp] theorem State.setReg_posts (s : State) (i k v : Nat) : (s.setReg i k v).posts = s.posts := rfl
@[simp] theorem State.setReg_ports (s : State) (i k v : Nat) : (s.setReg i k v).ports = s.ports := rfl
@[simp] theorem State.setReg_lxs (s : State) (i k v : Nat) : (s.setReg i k v).lxs = s.lxs := rfl
@[simp] theorem State.setReg_mxs (s : State) (i k v : Nat) : (s.setReg i k v).mxs = s.mxs := rfl
@[simp] theorem State.setReg_intakes (s : State) (i k v : Nat) : (s.setReg i k v).intakes = s.intakes := rfl
@[simp] theorem State.setReg_gates (s : State) (i k v : Nat) : (s.setReg i k v).gates = s.gates := rfl
@[simp] theorem State.setReg_pours (s : State) (i k v : Nat) : (s.setReg i k v).pours = s.pours := rfl
@[simp] theorem State.setReg_pourOff (s : State) (i k v : Nat) : (s.setReg i k v).pourOff = s.pourOff := rfl
@[simp] theorem State.setReg_latched (s : State) (i k v : Nat) : (s.setReg i k v).latched = s.latched := rfl
@[simp] theorem State.setReg_parts (s : State) (i k v : Nat) : (s.setReg i k v).parts = s.parts := rfl
@[simp] theorem State.setReg_filling (s : State) (i k v : Nat) : (s.setReg i k v).filling = s.filling := rfl
@[simp] theorem State.setReg_govQueue (s : State) (i k v : Nat) : (s.setReg i k v).govQueue = s.govQueue := rfl
@[simp] theorem State.setReg_power (s : State) (i k v : Nat) : (s.setReg i k v).power = s.power := rfl
@[simp] theorem State.setReg_fw (s : State) (i k v : Nat) : (s.setReg i k v).fw = s.fw := rfl
@[simp] theorem State.setReg_dbg (s : State) (i k v : Nat) : (s.setReg i k v).dbg = s.dbg := rfl
@[simp] theorem State.setReg_waits (s : State) (i k v : Nat) : (s.setReg i k v).waits = s.waits := rfl
@[simp] theorem State.setReg_winShut (s : State) (i k v : Nat) : (s.setReg i k v).winShut = s.winShut := rfl
@[simp] theorem State.setReg_shadows (s : State) (i k v : Nat) : (s.setReg i k v).shadows = s.shadows := rfl
@[simp] theorem State.setReg_kiln (s : State) (i k v : Nat) : (s.setReg i k v).kiln = s.kiln := rfl
@[simp] theorem State.setReg_hports (s : State) (i k v : Nat) : (s.setReg i k v).hports = s.hports := rfl
@[simp] theorem State.setReg_tunRows (s : State) (i k v : Nat) : (s.setReg i k v).tunRows = s.tunRows := rfl
@[simp] theorem State.setReg_lpWords (s : State) (i k v : Nat) : (s.setReg i k v).lpWords = s.lpWords := rfl
@[simp] theorem State.setReg_maintOut (s : State) (i k v : Nat) : (s.setReg i k v).maintOut = s.maintOut := rfl
@[simp] theorem State.setReg_holds (s : State) (i k v : Nat) : (s.setReg i k v).holds = s.holds := rfl
@[simp] theorem State.setReg_epochs (s : State) (i k v : Nat) : (s.setReg i k v).epochs = s.epochs := rfl
@[simp] theorem State.setReg_plan (s : State) (i k v : Nat) : (s.setReg i k v).plan = s.plan := rfl
@[simp] theorem State.setReg_events (s : State) (i k v : Nat) : (s.setReg i k v).events = s.events := rfl
@[simp] theorem State.setReg_chEvents (s : State) (i k v : Nat) : (s.setReg i k v).chEvents = s.chEvents := rfl
@[simp] theorem State.setReg_out (s : State) (i k v : Nat) : (s.setReg i k v).out = s.out := rfl
@[simp] theorem State.setReg_free (s : State) (i k v : Nat) : (s.setReg i k v).free = s.free := rfl
@[simp] theorem State.setReg_time (s : State) (i k v : Nat) : (s.setReg i k v).time = s.time := rfl
@[simp] theorem State.setReg_pending (s : State) (i k v : Nat) : (s.setReg i k v).pending = s.pending := rfl
@[simp] theorem State.setReg_linkErrs (s : State) (i k v : Nat) : (s.setReg i k v).linkErrs = s.linkErrs := rfl
@[simp] theorem State.setReg_winClose (s : State) (i k v : Nat) : (s.setReg i k v).winClose = s.winClose := rfl
@[simp] theorem State.setReg_faultWords (s : State) (i k v : Nat) : (s.setReg i k v).faultWords = s.faultWords := rfl
@[simp] theorem State.setReg_walkQ (s : State) (i k v : Nat) : (s.setReg i k v).walkQ = s.walkQ := rfl

@[simp] theorem State.emit_dict (s : State) (o : Output) : (s.emit o).dict = s.dict := rfl
@[simp] theorem State.emit_mem (s : State) (o : Output) : (s.emit o).mem = s.mem := rfl
@[simp] theorem State.emit_poison (s : State) (o : Output) : (s.emit o).poison = s.poison := rfl
@[simp] theorem State.emit_flaws (s : State) (o : Output) : (s.emit o).flaws = s.flaws := rfl
@[simp] theorem State.emit_gens (s : State) (o : Output) : (s.emit o).gens = s.gens := rfl
@[simp] theorem State.emit_cores (s : State) (o : Output) : (s.emit o).cores = s.cores := rfl
@[simp] theorem State.emit_barriers (s : State) (o : Output) : (s.emit o).barriers = s.barriers := rfl
@[simp] theorem State.emit_saved (s : State) (o : Output) : (s.emit o).saved = s.saved := rfl
@[simp] theorem State.emit_sessions (s : State) (o : Output) : (s.emit o).sessions = s.sessions := rfl
@[simp] theorem State.emit_sessIds (s : State) (o : Output) : (s.emit o).sessIds = s.sessIds := rfl
@[simp] theorem State.emit_openFails (s : State) (o : Output) : (s.emit o).openFails = s.openFails := rfl
@[simp] theorem State.emit_qps (s : State) (o : Output) : (s.emit o).qps = s.qps := rfl
@[simp] theorem State.emit_posts (s : State) (o : Output) : (s.emit o).posts = s.posts := rfl
@[simp] theorem State.emit_ports (s : State) (o : Output) : (s.emit o).ports = s.ports := rfl
@[simp] theorem State.emit_lxs (s : State) (o : Output) : (s.emit o).lxs = s.lxs := rfl
@[simp] theorem State.emit_mxs (s : State) (o : Output) : (s.emit o).mxs = s.mxs := rfl
@[simp] theorem State.emit_intakes (s : State) (o : Output) : (s.emit o).intakes = s.intakes := rfl
@[simp] theorem State.emit_gates (s : State) (o : Output) : (s.emit o).gates = s.gates := rfl
@[simp] theorem State.emit_pours (s : State) (o : Output) : (s.emit o).pours = s.pours := rfl
@[simp] theorem State.emit_pourOff (s : State) (o : Output) : (s.emit o).pourOff = s.pourOff := rfl
@[simp] theorem State.emit_latched (s : State) (o : Output) : (s.emit o).latched = s.latched := rfl
@[simp] theorem State.emit_parts (s : State) (o : Output) : (s.emit o).parts = s.parts := rfl
@[simp] theorem State.emit_filling (s : State) (o : Output) : (s.emit o).filling = s.filling := rfl
@[simp] theorem State.emit_govQueue (s : State) (o : Output) : (s.emit o).govQueue = s.govQueue := rfl
@[simp] theorem State.emit_power (s : State) (o : Output) : (s.emit o).power = s.power := rfl
@[simp] theorem State.emit_fw (s : State) (o : Output) : (s.emit o).fw = s.fw := rfl
@[simp] theorem State.emit_dbg (s : State) (o : Output) : (s.emit o).dbg = s.dbg := rfl
@[simp] theorem State.emit_waits (s : State) (o : Output) : (s.emit o).waits = s.waits := rfl
@[simp] theorem State.emit_winShut (s : State) (o : Output) : (s.emit o).winShut = s.winShut := rfl
@[simp] theorem State.emit_shadows (s : State) (o : Output) : (s.emit o).shadows = s.shadows := rfl
@[simp] theorem State.emit_kiln (s : State) (o : Output) : (s.emit o).kiln = s.kiln := rfl
@[simp] theorem State.emit_hports (s : State) (o : Output) : (s.emit o).hports = s.hports := rfl
@[simp] theorem State.emit_tunRows (s : State) (o : Output) : (s.emit o).tunRows = s.tunRows := rfl
@[simp] theorem State.emit_lpWords (s : State) (o : Output) : (s.emit o).lpWords = s.lpWords := rfl
@[simp] theorem State.emit_maintOut (s : State) (o : Output) : (s.emit o).maintOut = s.maintOut := rfl
@[simp] theorem State.emit_holds (s : State) (o : Output) : (s.emit o).holds = s.holds := rfl
@[simp] theorem State.emit_epochs (s : State) (o : Output) : (s.emit o).epochs = s.epochs := rfl
@[simp] theorem State.emit_plan (s : State) (o : Output) : (s.emit o).plan = s.plan := rfl
@[simp] theorem State.emit_events (s : State) (o : Output) : (s.emit o).events = s.events := rfl
@[simp] theorem State.emit_chEvents (s : State) (o : Output) : (s.emit o).chEvents = s.chEvents := rfl
@[simp] theorem State.emit_free (s : State) (o : Output) : (s.emit o).free = s.free := rfl
@[simp] theorem State.emit_time (s : State) (o : Output) : (s.emit o).time = s.time := rfl
@[simp] theorem State.emit_pending (s : State) (o : Output) : (s.emit o).pending = s.pending := rfl
@[simp] theorem State.emit_linkErrs (s : State) (o : Output) : (s.emit o).linkErrs = s.linkErrs := rfl
@[simp] theorem State.emit_winClose (s : State) (o : Output) : (s.emit o).winClose = s.winClose := rfl
@[simp] theorem State.emit_faultWords (s : State) (o : Output) : (s.emit o).faultWords = s.faultWords := rfl
@[simp] theorem State.emit_walkQ (s : State) (o : Output) : (s.emit o).walkQ = s.walkQ := rfl

@[simp] theorem State.setCore_dict (s : State) (n : Nat) (c : Core) : (s.setCore n c).dict = s.dict := rfl
@[simp] theorem State.setCore_mem (s : State) (n : Nat) (c : Core) : (s.setCore n c).mem = s.mem := rfl
@[simp] theorem State.setCore_poison (s : State) (n : Nat) (c : Core) : (s.setCore n c).poison = s.poison := rfl
@[simp] theorem State.setCore_flaws (s : State) (n : Nat) (c : Core) : (s.setCore n c).flaws = s.flaws := rfl
@[simp] theorem State.setCore_gens (s : State) (n : Nat) (c : Core) : (s.setCore n c).gens = s.gens := rfl
@[simp] theorem State.setCore_barriers (s : State) (n : Nat) (c : Core) : (s.setCore n c).barriers = s.barriers := rfl
@[simp] theorem State.setCore_saved (s : State) (n : Nat) (c : Core) : (s.setCore n c).saved = s.saved := rfl
@[simp] theorem State.setCore_sessions (s : State) (n : Nat) (c : Core) : (s.setCore n c).sessions = s.sessions := rfl
@[simp] theorem State.setCore_sessIds (s : State) (n : Nat) (c : Core) : (s.setCore n c).sessIds = s.sessIds := rfl
@[simp] theorem State.setCore_openFails (s : State) (n : Nat) (c : Core) : (s.setCore n c).openFails = s.openFails := rfl
@[simp] theorem State.setCore_qps (s : State) (n : Nat) (c : Core) : (s.setCore n c).qps = s.qps := rfl
@[simp] theorem State.setCore_posts (s : State) (n : Nat) (c : Core) : (s.setCore n c).posts = s.posts := rfl
@[simp] theorem State.setCore_ports (s : State) (n : Nat) (c : Core) : (s.setCore n c).ports = s.ports := rfl
@[simp] theorem State.setCore_lxs (s : State) (n : Nat) (c : Core) : (s.setCore n c).lxs = s.lxs := rfl
@[simp] theorem State.setCore_mxs (s : State) (n : Nat) (c : Core) : (s.setCore n c).mxs = s.mxs := rfl
@[simp] theorem State.setCore_intakes (s : State) (n : Nat) (c : Core) : (s.setCore n c).intakes = s.intakes := rfl
@[simp] theorem State.setCore_gates (s : State) (n : Nat) (c : Core) : (s.setCore n c).gates = s.gates := rfl
@[simp] theorem State.setCore_pours (s : State) (n : Nat) (c : Core) : (s.setCore n c).pours = s.pours := rfl
@[simp] theorem State.setCore_pourOff (s : State) (n : Nat) (c : Core) : (s.setCore n c).pourOff = s.pourOff := rfl
@[simp] theorem State.setCore_latched (s : State) (n : Nat) (c : Core) : (s.setCore n c).latched = s.latched := rfl
@[simp] theorem State.setCore_parts (s : State) (n : Nat) (c : Core) : (s.setCore n c).parts = s.parts := rfl
@[simp] theorem State.setCore_filling (s : State) (n : Nat) (c : Core) : (s.setCore n c).filling = s.filling := rfl
@[simp] theorem State.setCore_govQueue (s : State) (n : Nat) (c : Core) : (s.setCore n c).govQueue = s.govQueue := rfl
@[simp] theorem State.setCore_power (s : State) (n : Nat) (c : Core) : (s.setCore n c).power = s.power := rfl
@[simp] theorem State.setCore_fw (s : State) (n : Nat) (c : Core) : (s.setCore n c).fw = s.fw := rfl
@[simp] theorem State.setCore_dbg (s : State) (n : Nat) (c : Core) : (s.setCore n c).dbg = s.dbg := rfl
@[simp] theorem State.setCore_waits (s : State) (n : Nat) (c : Core) : (s.setCore n c).waits = s.waits := rfl
@[simp] theorem State.setCore_winShut (s : State) (n : Nat) (c : Core) : (s.setCore n c).winShut = s.winShut := rfl
@[simp] theorem State.setCore_shadows (s : State) (n : Nat) (c : Core) : (s.setCore n c).shadows = s.shadows := rfl
@[simp] theorem State.setCore_kiln (s : State) (n : Nat) (c : Core) : (s.setCore n c).kiln = s.kiln := rfl
@[simp] theorem State.setCore_hports (s : State) (n : Nat) (c : Core) : (s.setCore n c).hports = s.hports := rfl
@[simp] theorem State.setCore_tunRows (s : State) (n : Nat) (c : Core) : (s.setCore n c).tunRows = s.tunRows := rfl
@[simp] theorem State.setCore_lpWords (s : State) (n : Nat) (c : Core) : (s.setCore n c).lpWords = s.lpWords := rfl
@[simp] theorem State.setCore_maintOut (s : State) (n : Nat) (c : Core) : (s.setCore n c).maintOut = s.maintOut := rfl
@[simp] theorem State.setCore_holds (s : State) (n : Nat) (c : Core) : (s.setCore n c).holds = s.holds := rfl
@[simp] theorem State.setCore_epochs (s : State) (n : Nat) (c : Core) : (s.setCore n c).epochs = s.epochs := rfl
@[simp] theorem State.setCore_plan (s : State) (n : Nat) (c : Core) : (s.setCore n c).plan = s.plan := rfl
@[simp] theorem State.setCore_events (s : State) (n : Nat) (c : Core) : (s.setCore n c).events = s.events := rfl
@[simp] theorem State.setCore_chEvents (s : State) (n : Nat) (c : Core) : (s.setCore n c).chEvents = s.chEvents := rfl
@[simp] theorem State.setCore_out (s : State) (n : Nat) (c : Core) : (s.setCore n c).out = s.out := rfl
@[simp] theorem State.setCore_free (s : State) (n : Nat) (c : Core) : (s.setCore n c).free = s.free := rfl
@[simp] theorem State.setCore_time (s : State) (n : Nat) (c : Core) : (s.setCore n c).time = s.time := rfl
@[simp] theorem State.setCore_pending (s : State) (n : Nat) (c : Core) : (s.setCore n c).pending = s.pending := rfl
@[simp] theorem State.setCore_linkErrs (s : State) (n : Nat) (c : Core) : (s.setCore n c).linkErrs = s.linkErrs := rfl
@[simp] theorem State.setCore_winClose (s : State) (n : Nat) (c : Core) : (s.setCore n c).winClose = s.winClose := rfl
@[simp] theorem State.setCore_faultWords (s : State) (n : Nat) (c : Core) : (s.setCore n c).faultWords = s.faultWords := rfl
@[simp] theorem State.setCore_walkQ (s : State) (n : Nat) (c : Core) : (s.setCore n c).walkQ = s.walkQ := rfl

@[simp] theorem State.modCore_dict (s : State) (n : Nat) (f : Core → Core) : (s.modCore n f).dict = s.dict := rfl
@[simp] theorem State.modCore_mem (s : State) (n : Nat) (f : Core → Core) : (s.modCore n f).mem = s.mem := rfl
@[simp] theorem State.modCore_poison (s : State) (n : Nat) (f : Core → Core) : (s.modCore n f).poison = s.poison := rfl
@[simp] theorem State.modCore_flaws (s : State) (n : Nat) (f : Core → Core) : (s.modCore n f).flaws = s.flaws := rfl
@[simp] theorem State.modCore_gens (s : State) (n : Nat) (f : Core → Core) : (s.modCore n f).gens = s.gens := rfl
@[simp] theorem State.modCore_barriers (s : State) (n : Nat) (f : Core → Core) : (s.modCore n f).barriers = s.barriers := rfl
@[simp] theorem State.modCore_saved (s : State) (n : Nat) (f : Core → Core) : (s.modCore n f).saved = s.saved := rfl
@[simp] theorem State.modCore_sessions (s : State) (n : Nat) (f : Core → Core) : (s.modCore n f).sessions = s.sessions := rfl
@[simp] theorem State.modCore_sessIds (s : State) (n : Nat) (f : Core → Core) : (s.modCore n f).sessIds = s.sessIds := rfl
@[simp] theorem State.modCore_openFails (s : State) (n : Nat) (f : Core → Core) : (s.modCore n f).openFails = s.openFails := rfl
@[simp] theorem State.modCore_qps (s : State) (n : Nat) (f : Core → Core) : (s.modCore n f).qps = s.qps := rfl
@[simp] theorem State.modCore_posts (s : State) (n : Nat) (f : Core → Core) : (s.modCore n f).posts = s.posts := rfl
@[simp] theorem State.modCore_ports (s : State) (n : Nat) (f : Core → Core) : (s.modCore n f).ports = s.ports := rfl
@[simp] theorem State.modCore_lxs (s : State) (n : Nat) (f : Core → Core) : (s.modCore n f).lxs = s.lxs := rfl
@[simp] theorem State.modCore_mxs (s : State) (n : Nat) (f : Core → Core) : (s.modCore n f).mxs = s.mxs := rfl
@[simp] theorem State.modCore_intakes (s : State) (n : Nat) (f : Core → Core) : (s.modCore n f).intakes = s.intakes := rfl
@[simp] theorem State.modCore_gates (s : State) (n : Nat) (f : Core → Core) : (s.modCore n f).gates = s.gates := rfl
@[simp] theorem State.modCore_pours (s : State) (n : Nat) (f : Core → Core) : (s.modCore n f).pours = s.pours := rfl
@[simp] theorem State.modCore_pourOff (s : State) (n : Nat) (f : Core → Core) : (s.modCore n f).pourOff = s.pourOff := rfl
@[simp] theorem State.modCore_latched (s : State) (n : Nat) (f : Core → Core) : (s.modCore n f).latched = s.latched := rfl
@[simp] theorem State.modCore_parts (s : State) (n : Nat) (f : Core → Core) : (s.modCore n f).parts = s.parts := rfl
@[simp] theorem State.modCore_filling (s : State) (n : Nat) (f : Core → Core) : (s.modCore n f).filling = s.filling := rfl
@[simp] theorem State.modCore_govQueue (s : State) (n : Nat) (f : Core → Core) : (s.modCore n f).govQueue = s.govQueue := rfl
@[simp] theorem State.modCore_power (s : State) (n : Nat) (f : Core → Core) : (s.modCore n f).power = s.power := rfl
@[simp] theorem State.modCore_fw (s : State) (n : Nat) (f : Core → Core) : (s.modCore n f).fw = s.fw := rfl
@[simp] theorem State.modCore_dbg (s : State) (n : Nat) (f : Core → Core) : (s.modCore n f).dbg = s.dbg := rfl
@[simp] theorem State.modCore_waits (s : State) (n : Nat) (f : Core → Core) : (s.modCore n f).waits = s.waits := rfl
@[simp] theorem State.modCore_winShut (s : State) (n : Nat) (f : Core → Core) : (s.modCore n f).winShut = s.winShut := rfl
@[simp] theorem State.modCore_shadows (s : State) (n : Nat) (f : Core → Core) : (s.modCore n f).shadows = s.shadows := rfl
@[simp] theorem State.modCore_kiln (s : State) (n : Nat) (f : Core → Core) : (s.modCore n f).kiln = s.kiln := rfl
@[simp] theorem State.modCore_hports (s : State) (n : Nat) (f : Core → Core) : (s.modCore n f).hports = s.hports := rfl
@[simp] theorem State.modCore_tunRows (s : State) (n : Nat) (f : Core → Core) : (s.modCore n f).tunRows = s.tunRows := rfl
@[simp] theorem State.modCore_lpWords (s : State) (n : Nat) (f : Core → Core) : (s.modCore n f).lpWords = s.lpWords := rfl
@[simp] theorem State.modCore_maintOut (s : State) (n : Nat) (f : Core → Core) : (s.modCore n f).maintOut = s.maintOut := rfl
@[simp] theorem State.modCore_holds (s : State) (n : Nat) (f : Core → Core) : (s.modCore n f).holds = s.holds := rfl
@[simp] theorem State.modCore_epochs (s : State) (n : Nat) (f : Core → Core) : (s.modCore n f).epochs = s.epochs := rfl
@[simp] theorem State.modCore_plan (s : State) (n : Nat) (f : Core → Core) : (s.modCore n f).plan = s.plan := rfl
@[simp] theorem State.modCore_events (s : State) (n : Nat) (f : Core → Core) : (s.modCore n f).events = s.events := rfl
@[simp] theorem State.modCore_chEvents (s : State) (n : Nat) (f : Core → Core) : (s.modCore n f).chEvents = s.chEvents := rfl
@[simp] theorem State.modCore_out (s : State) (n : Nat) (f : Core → Core) : (s.modCore n f).out = s.out := rfl
@[simp] theorem State.modCore_free (s : State) (n : Nat) (f : Core → Core) : (s.modCore n f).free = s.free := rfl
@[simp] theorem State.modCore_time (s : State) (n : Nat) (f : Core → Core) : (s.modCore n f).time = s.time := rfl
@[simp] theorem State.modCore_pending (s : State) (n : Nat) (f : Core → Core) : (s.modCore n f).pending = s.pending := rfl
@[simp] theorem State.modCore_linkErrs (s : State) (n : Nat) (f : Core → Core) : (s.modCore n f).linkErrs = s.linkErrs := rfl
@[simp] theorem State.modCore_winClose (s : State) (n : Nat) (f : Core → Core) : (s.modCore n f).winClose = s.winClose := rfl
@[simp] theorem State.modCore_faultWords (s : State) (n : Nat) (f : Core → Core) : (s.modCore n f).faultWords = s.faultWords := rfl
@[simp] theorem State.modCore_walkQ (s : State) (n : Nat) (f : Core → Core) : (s.modCore n f).walkQ = s.walkQ := rfl

@[simp] theorem State.setCtx_dict (s : State) (n h : Nat) (x : Ctx) : (s.setCtx n h x).dict = s.dict := rfl
@[simp] theorem State.setCtx_mem (s : State) (n h : Nat) (x : Ctx) : (s.setCtx n h x).mem = s.mem := rfl
@[simp] theorem State.setCtx_poison (s : State) (n h : Nat) (x : Ctx) : (s.setCtx n h x).poison = s.poison := rfl
@[simp] theorem State.setCtx_flaws (s : State) (n h : Nat) (x : Ctx) : (s.setCtx n h x).flaws = s.flaws := rfl
@[simp] theorem State.setCtx_gens (s : State) (n h : Nat) (x : Ctx) : (s.setCtx n h x).gens = s.gens := rfl
@[simp] theorem State.setCtx_barriers (s : State) (n h : Nat) (x : Ctx) : (s.setCtx n h x).barriers = s.barriers := rfl
@[simp] theorem State.setCtx_saved (s : State) (n h : Nat) (x : Ctx) : (s.setCtx n h x).saved = s.saved := rfl
@[simp] theorem State.setCtx_sessions (s : State) (n h : Nat) (x : Ctx) : (s.setCtx n h x).sessions = s.sessions := rfl
@[simp] theorem State.setCtx_sessIds (s : State) (n h : Nat) (x : Ctx) : (s.setCtx n h x).sessIds = s.sessIds := rfl
@[simp] theorem State.setCtx_openFails (s : State) (n h : Nat) (x : Ctx) : (s.setCtx n h x).openFails = s.openFails := rfl
@[simp] theorem State.setCtx_qps (s : State) (n h : Nat) (x : Ctx) : (s.setCtx n h x).qps = s.qps := rfl
@[simp] theorem State.setCtx_posts (s : State) (n h : Nat) (x : Ctx) : (s.setCtx n h x).posts = s.posts := rfl
@[simp] theorem State.setCtx_ports (s : State) (n h : Nat) (x : Ctx) : (s.setCtx n h x).ports = s.ports := rfl
@[simp] theorem State.setCtx_lxs (s : State) (n h : Nat) (x : Ctx) : (s.setCtx n h x).lxs = s.lxs := rfl
@[simp] theorem State.setCtx_mxs (s : State) (n h : Nat) (x : Ctx) : (s.setCtx n h x).mxs = s.mxs := rfl
@[simp] theorem State.setCtx_intakes (s : State) (n h : Nat) (x : Ctx) : (s.setCtx n h x).intakes = s.intakes := rfl
@[simp] theorem State.setCtx_gates (s : State) (n h : Nat) (x : Ctx) : (s.setCtx n h x).gates = s.gates := rfl
@[simp] theorem State.setCtx_pours (s : State) (n h : Nat) (x : Ctx) : (s.setCtx n h x).pours = s.pours := rfl
@[simp] theorem State.setCtx_pourOff (s : State) (n h : Nat) (x : Ctx) : (s.setCtx n h x).pourOff = s.pourOff := rfl
@[simp] theorem State.setCtx_latched (s : State) (n h : Nat) (x : Ctx) : (s.setCtx n h x).latched = s.latched := rfl
@[simp] theorem State.setCtx_parts (s : State) (n h : Nat) (x : Ctx) : (s.setCtx n h x).parts = s.parts := rfl
@[simp] theorem State.setCtx_filling (s : State) (n h : Nat) (x : Ctx) : (s.setCtx n h x).filling = s.filling := rfl
@[simp] theorem State.setCtx_govQueue (s : State) (n h : Nat) (x : Ctx) : (s.setCtx n h x).govQueue = s.govQueue := rfl
@[simp] theorem State.setCtx_power (s : State) (n h : Nat) (x : Ctx) : (s.setCtx n h x).power = s.power := rfl
@[simp] theorem State.setCtx_fw (s : State) (n h : Nat) (x : Ctx) : (s.setCtx n h x).fw = s.fw := rfl
@[simp] theorem State.setCtx_dbg (s : State) (n h : Nat) (x : Ctx) : (s.setCtx n h x).dbg = s.dbg := rfl
@[simp] theorem State.setCtx_waits (s : State) (n h : Nat) (x : Ctx) : (s.setCtx n h x).waits = s.waits := rfl
@[simp] theorem State.setCtx_winShut (s : State) (n h : Nat) (x : Ctx) : (s.setCtx n h x).winShut = s.winShut := rfl
@[simp] theorem State.setCtx_shadows (s : State) (n h : Nat) (x : Ctx) : (s.setCtx n h x).shadows = s.shadows := rfl
@[simp] theorem State.setCtx_kiln (s : State) (n h : Nat) (x : Ctx) : (s.setCtx n h x).kiln = s.kiln := rfl
@[simp] theorem State.setCtx_hports (s : State) (n h : Nat) (x : Ctx) : (s.setCtx n h x).hports = s.hports := rfl
@[simp] theorem State.setCtx_tunRows (s : State) (n h : Nat) (x : Ctx) : (s.setCtx n h x).tunRows = s.tunRows := rfl
@[simp] theorem State.setCtx_lpWords (s : State) (n h : Nat) (x : Ctx) : (s.setCtx n h x).lpWords = s.lpWords := rfl
@[simp] theorem State.setCtx_maintOut (s : State) (n h : Nat) (x : Ctx) : (s.setCtx n h x).maintOut = s.maintOut := rfl
@[simp] theorem State.setCtx_holds (s : State) (n h : Nat) (x : Ctx) : (s.setCtx n h x).holds = s.holds := rfl
@[simp] theorem State.setCtx_epochs (s : State) (n h : Nat) (x : Ctx) : (s.setCtx n h x).epochs = s.epochs := rfl
@[simp] theorem State.setCtx_plan (s : State) (n h : Nat) (x : Ctx) : (s.setCtx n h x).plan = s.plan := rfl
@[simp] theorem State.setCtx_events (s : State) (n h : Nat) (x : Ctx) : (s.setCtx n h x).events = s.events := rfl
@[simp] theorem State.setCtx_chEvents (s : State) (n h : Nat) (x : Ctx) : (s.setCtx n h x).chEvents = s.chEvents := rfl
@[simp] theorem State.setCtx_out (s : State) (n h : Nat) (x : Ctx) : (s.setCtx n h x).out = s.out := rfl
@[simp] theorem State.setCtx_free (s : State) (n h : Nat) (x : Ctx) : (s.setCtx n h x).free = s.free := rfl
@[simp] theorem State.setCtx_time (s : State) (n h : Nat) (x : Ctx) : (s.setCtx n h x).time = s.time := rfl
@[simp] theorem State.setCtx_pending (s : State) (n h : Nat) (x : Ctx) : (s.setCtx n h x).pending = s.pending := rfl
@[simp] theorem State.setCtx_linkErrs (s : State) (n h : Nat) (x : Ctx) : (s.setCtx n h x).linkErrs = s.linkErrs := rfl
@[simp] theorem State.setCtx_winClose (s : State) (n h : Nat) (x : Ctx) : (s.setCtx n h x).winClose = s.winClose := rfl
@[simp] theorem State.setCtx_faultWords (s : State) (n h : Nat) (x : Ctx) : (s.setCtx n h x).faultWords = s.faultWords := rfl
@[simp] theorem State.setCtx_walkQ (s : State) (n h : Nat) (x : Ctx) : (s.setCtx n h x).walkQ = s.walkQ := rfl

@[simp] theorem State.modCtx_dict (s : State) (n h : Nat) (f : Ctx → Ctx) : (s.modCtx n h f).dict = s.dict := rfl
@[simp] theorem State.modCtx_mem (s : State) (n h : Nat) (f : Ctx → Ctx) : (s.modCtx n h f).mem = s.mem := rfl
@[simp] theorem State.modCtx_poison (s : State) (n h : Nat) (f : Ctx → Ctx) : (s.modCtx n h f).poison = s.poison := rfl
@[simp] theorem State.modCtx_flaws (s : State) (n h : Nat) (f : Ctx → Ctx) : (s.modCtx n h f).flaws = s.flaws := rfl
@[simp] theorem State.modCtx_gens (s : State) (n h : Nat) (f : Ctx → Ctx) : (s.modCtx n h f).gens = s.gens := rfl
@[simp] theorem State.modCtx_barriers (s : State) (n h : Nat) (f : Ctx → Ctx) : (s.modCtx n h f).barriers = s.barriers := rfl
@[simp] theorem State.modCtx_saved (s : State) (n h : Nat) (f : Ctx → Ctx) : (s.modCtx n h f).saved = s.saved := rfl
@[simp] theorem State.modCtx_sessions (s : State) (n h : Nat) (f : Ctx → Ctx) : (s.modCtx n h f).sessions = s.sessions := rfl
@[simp] theorem State.modCtx_sessIds (s : State) (n h : Nat) (f : Ctx → Ctx) : (s.modCtx n h f).sessIds = s.sessIds := rfl
@[simp] theorem State.modCtx_openFails (s : State) (n h : Nat) (f : Ctx → Ctx) : (s.modCtx n h f).openFails = s.openFails := rfl
@[simp] theorem State.modCtx_qps (s : State) (n h : Nat) (f : Ctx → Ctx) : (s.modCtx n h f).qps = s.qps := rfl
@[simp] theorem State.modCtx_posts (s : State) (n h : Nat) (f : Ctx → Ctx) : (s.modCtx n h f).posts = s.posts := rfl
@[simp] theorem State.modCtx_ports (s : State) (n h : Nat) (f : Ctx → Ctx) : (s.modCtx n h f).ports = s.ports := rfl
@[simp] theorem State.modCtx_lxs (s : State) (n h : Nat) (f : Ctx → Ctx) : (s.modCtx n h f).lxs = s.lxs := rfl
@[simp] theorem State.modCtx_mxs (s : State) (n h : Nat) (f : Ctx → Ctx) : (s.modCtx n h f).mxs = s.mxs := rfl
@[simp] theorem State.modCtx_intakes (s : State) (n h : Nat) (f : Ctx → Ctx) : (s.modCtx n h f).intakes = s.intakes := rfl
@[simp] theorem State.modCtx_gates (s : State) (n h : Nat) (f : Ctx → Ctx) : (s.modCtx n h f).gates = s.gates := rfl
@[simp] theorem State.modCtx_pours (s : State) (n h : Nat) (f : Ctx → Ctx) : (s.modCtx n h f).pours = s.pours := rfl
@[simp] theorem State.modCtx_pourOff (s : State) (n h : Nat) (f : Ctx → Ctx) : (s.modCtx n h f).pourOff = s.pourOff := rfl
@[simp] theorem State.modCtx_latched (s : State) (n h : Nat) (f : Ctx → Ctx) : (s.modCtx n h f).latched = s.latched := rfl
@[simp] theorem State.modCtx_parts (s : State) (n h : Nat) (f : Ctx → Ctx) : (s.modCtx n h f).parts = s.parts := rfl
@[simp] theorem State.modCtx_filling (s : State) (n h : Nat) (f : Ctx → Ctx) : (s.modCtx n h f).filling = s.filling := rfl
@[simp] theorem State.modCtx_govQueue (s : State) (n h : Nat) (f : Ctx → Ctx) : (s.modCtx n h f).govQueue = s.govQueue := rfl
@[simp] theorem State.modCtx_power (s : State) (n h : Nat) (f : Ctx → Ctx) : (s.modCtx n h f).power = s.power := rfl
@[simp] theorem State.modCtx_fw (s : State) (n h : Nat) (f : Ctx → Ctx) : (s.modCtx n h f).fw = s.fw := rfl
@[simp] theorem State.modCtx_dbg (s : State) (n h : Nat) (f : Ctx → Ctx) : (s.modCtx n h f).dbg = s.dbg := rfl
@[simp] theorem State.modCtx_waits (s : State) (n h : Nat) (f : Ctx → Ctx) : (s.modCtx n h f).waits = s.waits := rfl
@[simp] theorem State.modCtx_winShut (s : State) (n h : Nat) (f : Ctx → Ctx) : (s.modCtx n h f).winShut = s.winShut := rfl
@[simp] theorem State.modCtx_shadows (s : State) (n h : Nat) (f : Ctx → Ctx) : (s.modCtx n h f).shadows = s.shadows := rfl
@[simp] theorem State.modCtx_kiln (s : State) (n h : Nat) (f : Ctx → Ctx) : (s.modCtx n h f).kiln = s.kiln := rfl
@[simp] theorem State.modCtx_hports (s : State) (n h : Nat) (f : Ctx → Ctx) : (s.modCtx n h f).hports = s.hports := rfl
@[simp] theorem State.modCtx_tunRows (s : State) (n h : Nat) (f : Ctx → Ctx) : (s.modCtx n h f).tunRows = s.tunRows := rfl
@[simp] theorem State.modCtx_lpWords (s : State) (n h : Nat) (f : Ctx → Ctx) : (s.modCtx n h f).lpWords = s.lpWords := rfl
@[simp] theorem State.modCtx_maintOut (s : State) (n h : Nat) (f : Ctx → Ctx) : (s.modCtx n h f).maintOut = s.maintOut := rfl
@[simp] theorem State.modCtx_holds (s : State) (n h : Nat) (f : Ctx → Ctx) : (s.modCtx n h f).holds = s.holds := rfl
@[simp] theorem State.modCtx_epochs (s : State) (n h : Nat) (f : Ctx → Ctx) : (s.modCtx n h f).epochs = s.epochs := rfl
@[simp] theorem State.modCtx_plan (s : State) (n h : Nat) (f : Ctx → Ctx) : (s.modCtx n h f).plan = s.plan := rfl
@[simp] theorem State.modCtx_events (s : State) (n h : Nat) (f : Ctx → Ctx) : (s.modCtx n h f).events = s.events := rfl
@[simp] theorem State.modCtx_chEvents (s : State) (n h : Nat) (f : Ctx → Ctx) : (s.modCtx n h f).chEvents = s.chEvents := rfl
@[simp] theorem State.modCtx_out (s : State) (n h : Nat) (f : Ctx → Ctx) : (s.modCtx n h f).out = s.out := rfl
@[simp] theorem State.modCtx_free (s : State) (n h : Nat) (f : Ctx → Ctx) : (s.modCtx n h f).free = s.free := rfl
@[simp] theorem State.modCtx_time (s : State) (n h : Nat) (f : Ctx → Ctx) : (s.modCtx n h f).time = s.time := rfl
@[simp] theorem State.modCtx_pending (s : State) (n h : Nat) (f : Ctx → Ctx) : (s.modCtx n h f).pending = s.pending := rfl
@[simp] theorem State.modCtx_linkErrs (s : State) (n h : Nat) (f : Ctx → Ctx) : (s.modCtx n h f).linkErrs = s.linkErrs := rfl
@[simp] theorem State.modCtx_winClose (s : State) (n h : Nat) (f : Ctx → Ctx) : (s.modCtx n h f).winClose = s.winClose := rfl
@[simp] theorem State.modCtx_faultWords (s : State) (n h : Nat) (f : Ctx → Ctx) : (s.modCtx n h f).faultWords = s.faultWords := rfl
@[simp] theorem State.modCtx_walkQ (s : State) (n h : Nat) (f : Ctx → Ctx) : (s.modCtx n h f).walkQ = s.walkQ := rfl

@[simp] theorem State.setStream_dict (s : State) (n k : Nat) (x : Stream) : (s.setStream n k x).dict = s.dict := rfl
@[simp] theorem State.setStream_mem (s : State) (n k : Nat) (x : Stream) : (s.setStream n k x).mem = s.mem := rfl
@[simp] theorem State.setStream_poison (s : State) (n k : Nat) (x : Stream) : (s.setStream n k x).poison = s.poison := rfl
@[simp] theorem State.setStream_flaws (s : State) (n k : Nat) (x : Stream) : (s.setStream n k x).flaws = s.flaws := rfl
@[simp] theorem State.setStream_gens (s : State) (n k : Nat) (x : Stream) : (s.setStream n k x).gens = s.gens := rfl
@[simp] theorem State.setStream_barriers (s : State) (n k : Nat) (x : Stream) : (s.setStream n k x).barriers = s.barriers := rfl
@[simp] theorem State.setStream_saved (s : State) (n k : Nat) (x : Stream) : (s.setStream n k x).saved = s.saved := rfl
@[simp] theorem State.setStream_sessions (s : State) (n k : Nat) (x : Stream) : (s.setStream n k x).sessions = s.sessions := rfl
@[simp] theorem State.setStream_sessIds (s : State) (n k : Nat) (x : Stream) : (s.setStream n k x).sessIds = s.sessIds := rfl
@[simp] theorem State.setStream_openFails (s : State) (n k : Nat) (x : Stream) : (s.setStream n k x).openFails = s.openFails := rfl
@[simp] theorem State.setStream_qps (s : State) (n k : Nat) (x : Stream) : (s.setStream n k x).qps = s.qps := rfl
@[simp] theorem State.setStream_posts (s : State) (n k : Nat) (x : Stream) : (s.setStream n k x).posts = s.posts := rfl
@[simp] theorem State.setStream_ports (s : State) (n k : Nat) (x : Stream) : (s.setStream n k x).ports = s.ports := rfl
@[simp] theorem State.setStream_lxs (s : State) (n k : Nat) (x : Stream) : (s.setStream n k x).lxs = s.lxs := rfl
@[simp] theorem State.setStream_mxs (s : State) (n k : Nat) (x : Stream) : (s.setStream n k x).mxs = s.mxs := rfl
@[simp] theorem State.setStream_intakes (s : State) (n k : Nat) (x : Stream) : (s.setStream n k x).intakes = s.intakes := rfl
@[simp] theorem State.setStream_gates (s : State) (n k : Nat) (x : Stream) : (s.setStream n k x).gates = s.gates := rfl
@[simp] theorem State.setStream_pours (s : State) (n k : Nat) (x : Stream) : (s.setStream n k x).pours = s.pours := rfl
@[simp] theorem State.setStream_pourOff (s : State) (n k : Nat) (x : Stream) : (s.setStream n k x).pourOff = s.pourOff := rfl
@[simp] theorem State.setStream_latched (s : State) (n k : Nat) (x : Stream) : (s.setStream n k x).latched = s.latched := rfl
@[simp] theorem State.setStream_parts (s : State) (n k : Nat) (x : Stream) : (s.setStream n k x).parts = s.parts := rfl
@[simp] theorem State.setStream_filling (s : State) (n k : Nat) (x : Stream) : (s.setStream n k x).filling = s.filling := rfl
@[simp] theorem State.setStream_govQueue (s : State) (n k : Nat) (x : Stream) : (s.setStream n k x).govQueue = s.govQueue := rfl
@[simp] theorem State.setStream_power (s : State) (n k : Nat) (x : Stream) : (s.setStream n k x).power = s.power := rfl
@[simp] theorem State.setStream_fw (s : State) (n k : Nat) (x : Stream) : (s.setStream n k x).fw = s.fw := rfl
@[simp] theorem State.setStream_dbg (s : State) (n k : Nat) (x : Stream) : (s.setStream n k x).dbg = s.dbg := rfl
@[simp] theorem State.setStream_waits (s : State) (n k : Nat) (x : Stream) : (s.setStream n k x).waits = s.waits := rfl
@[simp] theorem State.setStream_winShut (s : State) (n k : Nat) (x : Stream) : (s.setStream n k x).winShut = s.winShut := rfl
@[simp] theorem State.setStream_shadows (s : State) (n k : Nat) (x : Stream) : (s.setStream n k x).shadows = s.shadows := rfl
@[simp] theorem State.setStream_kiln (s : State) (n k : Nat) (x : Stream) : (s.setStream n k x).kiln = s.kiln := rfl
@[simp] theorem State.setStream_hports (s : State) (n k : Nat) (x : Stream) : (s.setStream n k x).hports = s.hports := rfl
@[simp] theorem State.setStream_tunRows (s : State) (n k : Nat) (x : Stream) : (s.setStream n k x).tunRows = s.tunRows := rfl
@[simp] theorem State.setStream_lpWords (s : State) (n k : Nat) (x : Stream) : (s.setStream n k x).lpWords = s.lpWords := rfl
@[simp] theorem State.setStream_maintOut (s : State) (n k : Nat) (x : Stream) : (s.setStream n k x).maintOut = s.maintOut := rfl
@[simp] theorem State.setStream_holds (s : State) (n k : Nat) (x : Stream) : (s.setStream n k x).holds = s.holds := rfl
@[simp] theorem State.setStream_epochs (s : State) (n k : Nat) (x : Stream) : (s.setStream n k x).epochs = s.epochs := rfl
@[simp] theorem State.setStream_plan (s : State) (n k : Nat) (x : Stream) : (s.setStream n k x).plan = s.plan := rfl
@[simp] theorem State.setStream_events (s : State) (n k : Nat) (x : Stream) : (s.setStream n k x).events = s.events := rfl
@[simp] theorem State.setStream_chEvents (s : State) (n k : Nat) (x : Stream) : (s.setStream n k x).chEvents = s.chEvents := rfl
@[simp] theorem State.setStream_out (s : State) (n k : Nat) (x : Stream) : (s.setStream n k x).out = s.out := rfl
@[simp] theorem State.setStream_free (s : State) (n k : Nat) (x : Stream) : (s.setStream n k x).free = s.free := rfl
@[simp] theorem State.setStream_time (s : State) (n k : Nat) (x : Stream) : (s.setStream n k x).time = s.time := rfl
@[simp] theorem State.setStream_pending (s : State) (n k : Nat) (x : Stream) : (s.setStream n k x).pending = s.pending := rfl
@[simp] theorem State.setStream_linkErrs (s : State) (n k : Nat) (x : Stream) : (s.setStream n k x).linkErrs = s.linkErrs := rfl
@[simp] theorem State.setStream_winClose (s : State) (n k : Nat) (x : Stream) : (s.setStream n k x).winClose = s.winClose := rfl
@[simp] theorem State.setStream_faultWords (s : State) (n k : Nat) (x : Stream) : (s.setStream n k x).faultWords = s.faultWords := rfl
@[simp] theorem State.setStream_walkQ (s : State) (n k : Nat) (x : Stream) : (s.setStream n k x).walkQ = s.walkQ := rfl

@[simp] theorem State.setRing_dict (s : State) (n r : Nat) (x : Ring) : (s.setRing n r x).dict = s.dict := rfl
@[simp] theorem State.setRing_mem (s : State) (n r : Nat) (x : Ring) : (s.setRing n r x).mem = s.mem := rfl
@[simp] theorem State.setRing_poison (s : State) (n r : Nat) (x : Ring) : (s.setRing n r x).poison = s.poison := rfl
@[simp] theorem State.setRing_flaws (s : State) (n r : Nat) (x : Ring) : (s.setRing n r x).flaws = s.flaws := rfl
@[simp] theorem State.setRing_gens (s : State) (n r : Nat) (x : Ring) : (s.setRing n r x).gens = s.gens := rfl
@[simp] theorem State.setRing_barriers (s : State) (n r : Nat) (x : Ring) : (s.setRing n r x).barriers = s.barriers := rfl
@[simp] theorem State.setRing_saved (s : State) (n r : Nat) (x : Ring) : (s.setRing n r x).saved = s.saved := rfl
@[simp] theorem State.setRing_sessions (s : State) (n r : Nat) (x : Ring) : (s.setRing n r x).sessions = s.sessions := rfl
@[simp] theorem State.setRing_sessIds (s : State) (n r : Nat) (x : Ring) : (s.setRing n r x).sessIds = s.sessIds := rfl
@[simp] theorem State.setRing_openFails (s : State) (n r : Nat) (x : Ring) : (s.setRing n r x).openFails = s.openFails := rfl
@[simp] theorem State.setRing_qps (s : State) (n r : Nat) (x : Ring) : (s.setRing n r x).qps = s.qps := rfl
@[simp] theorem State.setRing_posts (s : State) (n r : Nat) (x : Ring) : (s.setRing n r x).posts = s.posts := rfl
@[simp] theorem State.setRing_ports (s : State) (n r : Nat) (x : Ring) : (s.setRing n r x).ports = s.ports := rfl
@[simp] theorem State.setRing_lxs (s : State) (n r : Nat) (x : Ring) : (s.setRing n r x).lxs = s.lxs := rfl
@[simp] theorem State.setRing_mxs (s : State) (n r : Nat) (x : Ring) : (s.setRing n r x).mxs = s.mxs := rfl
@[simp] theorem State.setRing_intakes (s : State) (n r : Nat) (x : Ring) : (s.setRing n r x).intakes = s.intakes := rfl
@[simp] theorem State.setRing_gates (s : State) (n r : Nat) (x : Ring) : (s.setRing n r x).gates = s.gates := rfl
@[simp] theorem State.setRing_pours (s : State) (n r : Nat) (x : Ring) : (s.setRing n r x).pours = s.pours := rfl
@[simp] theorem State.setRing_pourOff (s : State) (n r : Nat) (x : Ring) : (s.setRing n r x).pourOff = s.pourOff := rfl
@[simp] theorem State.setRing_latched (s : State) (n r : Nat) (x : Ring) : (s.setRing n r x).latched = s.latched := rfl
@[simp] theorem State.setRing_parts (s : State) (n r : Nat) (x : Ring) : (s.setRing n r x).parts = s.parts := rfl
@[simp] theorem State.setRing_filling (s : State) (n r : Nat) (x : Ring) : (s.setRing n r x).filling = s.filling := rfl
@[simp] theorem State.setRing_govQueue (s : State) (n r : Nat) (x : Ring) : (s.setRing n r x).govQueue = s.govQueue := rfl
@[simp] theorem State.setRing_power (s : State) (n r : Nat) (x : Ring) : (s.setRing n r x).power = s.power := rfl
@[simp] theorem State.setRing_fw (s : State) (n r : Nat) (x : Ring) : (s.setRing n r x).fw = s.fw := rfl
@[simp] theorem State.setRing_dbg (s : State) (n r : Nat) (x : Ring) : (s.setRing n r x).dbg = s.dbg := rfl
@[simp] theorem State.setRing_waits (s : State) (n r : Nat) (x : Ring) : (s.setRing n r x).waits = s.waits := rfl
@[simp] theorem State.setRing_winShut (s : State) (n r : Nat) (x : Ring) : (s.setRing n r x).winShut = s.winShut := rfl
@[simp] theorem State.setRing_shadows (s : State) (n r : Nat) (x : Ring) : (s.setRing n r x).shadows = s.shadows := rfl
@[simp] theorem State.setRing_kiln (s : State) (n r : Nat) (x : Ring) : (s.setRing n r x).kiln = s.kiln := rfl
@[simp] theorem State.setRing_hports (s : State) (n r : Nat) (x : Ring) : (s.setRing n r x).hports = s.hports := rfl
@[simp] theorem State.setRing_tunRows (s : State) (n r : Nat) (x : Ring) : (s.setRing n r x).tunRows = s.tunRows := rfl
@[simp] theorem State.setRing_lpWords (s : State) (n r : Nat) (x : Ring) : (s.setRing n r x).lpWords = s.lpWords := rfl
@[simp] theorem State.setRing_maintOut (s : State) (n r : Nat) (x : Ring) : (s.setRing n r x).maintOut = s.maintOut := rfl
@[simp] theorem State.setRing_holds (s : State) (n r : Nat) (x : Ring) : (s.setRing n r x).holds = s.holds := rfl
@[simp] theorem State.setRing_epochs (s : State) (n r : Nat) (x : Ring) : (s.setRing n r x).epochs = s.epochs := rfl
@[simp] theorem State.setRing_plan (s : State) (n r : Nat) (x : Ring) : (s.setRing n r x).plan = s.plan := rfl
@[simp] theorem State.setRing_events (s : State) (n r : Nat) (x : Ring) : (s.setRing n r x).events = s.events := rfl
@[simp] theorem State.setRing_chEvents (s : State) (n r : Nat) (x : Ring) : (s.setRing n r x).chEvents = s.chEvents := rfl
@[simp] theorem State.setRing_out (s : State) (n r : Nat) (x : Ring) : (s.setRing n r x).out = s.out := rfl
@[simp] theorem State.setRing_free (s : State) (n r : Nat) (x : Ring) : (s.setRing n r x).free = s.free := rfl
@[simp] theorem State.setRing_time (s : State) (n r : Nat) (x : Ring) : (s.setRing n r x).time = s.time := rfl
@[simp] theorem State.setRing_pending (s : State) (n r : Nat) (x : Ring) : (s.setRing n r x).pending = s.pending := rfl
@[simp] theorem State.setRing_linkErrs (s : State) (n r : Nat) (x : Ring) : (s.setRing n r x).linkErrs = s.linkErrs := rfl
@[simp] theorem State.setRing_winClose (s : State) (n r : Nat) (x : Ring) : (s.setRing n r x).winClose = s.winClose := rfl
@[simp] theorem State.setRing_faultWords (s : State) (n r : Nat) (x : Ring) : (s.setRing n r x).faultWords = s.faultWords := rfl
@[simp] theorem State.setRing_walkQ (s : State) (n r : Nat) (x : Ring) : (s.setRing n r x).walkQ = s.walkQ := rfl

@[simp] theorem State.setBarrier_dict (s : State) (d b : Nat) (x : Barrier) : (s.setBarrier d b x).dict = s.dict := rfl
@[simp] theorem State.setBarrier_mem (s : State) (d b : Nat) (x : Barrier) : (s.setBarrier d b x).mem = s.mem := rfl
@[simp] theorem State.setBarrier_poison (s : State) (d b : Nat) (x : Barrier) : (s.setBarrier d b x).poison = s.poison := rfl
@[simp] theorem State.setBarrier_flaws (s : State) (d b : Nat) (x : Barrier) : (s.setBarrier d b x).flaws = s.flaws := rfl
@[simp] theorem State.setBarrier_gens (s : State) (d b : Nat) (x : Barrier) : (s.setBarrier d b x).gens = s.gens := rfl
@[simp] theorem State.setBarrier_cores (s : State) (d b : Nat) (x : Barrier) : (s.setBarrier d b x).cores = s.cores := rfl
@[simp] theorem State.setBarrier_saved (s : State) (d b : Nat) (x : Barrier) : (s.setBarrier d b x).saved = s.saved := rfl
@[simp] theorem State.setBarrier_sessions (s : State) (d b : Nat) (x : Barrier) : (s.setBarrier d b x).sessions = s.sessions := rfl
@[simp] theorem State.setBarrier_sessIds (s : State) (d b : Nat) (x : Barrier) : (s.setBarrier d b x).sessIds = s.sessIds := rfl
@[simp] theorem State.setBarrier_openFails (s : State) (d b : Nat) (x : Barrier) : (s.setBarrier d b x).openFails = s.openFails := rfl
@[simp] theorem State.setBarrier_qps (s : State) (d b : Nat) (x : Barrier) : (s.setBarrier d b x).qps = s.qps := rfl
@[simp] theorem State.setBarrier_posts (s : State) (d b : Nat) (x : Barrier) : (s.setBarrier d b x).posts = s.posts := rfl
@[simp] theorem State.setBarrier_ports (s : State) (d b : Nat) (x : Barrier) : (s.setBarrier d b x).ports = s.ports := rfl
@[simp] theorem State.setBarrier_lxs (s : State) (d b : Nat) (x : Barrier) : (s.setBarrier d b x).lxs = s.lxs := rfl
@[simp] theorem State.setBarrier_mxs (s : State) (d b : Nat) (x : Barrier) : (s.setBarrier d b x).mxs = s.mxs := rfl
@[simp] theorem State.setBarrier_intakes (s : State) (d b : Nat) (x : Barrier) : (s.setBarrier d b x).intakes = s.intakes := rfl
@[simp] theorem State.setBarrier_gates (s : State) (d b : Nat) (x : Barrier) : (s.setBarrier d b x).gates = s.gates := rfl
@[simp] theorem State.setBarrier_pours (s : State) (d b : Nat) (x : Barrier) : (s.setBarrier d b x).pours = s.pours := rfl
@[simp] theorem State.setBarrier_pourOff (s : State) (d b : Nat) (x : Barrier) : (s.setBarrier d b x).pourOff = s.pourOff := rfl
@[simp] theorem State.setBarrier_latched (s : State) (d b : Nat) (x : Barrier) : (s.setBarrier d b x).latched = s.latched := rfl
@[simp] theorem State.setBarrier_parts (s : State) (d b : Nat) (x : Barrier) : (s.setBarrier d b x).parts = s.parts := rfl
@[simp] theorem State.setBarrier_filling (s : State) (d b : Nat) (x : Barrier) : (s.setBarrier d b x).filling = s.filling := rfl
@[simp] theorem State.setBarrier_govQueue (s : State) (d b : Nat) (x : Barrier) : (s.setBarrier d b x).govQueue = s.govQueue := rfl
@[simp] theorem State.setBarrier_power (s : State) (d b : Nat) (x : Barrier) : (s.setBarrier d b x).power = s.power := rfl
@[simp] theorem State.setBarrier_fw (s : State) (d b : Nat) (x : Barrier) : (s.setBarrier d b x).fw = s.fw := rfl
@[simp] theorem State.setBarrier_dbg (s : State) (d b : Nat) (x : Barrier) : (s.setBarrier d b x).dbg = s.dbg := rfl
@[simp] theorem State.setBarrier_waits (s : State) (d b : Nat) (x : Barrier) : (s.setBarrier d b x).waits = s.waits := rfl
@[simp] theorem State.setBarrier_winShut (s : State) (d b : Nat) (x : Barrier) : (s.setBarrier d b x).winShut = s.winShut := rfl
@[simp] theorem State.setBarrier_shadows (s : State) (d b : Nat) (x : Barrier) : (s.setBarrier d b x).shadows = s.shadows := rfl
@[simp] theorem State.setBarrier_kiln (s : State) (d b : Nat) (x : Barrier) : (s.setBarrier d b x).kiln = s.kiln := rfl
@[simp] theorem State.setBarrier_hports (s : State) (d b : Nat) (x : Barrier) : (s.setBarrier d b x).hports = s.hports := rfl
@[simp] theorem State.setBarrier_tunRows (s : State) (d b : Nat) (x : Barrier) : (s.setBarrier d b x).tunRows = s.tunRows := rfl
@[simp] theorem State.setBarrier_lpWords (s : State) (d b : Nat) (x : Barrier) : (s.setBarrier d b x).lpWords = s.lpWords := rfl
@[simp] theorem State.setBarrier_maintOut (s : State) (d b : Nat) (x : Barrier) : (s.setBarrier d b x).maintOut = s.maintOut := rfl
@[simp] theorem State.setBarrier_holds (s : State) (d b : Nat) (x : Barrier) : (s.setBarrier d b x).holds = s.holds := rfl
@[simp] theorem State.setBarrier_epochs (s : State) (d b : Nat) (x : Barrier) : (s.setBarrier d b x).epochs = s.epochs := rfl
@[simp] theorem State.setBarrier_plan (s : State) (d b : Nat) (x : Barrier) : (s.setBarrier d b x).plan = s.plan := rfl
@[simp] theorem State.setBarrier_events (s : State) (d b : Nat) (x : Barrier) : (s.setBarrier d b x).events = s.events := rfl
@[simp] theorem State.setBarrier_chEvents (s : State) (d b : Nat) (x : Barrier) : (s.setBarrier d b x).chEvents = s.chEvents := rfl
@[simp] theorem State.setBarrier_out (s : State) (d b : Nat) (x : Barrier) : (s.setBarrier d b x).out = s.out := rfl
@[simp] theorem State.setBarrier_free (s : State) (d b : Nat) (x : Barrier) : (s.setBarrier d b x).free = s.free := rfl
@[simp] theorem State.setBarrier_time (s : State) (d b : Nat) (x : Barrier) : (s.setBarrier d b x).time = s.time := rfl
@[simp] theorem State.setBarrier_pending (s : State) (d b : Nat) (x : Barrier) : (s.setBarrier d b x).pending = s.pending := rfl
@[simp] theorem State.setBarrier_linkErrs (s : State) (d b : Nat) (x : Barrier) : (s.setBarrier d b x).linkErrs = s.linkErrs := rfl
@[simp] theorem State.setBarrier_winClose (s : State) (d b : Nat) (x : Barrier) : (s.setBarrier d b x).winClose = s.winClose := rfl
@[simp] theorem State.setBarrier_faultWords (s : State) (d b : Nat) (x : Barrier) : (s.setBarrier d b x).faultWords = s.faultWords := rfl
@[simp] theorem State.setBarrier_walkQ (s : State) (d b : Nat) (x : Barrier) : (s.setBarrier d b x).walkQ = s.walkQ := rfl

@[simp] theorem State.bump_mem (s : State) (w i k m : Nat) : (s.bump w i k m).mem = s.mem := rfl
@[simp] theorem State.bump_poison (s : State) (w i k m : Nat) : (s.bump w i k m).poison = s.poison := rfl
@[simp] theorem State.bump_flaws (s : State) (w i k m : Nat) : (s.bump w i k m).flaws = s.flaws := rfl
@[simp] theorem State.bump_gens (s : State) (w i k m : Nat) : (s.bump w i k m).gens = s.gens := rfl
@[simp] theorem State.bump_cores (s : State) (w i k m : Nat) : (s.bump w i k m).cores = s.cores := rfl
@[simp] theorem State.bump_barriers (s : State) (w i k m : Nat) : (s.bump w i k m).barriers = s.barriers := rfl
@[simp] theorem State.bump_saved (s : State) (w i k m : Nat) : (s.bump w i k m).saved = s.saved := rfl
@[simp] theorem State.bump_sessions (s : State) (w i k m : Nat) : (s.bump w i k m).sessions = s.sessions := rfl
@[simp] theorem State.bump_sessIds (s : State) (w i k m : Nat) : (s.bump w i k m).sessIds = s.sessIds := rfl
@[simp] theorem State.bump_openFails (s : State) (w i k m : Nat) : (s.bump w i k m).openFails = s.openFails := rfl
@[simp] theorem State.bump_qps (s : State) (w i k m : Nat) : (s.bump w i k m).qps = s.qps := rfl
@[simp] theorem State.bump_posts (s : State) (w i k m : Nat) : (s.bump w i k m).posts = s.posts := rfl
@[simp] theorem State.bump_ports (s : State) (w i k m : Nat) : (s.bump w i k m).ports = s.ports := rfl
@[simp] theorem State.bump_lxs (s : State) (w i k m : Nat) : (s.bump w i k m).lxs = s.lxs := rfl
@[simp] theorem State.bump_mxs (s : State) (w i k m : Nat) : (s.bump w i k m).mxs = s.mxs := rfl
@[simp] theorem State.bump_intakes (s : State) (w i k m : Nat) : (s.bump w i k m).intakes = s.intakes := rfl
@[simp] theorem State.bump_gates (s : State) (w i k m : Nat) : (s.bump w i k m).gates = s.gates := rfl
@[simp] theorem State.bump_pours (s : State) (w i k m : Nat) : (s.bump w i k m).pours = s.pours := rfl
@[simp] theorem State.bump_pourOff (s : State) (w i k m : Nat) : (s.bump w i k m).pourOff = s.pourOff := rfl
@[simp] theorem State.bump_latched (s : State) (w i k m : Nat) : (s.bump w i k m).latched = s.latched := rfl
@[simp] theorem State.bump_parts (s : State) (w i k m : Nat) : (s.bump w i k m).parts = s.parts := rfl
@[simp] theorem State.bump_filling (s : State) (w i k m : Nat) : (s.bump w i k m).filling = s.filling := rfl
@[simp] theorem State.bump_govQueue (s : State) (w i k m : Nat) : (s.bump w i k m).govQueue = s.govQueue := rfl
@[simp] theorem State.bump_power (s : State) (w i k m : Nat) : (s.bump w i k m).power = s.power := rfl
@[simp] theorem State.bump_fw (s : State) (w i k m : Nat) : (s.bump w i k m).fw = s.fw := rfl
@[simp] theorem State.bump_dbg (s : State) (w i k m : Nat) : (s.bump w i k m).dbg = s.dbg := rfl
@[simp] theorem State.bump_waits (s : State) (w i k m : Nat) : (s.bump w i k m).waits = s.waits := rfl
@[simp] theorem State.bump_winShut (s : State) (w i k m : Nat) : (s.bump w i k m).winShut = s.winShut := rfl
@[simp] theorem State.bump_shadows (s : State) (w i k m : Nat) : (s.bump w i k m).shadows = s.shadows := rfl
@[simp] theorem State.bump_kiln (s : State) (w i k m : Nat) : (s.bump w i k m).kiln = s.kiln := rfl
@[simp] theorem State.bump_hports (s : State) (w i k m : Nat) : (s.bump w i k m).hports = s.hports := rfl
@[simp] theorem State.bump_tunRows (s : State) (w i k m : Nat) : (s.bump w i k m).tunRows = s.tunRows := rfl
@[simp] theorem State.bump_lpWords (s : State) (w i k m : Nat) : (s.bump w i k m).lpWords = s.lpWords := rfl
@[simp] theorem State.bump_maintOut (s : State) (w i k m : Nat) : (s.bump w i k m).maintOut = s.maintOut := rfl
@[simp] theorem State.bump_holds (s : State) (w i k m : Nat) : (s.bump w i k m).holds = s.holds := rfl
@[simp] theorem State.bump_epochs (s : State) (w i k m : Nat) : (s.bump w i k m).epochs = s.epochs := rfl
@[simp] theorem State.bump_plan (s : State) (w i k m : Nat) : (s.bump w i k m).plan = s.plan := rfl
@[simp] theorem State.bump_events (s : State) (w i k m : Nat) : (s.bump w i k m).events = s.events := rfl
@[simp] theorem State.bump_chEvents (s : State) (w i k m : Nat) : (s.bump w i k m).chEvents = s.chEvents := rfl
@[simp] theorem State.bump_out (s : State) (w i k m : Nat) : (s.bump w i k m).out = s.out := rfl
@[simp] theorem State.bump_free (s : State) (w i k m : Nat) : (s.bump w i k m).free = s.free := rfl
@[simp] theorem State.bump_time (s : State) (w i k m : Nat) : (s.bump w i k m).time = s.time := rfl
@[simp] theorem State.bump_pending (s : State) (w i k m : Nat) : (s.bump w i k m).pending = s.pending := rfl
@[simp] theorem State.bump_linkErrs (s : State) (w i k m : Nat) : (s.bump w i k m).linkErrs = s.linkErrs := rfl
@[simp] theorem State.bump_winClose (s : State) (w i k m : Nat) : (s.bump w i k m).winClose = s.winClose := rfl
@[simp] theorem State.bump_faultWords (s : State) (w i k m : Nat) : (s.bump w i k m).faultWords = s.faultWords := rfl
@[simp] theorem State.bump_walkQ (s : State) (w i k m : Nat) : (s.bump w i k m).walkQ = s.walkQ := rfl

@[simp] theorem State.bumpWrap_mem (s : State) (w i k m : Nat) : (s.bumpWrap w i k m).mem = s.mem := rfl
@[simp] theorem State.bumpWrap_poison (s : State) (w i k m : Nat) : (s.bumpWrap w i k m).poison = s.poison := rfl
@[simp] theorem State.bumpWrap_flaws (s : State) (w i k m : Nat) : (s.bumpWrap w i k m).flaws = s.flaws := rfl
@[simp] theorem State.bumpWrap_gens (s : State) (w i k m : Nat) : (s.bumpWrap w i k m).gens = s.gens := rfl
@[simp] theorem State.bumpWrap_cores (s : State) (w i k m : Nat) : (s.bumpWrap w i k m).cores = s.cores := rfl
@[simp] theorem State.bumpWrap_barriers (s : State) (w i k m : Nat) : (s.bumpWrap w i k m).barriers = s.barriers := rfl
@[simp] theorem State.bumpWrap_saved (s : State) (w i k m : Nat) : (s.bumpWrap w i k m).saved = s.saved := rfl
@[simp] theorem State.bumpWrap_sessions (s : State) (w i k m : Nat) : (s.bumpWrap w i k m).sessions = s.sessions := rfl
@[simp] theorem State.bumpWrap_sessIds (s : State) (w i k m : Nat) : (s.bumpWrap w i k m).sessIds = s.sessIds := rfl
@[simp] theorem State.bumpWrap_openFails (s : State) (w i k m : Nat) : (s.bumpWrap w i k m).openFails = s.openFails := rfl
@[simp] theorem State.bumpWrap_qps (s : State) (w i k m : Nat) : (s.bumpWrap w i k m).qps = s.qps := rfl
@[simp] theorem State.bumpWrap_posts (s : State) (w i k m : Nat) : (s.bumpWrap w i k m).posts = s.posts := rfl
@[simp] theorem State.bumpWrap_ports (s : State) (w i k m : Nat) : (s.bumpWrap w i k m).ports = s.ports := rfl
@[simp] theorem State.bumpWrap_lxs (s : State) (w i k m : Nat) : (s.bumpWrap w i k m).lxs = s.lxs := rfl
@[simp] theorem State.bumpWrap_mxs (s : State) (w i k m : Nat) : (s.bumpWrap w i k m).mxs = s.mxs := rfl
@[simp] theorem State.bumpWrap_intakes (s : State) (w i k m : Nat) : (s.bumpWrap w i k m).intakes = s.intakes := rfl
@[simp] theorem State.bumpWrap_gates (s : State) (w i k m : Nat) : (s.bumpWrap w i k m).gates = s.gates := rfl
@[simp] theorem State.bumpWrap_pours (s : State) (w i k m : Nat) : (s.bumpWrap w i k m).pours = s.pours := rfl
@[simp] theorem State.bumpWrap_pourOff (s : State) (w i k m : Nat) : (s.bumpWrap w i k m).pourOff = s.pourOff := rfl
@[simp] theorem State.bumpWrap_latched (s : State) (w i k m : Nat) : (s.bumpWrap w i k m).latched = s.latched := rfl
@[simp] theorem State.bumpWrap_parts (s : State) (w i k m : Nat) : (s.bumpWrap w i k m).parts = s.parts := rfl
@[simp] theorem State.bumpWrap_filling (s : State) (w i k m : Nat) : (s.bumpWrap w i k m).filling = s.filling := rfl
@[simp] theorem State.bumpWrap_govQueue (s : State) (w i k m : Nat) : (s.bumpWrap w i k m).govQueue = s.govQueue := rfl
@[simp] theorem State.bumpWrap_power (s : State) (w i k m : Nat) : (s.bumpWrap w i k m).power = s.power := rfl
@[simp] theorem State.bumpWrap_fw (s : State) (w i k m : Nat) : (s.bumpWrap w i k m).fw = s.fw := rfl
@[simp] theorem State.bumpWrap_dbg (s : State) (w i k m : Nat) : (s.bumpWrap w i k m).dbg = s.dbg := rfl
@[simp] theorem State.bumpWrap_waits (s : State) (w i k m : Nat) : (s.bumpWrap w i k m).waits = s.waits := rfl
@[simp] theorem State.bumpWrap_winShut (s : State) (w i k m : Nat) : (s.bumpWrap w i k m).winShut = s.winShut := rfl
@[simp] theorem State.bumpWrap_shadows (s : State) (w i k m : Nat) : (s.bumpWrap w i k m).shadows = s.shadows := rfl
@[simp] theorem State.bumpWrap_kiln (s : State) (w i k m : Nat) : (s.bumpWrap w i k m).kiln = s.kiln := rfl
@[simp] theorem State.bumpWrap_hports (s : State) (w i k m : Nat) : (s.bumpWrap w i k m).hports = s.hports := rfl
@[simp] theorem State.bumpWrap_tunRows (s : State) (w i k m : Nat) : (s.bumpWrap w i k m).tunRows = s.tunRows := rfl
@[simp] theorem State.bumpWrap_lpWords (s : State) (w i k m : Nat) : (s.bumpWrap w i k m).lpWords = s.lpWords := rfl
@[simp] theorem State.bumpWrap_maintOut (s : State) (w i k m : Nat) : (s.bumpWrap w i k m).maintOut = s.maintOut := rfl
@[simp] theorem State.bumpWrap_holds (s : State) (w i k m : Nat) : (s.bumpWrap w i k m).holds = s.holds := rfl
@[simp] theorem State.bumpWrap_epochs (s : State) (w i k m : Nat) : (s.bumpWrap w i k m).epochs = s.epochs := rfl
@[simp] theorem State.bumpWrap_plan (s : State) (w i k m : Nat) : (s.bumpWrap w i k m).plan = s.plan := rfl
@[simp] theorem State.bumpWrap_events (s : State) (w i k m : Nat) : (s.bumpWrap w i k m).events = s.events := rfl
@[simp] theorem State.bumpWrap_chEvents (s : State) (w i k m : Nat) : (s.bumpWrap w i k m).chEvents = s.chEvents := rfl
@[simp] theorem State.bumpWrap_out (s : State) (w i k m : Nat) : (s.bumpWrap w i k m).out = s.out := rfl
@[simp] theorem State.bumpWrap_free (s : State) (w i k m : Nat) : (s.bumpWrap w i k m).free = s.free := rfl
@[simp] theorem State.bumpWrap_time (s : State) (w i k m : Nat) : (s.bumpWrap w i k m).time = s.time := rfl
@[simp] theorem State.bumpWrap_pending (s : State) (w i k m : Nat) : (s.bumpWrap w i k m).pending = s.pending := rfl
@[simp] theorem State.bumpWrap_linkErrs (s : State) (w i k m : Nat) : (s.bumpWrap w i k m).linkErrs = s.linkErrs := rfl
@[simp] theorem State.bumpWrap_winClose (s : State) (w i k m : Nat) : (s.bumpWrap w i k m).winClose = s.winClose := rfl
@[simp] theorem State.bumpWrap_faultWords (s : State) (w i k m : Nat) : (s.bumpWrap w i k m).faultWords = s.faultWords := rfl
@[simp] theorem State.bumpWrap_walkQ (s : State) (w i k m : Nat) : (s.bumpWrap w i k m).walkQ = s.walkQ := rfl

@[simp] theorem State.setCore_cores (s : State) (n : Nat) (c : Core) : (s.setCore n c).cores = SMap.putD {} n c s.cores := rfl
@[simp] theorem State.emit_out (s : State) (o : Output) : (s.emit o).out = s.out ++ [o] := rfl

/-- A key that was written holds what was written. -/
theorem find_put {α : Type} (k : Nat) (v : α) (m : SMap α) : SMap.find? k (SMap.put k v m) = some v := by
  induction m with
  | nil => simp [SMap.put, SMap.find?]
  | cons e t ih =>
    obtain ⟨a, w⟩ := e
    simp only [SMap.put]
    split
    · simp [SMap.find?]
    · split
      · simp [SMap.find?]
      · rename_i h _; simp [SMap.find?, h, ih]

/-- Another key keeps its entry. -/
theorem find_put_ne {α : Type} {k j : Nat} (v : α) (m : SMap α) (h : j ≠ k) :
    SMap.find? j (SMap.put k v m) = SMap.find? j m := by
  induction m with
  | nil => simp [SMap.put, SMap.find?, Ne.symm h]
  | cons e t ih =>
    obtain ⟨a, w⟩ := e
    simp only [SMap.put]
    split
    · rename_i ha; subst ha; simp [SMap.find?, Ne.symm h]
    · split
      · simp [SMap.find?, Ne.symm h]
      · simp [SMap.find?, ih]

/-- A removed key has no entry. -/
theorem find_del {α : Type} (k : Nat) (m : SMap α) : SMap.find? k (SMap.del k m) = none := by
  induction m with
  | nil => simp [SMap.del, SMap.find?]
  | cons e t ih =>
    obtain ⟨a, w⟩ := e
    simp only [SMap.del] at ih ⊢
    rw [List.filter_cons]
    split
    · rename_i h; simp at h; simp [SMap.find?, h, ih]
    · exact ih

/-- Another key keeps its entry when one is removed. -/
theorem find_del_ne {α : Type} {k j : Nat} (m : SMap α) (h : j ≠ k) : SMap.find? j (SMap.del k m) = SMap.find? j m := by
  induction m with
  | nil => simp [SMap.del]
  | cons e t ih =>
    obtain ⟨a, w⟩ := e
    simp only [SMap.del] at ih ⊢
    rw [List.filter_cons]
    split
    · simp [SMap.find?, ih]
    · rename_i ha; simp at ha; subst ha; simp [SMap.find?, Ne.symm h, ih]

/-- What a table with an unlisted value reads after a write: the value written at its key, and what it read before elsewhere. -/
theorem get_putD {α : Type} [DecidableEq α] (d : α) (k j : Nat) (v : α) (m : SMap α) :
    SMap.get d (SMap.putD d k v m) j = if j = k then v else SMap.get d m j := by
  unfold SMap.putD SMap.get
  split
  · split
    · subst_vars; rw [find_del]; simp
    · rw [find_del_ne _ (by assumption)]
  · split
    · subst_vars; rw [find_put]; simp
    · rw [find_put_ne _ _ (by assumption)]

/-- An entry holds what was written to it, and every other entry what it held. -/
theorem State.reg_setReg (s : State) (i k v j l : Nat) :
    (s.setReg i k v).reg j l = if rk j l = rk i k then v else s.reg j l := by
  unfold State.reg State.setReg
  by_cases h : rk j l = rk i k
  · have := get_putD (dictDefault (rk i k)) (rk i k) (rk i k) v s.dict
    simp only [SMap.get] at this
    simp only [h, this, if_true]
  · rw [if_neg h]
    simp only [SMap.putD]
    split
    · rw [find_del_ne _ h]
    · rw [find_put_ne _ _ h]

/-- The core that was written. -/
theorem State.core_setCore (s : State) (n : Nat) (c : Core) (m : Nat) :
    (s.setCore n c).core m = if m = n then c else s.core m := get_putD _ _ _ _ _

/-- Reading back one byte of byte memory after a range was stored. -/
theorem get_putBytes (a : Nat) (bs : Bytes) (m : SMap (BitVec 8)) (x : Nat) :
    SMap.get 0#8 (putBytes a bs m) x = if a ≤ x ∧ x < a + bs.length then bs.getD (x - a) 0#8 else SMap.get 0#8 m x := by
  induction bs generalizing a m with
  | nil =>
    have h : ¬(a ≤ x ∧ x < a + ([] : Bytes).length) := by simp only [List.length_nil]; omega
    rw [if_neg h]; rfl
  | cons b t ih =>
    rw [putBytes, ih, get_putD]
    by_cases h1 : x = a
    · subst h1; rw [if_neg (by omega)]; simp
    · by_cases h2 : a + 1 ≤ x ∧ x < a + 1 + t.length
      · rw [if_pos h2, if_pos ⟨by omega, by simp; omega⟩, show x - a = x - (a + 1) + 1 by omega]; simp
      · rw [if_neg h2, if_neg h1, if_neg]; simp; omega

end Sys2Proof.Machine
end

