-- ==== Sys2Proof/Laws/Memory.lean ====
section
/-! SUPPORT. Byte memory stays in its canonical form under every operation on it. -/

namespace Sys2Proof.Machine

theorem wf_cons {a : Nat} {v : BitVec 8} {t : SMap (BitVec 8)} :
    Memory.wf ((a, v) :: t) = true ↔ (v ≠ 0#8 ∧ (∀ e ∈ t.head?, a < e.1) ∧ Memory.wf t = true) := by
  cases t with
  | nil => simp [Memory.wf]
  | cons e t =>
    obtain ⟨b, w⟩ := e
    simp only [Memory.wf, Bool.and_eq_true, decide_eq_true_eq, bne_iff_ne, ne_eq, List.head?_cons, Option.mem_def,
      Option.some.injEq, forall_eq']
    constructor
    · rintro ⟨⟨h1, h2⟩, h3⟩; exact ⟨h2, h1, h3⟩
    · rintro ⟨h2, h1, h3⟩; exact ⟨⟨h1, h2⟩, h3⟩

theorem wf_lt {a : Nat} {v : BitVec 8} {t : SMap (BitVec 8)} (h : Memory.wf ((a, v) :: t) = true) :
    ∀ e ∈ t, a < e.1 := by
  induction t generalizing a v with
  | nil => simp
  | cons e t ih =>
    obtain ⟨b, w⟩ := e
    rw [wf_cons] at h
    have hb : a < b := h.2.1 (b, w) (by simp)
    intro e he
    rcases List.mem_cons.1 he with rfl | he
    · exact hb
    · exact Nat.lt_trans hb (ih h.2.2 e he)

/-- Removing entries keeps the form. -/
theorem wf_filter (f : Nat × BitVec 8 → Bool) {m : SMap (BitVec 8)} (h : Memory.wf m = true) :
    Memory.wf (m.filter f) = true := by
  induction m with
  | nil => simpa using h
  | cons e t ih =>
    obtain ⟨a, v⟩ := e
    have hl := wf_lt h
    rw [wf_cons] at h
    rw [List.filter_cons]
    split
    · rw [wf_cons]
      exact ⟨h.1, fun e he => hl e (List.mem_filter.1 (List.mem_of_mem_head? he)).1, ih h.2.2⟩
    · exact ih h.2.2

theorem wf_put {k : Nat} {v : BitVec 8} (hv : v ≠ 0#8) {m : SMap (BitVec 8)} (h : Memory.wf m = true) :
    Memory.wf (SMap.put k v m) = true ∧ ∀ e ∈ (SMap.put k v m).head?, e.1 = k ∨ ∃ d ∈ m.head?, e.1 = d.1 := by
  induction m with
  | nil => simp [SMap.put, Memory.wf, hv]
  | cons e t ih =>
    obtain ⟨a, w⟩ := e
    rw [wf_cons] at h
    simp only [SMap.put]
    split
    · subst_vars; rw [wf_cons]; exact ⟨⟨hv, h.2.1, h.2.2⟩, by simp⟩
    · split
      · rw [wf_cons, wf_cons]; exact ⟨⟨hv, by simpa, h⟩, by simp⟩
      · have := ih h.2.2
        rw [wf_cons]
        refine ⟨⟨h.1, ?_, this.1⟩, by simp⟩
        intro e he
        rcases this.2 e he with h1 | ⟨d, hd, h1⟩
        · omega
        · rw [h1]; exact h.2.1 d hd

/-- Writing one byte keeps the form. -/
theorem wf_putD {k : Nat} {v : BitVec 8} {m : SMap (BitVec 8)} (h : Memory.wf m = true) :
    Memory.wf (SMap.putD 0#8 k v m) = true := by
  unfold SMap.putD
  split
  · exact wf_filter _ h
  · exact (wf_put ‹_› h).1

theorem wf_putD' {k : Nat} {v : BitVec 8} {m : SMap (BitVec 8)} (h : Memory.wf m = true) :
    Memory.wf (SMap.putD 0 k v m) = true := wf_putD h

/-- Storing a range keeps the form. -/
theorem wf_putBytes {a : Nat} {bs : Bytes} {m : SMap (BitVec 8)} (h : Memory.wf m = true) :
    Memory.wf (putBytes a bs m) = true := by
  induction bs generalizing a m with
  | nil => exact h
  | cons b t ih => exact ih (wf_putD h)

/-- Dropping the bytes of a region keeps the form. -/
theorem wf_delIf {f : Nat → Bool} {m : SMap (BitVec 8)} (h : Memory.wf m = true) : Memory.wf (SMap.delIf f m) = true :=
  wf_filter _ h

/-- What a fold keeps at each element it keeps as a whole. -/
theorem foldl_ind {α β : Type} {P : β → Prop} {f : β → α → β} (hf : ∀ b a, P b → P (f b a)) {l : List α} {b : β}
    (h : P b) : P (l.foldl f b) := by
  induction l generalizing b with
  | nil => exact h
  | cons a t ih => exact ih (hf b a h)

theorem State.bumpGen_mem (s : State) (g : Nat) : (s.bumpGen g).mem = s.mem := rfl

theorem State.bumpGens_mem (s : State) (a len : Nat) : (s.bumpGens a len).mem = s.mem :=
  foldl_ind (P := fun t : State => t.mem = s.mem) (fun t g h => by rw [State.bumpGen_mem, h]) rfl

/-- What a stored range leaves in byte memory: exactly its bytes. -/
theorem State.store_mem (s : State) (a : Nat) (bs : Bytes) (g : Bool) :
    (s.store a bs g).mem = putBytes a bs s.mem := by
  unfold State.store
  cases g
  · rfl
  · exact State.bumpGens_mem _ _ _

/-- Storing keeps the form. -/
theorem State.store_wf (s : State) (a : Nat) (bs : Bytes) (g : Bool) (h : Memory.wf s.mem = true) :
    Memory.wf (s.store a bs g).mem = true := by rw [State.store_mem]; exact wf_putBytes h

/-- One byte after a range was stored: the bytes of the range, and elsewhere what was there. -/
theorem State.byte_store (s : State) (a : Nat) (bs : Bytes) (g : Bool) (x : Nat) :
    (s.store a bs g).byte x = if a ≤ x ∧ x < a + bs.length then bs.getD (x - a) 0#8 else s.byte x := by
  unfold State.byte; rw [State.store_mem]; exact get_putBytes a bs s.mem x

/-- Reset memory has the form. -/
theorem reset_mem_wf : Memory.wf State.reset.mem = true := rfl

end Sys2Proof.Machine
end

