-- ==== Sys2Proof/Laws/Settle.lean ====
section
/-! SUPPORT. A step that has caused nothing elsewhere ends where its command left the state; a command at the front of
the queue. -/

namespace Sys2Proof.Machine

/-- With no event to handle, settling changes nothing. -/
theorem State.settle_calm (s : State) (h : s.events = []) : s.settle = s := by
  show State.settleN (65535 + 1) s = s
  unfold State.settleN
  rw [h]

end Sys2Proof.Machine
end

