-- ==== Sys2Proof/Laws/Units.lean ====
section
/-! SUPPORT. What each field holds after one update of a unit beyond the cores: one lemma a field. -/

namespace Sys2Proof.Machine

@[simp] theorem State.setPort_dict (s : State) (g : Nat) (x : Port) : (s.setPort g x).dict = s.dict := rfl
@[simp] theorem State.setPort_mem (s : State) (g : Nat) (x : Port) : (s.setPort g x).mem = s.mem := rfl
@[simp] theorem State.setPort_poison (s : State) (g : Nat) (x : Port) : (s.setPort g x).poison = s.poison := rfl
@[simp] theorem State.setPort_flaws (s : State) (g : Nat) (x : Port) : (s.setPort g x).flaws = s.flaws := rfl
@[simp] theorem State.setPort_linkErrs (s : State) (g : Nat) (x : Port) : (s.setPort g x).linkErrs = s.linkErrs := rfl
@[simp] theorem State.setPort_gens (s : State) (g : Nat) (x : Port) : (s.setPort g x).gens = s.gens := rfl
@[simp] theorem State.setPort_cores (s : State) (g : Nat) (x : Port) : (s.setPort g x).cores = s.cores := rfl
@[simp] theorem State.setPort_barriers (s : State) (g : Nat) (x : Port) : (s.setPort g x).barriers = s.barriers := rfl
@[simp] theorem State.setPort_saved (s : State) (g : Nat) (x : Port) : (s.setPort g x).saved = s.saved := rfl
@[simp] theorem State.setPort_sessions (s : State) (g : Nat) (x : Port) : (s.setPort g x).sessions = s.sessions := rfl
@[simp] theorem State.setPort_sessIds (s : State) (g : Nat) (x : Port) : (s.setPort g x).sessIds = s.sessIds := rfl
@[simp] theorem State.setPort_openFails (s : State) (g : Nat) (x : Port) : (s.setPort g x).openFails = s.openFails := rfl
@[simp] theorem State.setPort_qps (s : State) (g : Nat) (x : Port) : (s.setPort g x).qps = s.qps := rfl
@[simp] theorem State.setPort_posts (s : State) (g : Nat) (x : Port) : (s.setPort g x).posts = s.posts := rfl
@[simp] theorem State.setPort_lxs (s : State) (g : Nat) (x : Port) : (s.setPort g x).lxs = s.lxs := rfl
@[simp] theorem State.setPort_mxs (s : State) (g : Nat) (x : Port) : (s.setPort g x).mxs = s.mxs := rfl
@[simp] theorem State.setPort_intakes (s : State) (g : Nat) (x : Port) : (s.setPort g x).intakes = s.intakes := rfl
@[simp] theorem State.setPort_gates (s : State) (g : Nat) (x : Port) : (s.setPort g x).gates = s.gates := rfl
@[simp] theorem State.setPort_pours (s : State) (g : Nat) (x : Port) : (s.setPort g x).pours = s.pours := rfl
@[simp] theorem State.setPort_pourOff (s : State) (g : Nat) (x : Port) : (s.setPort g x).pourOff = s.pourOff := rfl
@[simp] theorem State.setPort_latched (s : State) (g : Nat) (x : Port) : (s.setPort g x).latched = s.latched := rfl
@[simp] theorem State.setPort_parts (s : State) (g : Nat) (x : Port) : (s.setPort g x).parts = s.parts := rfl
@[simp] theorem State.setPort_filling (s : State) (g : Nat) (x : Port) : (s.setPort g x).filling = s.filling := rfl
@[simp] theorem State.setPort_govQueue (s : State) (g : Nat) (x : Port) : (s.setPort g x).govQueue = s.govQueue := rfl
@[simp] theorem State.setPort_power (s : State) (g : Nat) (x : Port) : (s.setPort g x).power = s.power := rfl
@[simp] theorem State.setPort_fw (s : State) (g : Nat) (x : Port) : (s.setPort g x).fw = s.fw := rfl
@[simp] theorem State.setPort_dbg (s : State) (g : Nat) (x : Port) : (s.setPort g x).dbg = s.dbg := rfl
@[simp] theorem State.setPort_waits (s : State) (g : Nat) (x : Port) : (s.setPort g x).waits = s.waits := rfl
@[simp] theorem State.setPort_winShut (s : State) (g : Nat) (x : Port) : (s.setPort g x).winShut = s.winShut := rfl
@[simp] theorem State.setPort_winClose (s : State) (g : Nat) (x : Port) : (s.setPort g x).winClose = s.winClose := rfl
@[simp] theorem State.setPort_shadows (s : State) (g : Nat) (x : Port) : (s.setPort g x).shadows = s.shadows := rfl
@[simp] theorem State.setPort_faultWords (s : State) (g : Nat) (x : Port) : (s.setPort g x).faultWords = s.faultWords := rfl
@[simp] theorem State.setPort_kiln (s : State) (g : Nat) (x : Port) : (s.setPort g x).kiln = s.kiln := rfl
@[simp] theorem State.setPort_hports (s : State) (g : Nat) (x : Port) : (s.setPort g x).hports = s.hports := rfl
@[simp] theorem State.setPort_tunRows (s : State) (g : Nat) (x : Port) : (s.setPort g x).tunRows = s.tunRows := rfl
@[simp] theorem State.setPort_lpWords (s : State) (g : Nat) (x : Port) : (s.setPort g x).lpWords = s.lpWords := rfl
@[simp] theorem State.setPort_maintOut (s : State) (g : Nat) (x : Port) : (s.setPort g x).maintOut = s.maintOut := rfl
@[simp] theorem State.setPort_holds (s : State) (g : Nat) (x : Port) : (s.setPort g x).holds = s.holds := rfl
@[simp] theorem State.setPort_epochs (s : State) (g : Nat) (x : Port) : (s.setPort g x).epochs = s.epochs := rfl
@[simp] theorem State.setPort_plan (s : State) (g : Nat) (x : Port) : (s.setPort g x).plan = s.plan := rfl
@[simp] theorem State.setPort_events (s : State) (g : Nat) (x : Port) : (s.setPort g x).events = s.events := rfl
@[simp] theorem State.setPort_walkQ (s : State) (g : Nat) (x : Port) : (s.setPort g x).walkQ = s.walkQ := rfl
@[simp] theorem State.setPort_chEvents (s : State) (g : Nat) (x : Port) : (s.setPort g x).chEvents = s.chEvents := rfl
@[simp] theorem State.setPort_out (s : State) (g : Nat) (x : Port) : (s.setPort g x).out = s.out := rfl
@[simp] theorem State.setPort_free (s : State) (g : Nat) (x : Port) : (s.setPort g x).free = s.free := rfl
@[simp] theorem State.setPort_time (s : State) (g : Nat) (x : Port) : (s.setPort g x).time = s.time := rfl
@[simp] theorem State.setPort_pending (s : State) (g : Nat) (x : Port) : (s.setPort g x).pending = s.pending := rfl

@[simp] theorem State.setLx_dict (s : State) (x : Nat) (l : LinkDie) : (s.setLx x l).dict = s.dict := rfl
@[simp] theorem State.setLx_mem (s : State) (x : Nat) (l : LinkDie) : (s.setLx x l).mem = s.mem := rfl
@[simp] theorem State.setLx_poison (s : State) (x : Nat) (l : LinkDie) : (s.setLx x l).poison = s.poison := rfl
@[simp] theorem State.setLx_flaws (s : State) (x : Nat) (l : LinkDie) : (s.setLx x l).flaws = s.flaws := rfl
@[simp] theorem State.setLx_linkErrs (s : State) (x : Nat) (l : LinkDie) : (s.setLx x l).linkErrs = s.linkErrs := rfl
@[simp] theorem State.setLx_gens (s : State) (x : Nat) (l : LinkDie) : (s.setLx x l).gens = s.gens := rfl
@[simp] theorem State.setLx_cores (s : State) (x : Nat) (l : LinkDie) : (s.setLx x l).cores = s.cores := rfl
@[simp] theorem State.setLx_barriers (s : State) (x : Nat) (l : LinkDie) : (s.setLx x l).barriers = s.barriers := rfl
@[simp] theorem State.setLx_saved (s : State) (x : Nat) (l : LinkDie) : (s.setLx x l).saved = s.saved := rfl
@[simp] theorem State.setLx_sessions (s : State) (x : Nat) (l : LinkDie) : (s.setLx x l).sessions = s.sessions := rfl
@[simp] theorem State.setLx_sessIds (s : State) (x : Nat) (l : LinkDie) : (s.setLx x l).sessIds = s.sessIds := rfl
@[simp] theorem State.setLx_openFails (s : State) (x : Nat) (l : LinkDie) : (s.setLx x l).openFails = s.openFails := rfl
@[simp] theorem State.setLx_qps (s : State) (x : Nat) (l : LinkDie) : (s.setLx x l).qps = s.qps := rfl
@[simp] theorem State.setLx_posts (s : State) (x : Nat) (l : LinkDie) : (s.setLx x l).posts = s.posts := rfl
@[simp] theorem State.setLx_ports (s : State) (x : Nat) (l : LinkDie) : (s.setLx x l).ports = s.ports := rfl
@[simp] theorem State.setLx_mxs (s : State) (x : Nat) (l : LinkDie) : (s.setLx x l).mxs = s.mxs := rfl
@[simp] theorem State.setLx_intakes (s : State) (x : Nat) (l : LinkDie) : (s.setLx x l).intakes = s.intakes := rfl
@[simp] theorem State.setLx_gates (s : State) (x : Nat) (l : LinkDie) : (s.setLx x l).gates = s.gates := rfl
@[simp] theorem State.setLx_pours (s : State) (x : Nat) (l : LinkDie) : (s.setLx x l).pours = s.pours := rfl
@[simp] theorem State.setLx_pourOff (s : State) (x : Nat) (l : LinkDie) : (s.setLx x l).pourOff = s.pourOff := rfl
@[simp] theorem State.setLx_latched (s : State) (x : Nat) (l : LinkDie) : (s.setLx x l).latched = s.latched := rfl
@[simp] theorem State.setLx_parts (s : State) (x : Nat) (l : LinkDie) : (s.setLx x l).parts = s.parts := rfl
@[simp] theorem State.setLx_filling (s : State) (x : Nat) (l : LinkDie) : (s.setLx x l).filling = s.filling := rfl
@[simp] theorem State.setLx_govQueue (s : State) (x : Nat) (l : LinkDie) : (s.setLx x l).govQueue = s.govQueue := rfl
@[simp] theorem State.setLx_power (s : State) (x : Nat) (l : LinkDie) : (s.setLx x l).power = s.power := rfl
@[simp] theorem State.setLx_fw (s : State) (x : Nat) (l : LinkDie) : (s.setLx x l).fw = s.fw := rfl
@[simp] theorem State.setLx_dbg (s : State) (x : Nat) (l : LinkDie) : (s.setLx x l).dbg = s.dbg := rfl
@[simp] theorem State.setLx_waits (s : State) (x : Nat) (l : LinkDie) : (s.setLx x l).waits = s.waits := rfl
@[simp] theorem State.setLx_winShut (s : State) (x : Nat) (l : LinkDie) : (s.setLx x l).winShut = s.winShut := rfl
@[simp] theorem State.setLx_winClose (s : State) (x : Nat) (l : LinkDie) : (s.setLx x l).winClose = s.winClose := rfl
@[simp] theorem State.setLx_shadows (s : State) (x : Nat) (l : LinkDie) : (s.setLx x l).shadows = s.shadows := rfl
@[simp] theorem State.setLx_faultWords (s : State) (x : Nat) (l : LinkDie) : (s.setLx x l).faultWords = s.faultWords := rfl
@[simp] theorem State.setLx_kiln (s : State) (x : Nat) (l : LinkDie) : (s.setLx x l).kiln = s.kiln := rfl
@[simp] theorem State.setLx_hports (s : State) (x : Nat) (l : LinkDie) : (s.setLx x l).hports = s.hports := rfl
@[simp] theorem State.setLx_tunRows (s : State) (x : Nat) (l : LinkDie) : (s.setLx x l).tunRows = s.tunRows := rfl
@[simp] theorem State.setLx_lpWords (s : State) (x : Nat) (l : LinkDie) : (s.setLx x l).lpWords = s.lpWords := rfl
@[simp] theorem State.setLx_maintOut (s : State) (x : Nat) (l : LinkDie) : (s.setLx x l).maintOut = s.maintOut := rfl
@[simp] theorem State.setLx_holds (s : State) (x : Nat) (l : LinkDie) : (s.setLx x l).holds = s.holds := rfl
@[simp] theorem State.setLx_epochs (s : State) (x : Nat) (l : LinkDie) : (s.setLx x l).epochs = s.epochs := rfl
@[simp] theorem State.setLx_plan (s : State) (x : Nat) (l : LinkDie) : (s.setLx x l).plan = s.plan := rfl
@[simp] theorem State.setLx_events (s : State) (x : Nat) (l : LinkDie) : (s.setLx x l).events = s.events := rfl
@[simp] theorem State.setLx_walkQ (s : State) (x : Nat) (l : LinkDie) : (s.setLx x l).walkQ = s.walkQ := rfl
@[simp] theorem State.setLx_chEvents (s : State) (x : Nat) (l : LinkDie) : (s.setLx x l).chEvents = s.chEvents := rfl
@[simp] theorem State.setLx_out (s : State) (x : Nat) (l : LinkDie) : (s.setLx x l).out = s.out := rfl
@[simp] theorem State.setLx_free (s : State) (x : Nat) (l : LinkDie) : (s.setLx x l).free = s.free := rfl
@[simp] theorem State.setLx_time (s : State) (x : Nat) (l : LinkDie) : (s.setLx x l).time = s.time := rfl
@[simp] theorem State.setLx_pending (s : State) (x : Nat) (l : LinkDie) : (s.setLx x l).pending = s.pending := rfl

@[simp] theorem State.setMx_dict (s : State) (m : Nat) (x : Mx) : (s.setMx m x).dict = s.dict := rfl
@[simp] theorem State.setMx_mem (s : State) (m : Nat) (x : Mx) : (s.setMx m x).mem = s.mem := rfl
@[simp] theorem State.setMx_poison (s : State) (m : Nat) (x : Mx) : (s.setMx m x).poison = s.poison := rfl
@[simp] theorem State.setMx_flaws (s : State) (m : Nat) (x : Mx) : (s.setMx m x).flaws = s.flaws := rfl
@[simp] theorem State.setMx_linkErrs (s : State) (m : Nat) (x : Mx) : (s.setMx m x).linkErrs = s.linkErrs := rfl
@[simp] theorem State.setMx_gens (s : State) (m : Nat) (x : Mx) : (s.setMx m x).gens = s.gens := rfl
@[simp] theorem State.setMx_cores (s : State) (m : Nat) (x : Mx) : (s.setMx m x).cores = s.cores := rfl
@[simp] theorem State.setMx_barriers (s : State) (m : Nat) (x : Mx) : (s.setMx m x).barriers = s.barriers := rfl
@[simp] theorem State.setMx_saved (s : State) (m : Nat) (x : Mx) : (s.setMx m x).saved = s.saved := rfl
@[simp] theorem State.setMx_sessions (s : State) (m : Nat) (x : Mx) : (s.setMx m x).sessions = s.sessions := rfl
@[simp] theorem State.setMx_sessIds (s : State) (m : Nat) (x : Mx) : (s.setMx m x).sessIds = s.sessIds := rfl
@[simp] theorem State.setMx_openFails (s : State) (m : Nat) (x : Mx) : (s.setMx m x).openFails = s.openFails := rfl
@[simp] theorem State.setMx_qps (s : State) (m : Nat) (x : Mx) : (s.setMx m x).qps = s.qps := rfl
@[simp] theorem State.setMx_posts (s : State) (m : Nat) (x : Mx) : (s.setMx m x).posts = s.posts := rfl
@[simp] theorem State.setMx_ports (s : State) (m : Nat) (x : Mx) : (s.setMx m x).ports = s.ports := rfl
@[simp] theorem State.setMx_lxs (s : State) (m : Nat) (x : Mx) : (s.setMx m x).lxs = s.lxs := rfl
@[simp] theorem State.setMx_intakes (s : State) (m : Nat) (x : Mx) : (s.setMx m x).intakes = s.intakes := rfl
@[simp] theorem State.setMx_gates (s : State) (m : Nat) (x : Mx) : (s.setMx m x).gates = s.gates := rfl
@[simp] theorem State.setMx_pours (s : State) (m : Nat) (x : Mx) : (s.setMx m x).pours = s.pours := rfl
@[simp] theorem State.setMx_pourOff (s : State) (m : Nat) (x : Mx) : (s.setMx m x).pourOff = s.pourOff := rfl
@[simp] theorem State.setMx_latched (s : State) (m : Nat) (x : Mx) : (s.setMx m x).latched = s.latched := rfl
@[simp] theorem State.setMx_parts (s : State) (m : Nat) (x : Mx) : (s.setMx m x).parts = s.parts := rfl
@[simp] theorem State.setMx_filling (s : State) (m : Nat) (x : Mx) : (s.setMx m x).filling = s.filling := rfl
@[simp] theorem State.setMx_govQueue (s : State) (m : Nat) (x : Mx) : (s.setMx m x).govQueue = s.govQueue := rfl
@[simp] theorem State.setMx_power (s : State) (m : Nat) (x : Mx) : (s.setMx m x).power = s.power := rfl
@[simp] theorem State.setMx_fw (s : State) (m : Nat) (x : Mx) : (s.setMx m x).fw = s.fw := rfl
@[simp] theorem State.setMx_dbg (s : State) (m : Nat) (x : Mx) : (s.setMx m x).dbg = s.dbg := rfl
@[simp] theorem State.setMx_waits (s : State) (m : Nat) (x : Mx) : (s.setMx m x).waits = s.waits := rfl
@[simp] theorem State.setMx_winShut (s : State) (m : Nat) (x : Mx) : (s.setMx m x).winShut = s.winShut := rfl
@[simp] theorem State.setMx_winClose (s : State) (m : Nat) (x : Mx) : (s.setMx m x).winClose = s.winClose := rfl
@[simp] theorem State.setMx_shadows (s : State) (m : Nat) (x : Mx) : (s.setMx m x).shadows = s.shadows := rfl
@[simp] theorem State.setMx_faultWords (s : State) (m : Nat) (x : Mx) : (s.setMx m x).faultWords = s.faultWords := rfl
@[simp] theorem State.setMx_kiln (s : State) (m : Nat) (x : Mx) : (s.setMx m x).kiln = s.kiln := rfl
@[simp] theorem State.setMx_hports (s : State) (m : Nat) (x : Mx) : (s.setMx m x).hports = s.hports := rfl
@[simp] theorem State.setMx_tunRows (s : State) (m : Nat) (x : Mx) : (s.setMx m x).tunRows = s.tunRows := rfl
@[simp] theorem State.setMx_lpWords (s : State) (m : Nat) (x : Mx) : (s.setMx m x).lpWords = s.lpWords := rfl
@[simp] theorem State.setMx_maintOut (s : State) (m : Nat) (x : Mx) : (s.setMx m x).maintOut = s.maintOut := rfl
@[simp] theorem State.setMx_holds (s : State) (m : Nat) (x : Mx) : (s.setMx m x).holds = s.holds := rfl
@[simp] theorem State.setMx_epochs (s : State) (m : Nat) (x : Mx) : (s.setMx m x).epochs = s.epochs := rfl
@[simp] theorem State.setMx_plan (s : State) (m : Nat) (x : Mx) : (s.setMx m x).plan = s.plan := rfl
@[simp] theorem State.setMx_events (s : State) (m : Nat) (x : Mx) : (s.setMx m x).events = s.events := rfl
@[simp] theorem State.setMx_walkQ (s : State) (m : Nat) (x : Mx) : (s.setMx m x).walkQ = s.walkQ := rfl
@[simp] theorem State.setMx_chEvents (s : State) (m : Nat) (x : Mx) : (s.setMx m x).chEvents = s.chEvents := rfl
@[simp] theorem State.setMx_out (s : State) (m : Nat) (x : Mx) : (s.setMx m x).out = s.out := rfl
@[simp] theorem State.setMx_free (s : State) (m : Nat) (x : Mx) : (s.setMx m x).free = s.free := rfl
@[simp] theorem State.setMx_time (s : State) (m : Nat) (x : Mx) : (s.setMx m x).time = s.time := rfl
@[simp] theorem State.setMx_pending (s : State) (m : Nat) (x : Mx) : (s.setMx m x).pending = s.pending := rfl

@[simp] theorem State.setQp_dict (s : State) (port q : Nat) (x : Qp) : (s.setQp port q x).dict = s.dict := rfl
@[simp] theorem State.setQp_mem (s : State) (port q : Nat) (x : Qp) : (s.setQp port q x).mem = s.mem := rfl
@[simp] theorem State.setQp_poison (s : State) (port q : Nat) (x : Qp) : (s.setQp port q x).poison = s.poison := rfl
@[simp] theorem State.setQp_flaws (s : State) (port q : Nat) (x : Qp) : (s.setQp port q x).flaws = s.flaws := rfl
@[simp] theorem State.setQp_linkErrs (s : State) (port q : Nat) (x : Qp) : (s.setQp port q x).linkErrs = s.linkErrs := rfl
@[simp] theorem State.setQp_gens (s : State) (port q : Nat) (x : Qp) : (s.setQp port q x).gens = s.gens := rfl
@[simp] theorem State.setQp_cores (s : State) (port q : Nat) (x : Qp) : (s.setQp port q x).cores = s.cores := rfl
@[simp] theorem State.setQp_barriers (s : State) (port q : Nat) (x : Qp) : (s.setQp port q x).barriers = s.barriers := rfl
@[simp] theorem State.setQp_saved (s : State) (port q : Nat) (x : Qp) : (s.setQp port q x).saved = s.saved := rfl
@[simp] theorem State.setQp_sessions (s : State) (port q : Nat) (x : Qp) : (s.setQp port q x).sessions = s.sessions := rfl
@[simp] theorem State.setQp_sessIds (s : State) (port q : Nat) (x : Qp) : (s.setQp port q x).sessIds = s.sessIds := rfl
@[simp] theorem State.setQp_openFails (s : State) (port q : Nat) (x : Qp) : (s.setQp port q x).openFails = s.openFails := rfl
@[simp] theorem State.setQp_posts (s : State) (port q : Nat) (x : Qp) : (s.setQp port q x).posts = s.posts := rfl
@[simp] theorem State.setQp_ports (s : State) (port q : Nat) (x : Qp) : (s.setQp port q x).ports = s.ports := rfl
@[simp] theorem State.setQp_lxs (s : State) (port q : Nat) (x : Qp) : (s.setQp port q x).lxs = s.lxs := rfl
@[simp] theorem State.setQp_mxs (s : State) (port q : Nat) (x : Qp) : (s.setQp port q x).mxs = s.mxs := rfl
@[simp] theorem State.setQp_intakes (s : State) (port q : Nat) (x : Qp) : (s.setQp port q x).intakes = s.intakes := rfl
@[simp] theorem State.setQp_gates (s : State) (port q : Nat) (x : Qp) : (s.setQp port q x).gates = s.gates := rfl
@[simp] theorem State.setQp_pours (s : State) (port q : Nat) (x : Qp) : (s.setQp port q x).pours = s.pours := rfl
@[simp] theorem State.setQp_pourOff (s : State) (port q : Nat) (x : Qp) : (s.setQp port q x).pourOff = s.pourOff := rfl
@[simp] theorem State.setQp_latched (s : State) (port q : Nat) (x : Qp) : (s.setQp port q x).latched = s.latched := rfl
@[simp] theorem State.setQp_parts (s : State) (port q : Nat) (x : Qp) : (s.setQp port q x).parts = s.parts := rfl
@[simp] theorem State.setQp_filling (s : State) (port q : Nat) (x : Qp) : (s.setQp port q x).filling = s.filling := rfl
@[simp] theorem State.setQp_govQueue (s : State) (port q : Nat) (x : Qp) : (s.setQp port q x).govQueue = s.govQueue := rfl
@[simp] theorem State.setQp_power (s : State) (port q : Nat) (x : Qp) : (s.setQp port q x).power = s.power := rfl
@[simp] theorem State.setQp_fw (s : State) (port q : Nat) (x : Qp) : (s.setQp port q x).fw = s.fw := rfl
@[simp] theorem State.setQp_dbg (s : State) (port q : Nat) (x : Qp) : (s.setQp port q x).dbg = s.dbg := rfl
@[simp] theorem State.setQp_waits (s : State) (port q : Nat) (x : Qp) : (s.setQp port q x).waits = s.waits := rfl
@[simp] theorem State.setQp_winShut (s : State) (port q : Nat) (x : Qp) : (s.setQp port q x).winShut = s.winShut := rfl
@[simp] theorem State.setQp_winClose (s : State) (port q : Nat) (x : Qp) : (s.setQp port q x).winClose = s.winClose := rfl
@[simp] theorem State.setQp_shadows (s : State) (port q : Nat) (x : Qp) : (s.setQp port q x).shadows = s.shadows := rfl
@[simp] theorem State.setQp_faultWords (s : State) (port q : Nat) (x : Qp) : (s.setQp port q x).faultWords = s.faultWords := rfl
@[simp] theorem State.setQp_kiln (s : State) (port q : Nat) (x : Qp) : (s.setQp port q x).kiln = s.kiln := rfl
@[simp] theorem State.setQp_hports (s : State) (port q : Nat) (x : Qp) : (s.setQp port q x).hports = s.hports := rfl
@[simp] theorem State.setQp_tunRows (s : State) (port q : Nat) (x : Qp) : (s.setQp port q x).tunRows = s.tunRows := rfl
@[simp] theorem State.setQp_lpWords (s : State) (port q : Nat) (x : Qp) : (s.setQp port q x).lpWords = s.lpWords := rfl
@[simp] theorem State.setQp_maintOut (s : State) (port q : Nat) (x : Qp) : (s.setQp port q x).maintOut = s.maintOut := rfl
@[simp] theorem State.setQp_holds (s : State) (port q : Nat) (x : Qp) : (s.setQp port q x).holds = s.holds := rfl
@[simp] theorem State.setQp_epochs (s : State) (port q : Nat) (x : Qp) : (s.setQp port q x).epochs = s.epochs := rfl
@[simp] theorem State.setQp_plan (s : State) (port q : Nat) (x : Qp) : (s.setQp port q x).plan = s.plan := rfl
@[simp] theorem State.setQp_events (s : State) (port q : Nat) (x : Qp) : (s.setQp port q x).events = s.events := rfl
@[simp] theorem State.setQp_walkQ (s : State) (port q : Nat) (x : Qp) : (s.setQp port q x).walkQ = s.walkQ := rfl
@[simp] theorem State.setQp_chEvents (s : State) (port q : Nat) (x : Qp) : (s.setQp port q x).chEvents = s.chEvents := rfl
@[simp] theorem State.setQp_out (s : State) (port q : Nat) (x : Qp) : (s.setQp port q x).out = s.out := rfl
@[simp] theorem State.setQp_free (s : State) (port q : Nat) (x : Qp) : (s.setQp port q x).free = s.free := rfl
@[simp] theorem State.setQp_time (s : State) (port q : Nat) (x : Qp) : (s.setQp port q x).time = s.time := rfl
@[simp] theorem State.setQp_pending (s : State) (port q : Nat) (x : Qp) : (s.setQp port q x).pending = s.pending := rfl

@[simp] theorem State.setHport_dict (s : State) (p : Nat) (x : HPort) : (s.setHport p x).dict = s.dict := rfl
@[simp] theorem State.setHport_mem (s : State) (p : Nat) (x : HPort) : (s.setHport p x).mem = s.mem := rfl
@[simp] theorem State.setHport_poison (s : State) (p : Nat) (x : HPort) : (s.setHport p x).poison = s.poison := rfl
@[simp] theorem State.setHport_flaws (s : State) (p : Nat) (x : HPort) : (s.setHport p x).flaws = s.flaws := rfl
@[simp] theorem State.setHport_linkErrs (s : State) (p : Nat) (x : HPort) : (s.setHport p x).linkErrs = s.linkErrs := rfl
@[simp] theorem State.setHport_gens (s : State) (p : Nat) (x : HPort) : (s.setHport p x).gens = s.gens := rfl
@[simp] theorem State.setHport_cores (s : State) (p : Nat) (x : HPort) : (s.setHport p x).cores = s.cores := rfl
@[simp] theorem State.setHport_barriers (s : State) (p : Nat) (x : HPort) : (s.setHport p x).barriers = s.barriers := rfl
@[simp] theorem State.setHport_saved (s : State) (p : Nat) (x : HPort) : (s.setHport p x).saved = s.saved := rfl
@[simp] theorem State.setHport_sessions (s : State) (p : Nat) (x : HPort) : (s.setHport p x).sessions = s.sessions := rfl
@[simp] theorem State.setHport_sessIds (s : State) (p : Nat) (x : HPort) : (s.setHport p x).sessIds = s.sessIds := rfl
@[simp] theorem State.setHport_openFails (s : State) (p : Nat) (x : HPort) : (s.setHport p x).openFails = s.openFails := rfl
@[simp] theorem State.setHport_qps (s : State) (p : Nat) (x : HPort) : (s.setHport p x).qps = s.qps := rfl
@[simp] theorem State.setHport_posts (s : State) (p : Nat) (x : HPort) : (s.setHport p x).posts = s.posts := rfl
@[simp] theorem State.setHport_ports (s : State) (p : Nat) (x : HPort) : (s.setHport p x).ports = s.ports := rfl
@[simp] theorem State.setHport_lxs (s : State) (p : Nat) (x : HPort) : (s.setHport p x).lxs = s.lxs := rfl
@[simp] theorem State.setHport_mxs (s : State) (p : Nat) (x : HPort) : (s.setHport p x).mxs = s.mxs := rfl
@[simp] theorem State.setHport_intakes (s : State) (p : Nat) (x : HPort) : (s.setHport p x).intakes = s.intakes := rfl
@[simp] theorem State.setHport_gates (s : State) (p : Nat) (x : HPort) : (s.setHport p x).gates = s.gates := rfl
@[simp] theorem State.setHport_pours (s : State) (p : Nat) (x : HPort) : (s.setHport p x).pours = s.pours := rfl
@[simp] theorem State.setHport_pourOff (s : State) (p : Nat) (x : HPort) : (s.setHport p x).pourOff = s.pourOff := rfl
@[simp] theorem State.setHport_latched (s : State) (p : Nat) (x : HPort) : (s.setHport p x).latched = s.latched := rfl
@[simp] theorem State.setHport_parts (s : State) (p : Nat) (x : HPort) : (s.setHport p x).parts = s.parts := rfl
@[simp] theorem State.setHport_filling (s : State) (p : Nat) (x : HPort) : (s.setHport p x).filling = s.filling := rfl
@[simp] theorem State.setHport_govQueue (s : State) (p : Nat) (x : HPort) : (s.setHport p x).govQueue = s.govQueue := rfl
@[simp] theorem State.setHport_power (s : State) (p : Nat) (x : HPort) : (s.setHport p x).power = s.power := rfl
@[simp] theorem State.setHport_fw (s : State) (p : Nat) (x : HPort) : (s.setHport p x).fw = s.fw := rfl
@[simp] theorem State.setHport_dbg (s : State) (p : Nat) (x : HPort) : (s.setHport p x).dbg = s.dbg := rfl
@[simp] theorem State.setHport_waits (s : State) (p : Nat) (x : HPort) : (s.setHport p x).waits = s.waits := rfl
@[simp] theorem State.setHport_winShut (s : State) (p : Nat) (x : HPort) : (s.setHport p x).winShut = s.winShut := rfl
@[simp] theorem State.setHport_winClose (s : State) (p : Nat) (x : HPort) : (s.setHport p x).winClose = s.winClose := rfl
@[simp] theorem State.setHport_shadows (s : State) (p : Nat) (x : HPort) : (s.setHport p x).shadows = s.shadows := rfl
@[simp] theorem State.setHport_faultWords (s : State) (p : Nat) (x : HPort) : (s.setHport p x).faultWords = s.faultWords := rfl
@[simp] theorem State.setHport_kiln (s : State) (p : Nat) (x : HPort) : (s.setHport p x).kiln = s.kiln := rfl
@[simp] theorem State.setHport_tunRows (s : State) (p : Nat) (x : HPort) : (s.setHport p x).tunRows = s.tunRows := rfl
@[simp] theorem State.setHport_lpWords (s : State) (p : Nat) (x : HPort) : (s.setHport p x).lpWords = s.lpWords := rfl
@[simp] theorem State.setHport_maintOut (s : State) (p : Nat) (x : HPort) : (s.setHport p x).maintOut = s.maintOut := rfl
@[simp] theorem State.setHport_holds (s : State) (p : Nat) (x : HPort) : (s.setHport p x).holds = s.holds := rfl
@[simp] theorem State.setHport_epochs (s : State) (p : Nat) (x : HPort) : (s.setHport p x).epochs = s.epochs := rfl
@[simp] theorem State.setHport_plan (s : State) (p : Nat) (x : HPort) : (s.setHport p x).plan = s.plan := rfl
@[simp] theorem State.setHport_events (s : State) (p : Nat) (x : HPort) : (s.setHport p x).events = s.events := rfl
@[simp] theorem State.setHport_walkQ (s : State) (p : Nat) (x : HPort) : (s.setHport p x).walkQ = s.walkQ := rfl
@[simp] theorem State.setHport_chEvents (s : State) (p : Nat) (x : HPort) : (s.setHport p x).chEvents = s.chEvents := rfl
@[simp] theorem State.setHport_out (s : State) (p : Nat) (x : HPort) : (s.setHport p x).out = s.out := rfl
@[simp] theorem State.setHport_free (s : State) (p : Nat) (x : HPort) : (s.setHport p x).free = s.free := rfl
@[simp] theorem State.setHport_time (s : State) (p : Nat) (x : HPort) : (s.setHport p x).time = s.time := rfl
@[simp] theorem State.setHport_pending (s : State) (p : Nat) (x : HPort) : (s.setHport p x).pending = s.pending := rfl

@[simp] theorem State.setPost_dict (s : State) (p c : Nat) (x : Post) : (s.setPost p c x).dict = s.dict := rfl
@[simp] theorem State.setPost_mem (s : State) (p c : Nat) (x : Post) : (s.setPost p c x).mem = s.mem := rfl
@[simp] theorem State.setPost_poison (s : State) (p c : Nat) (x : Post) : (s.setPost p c x).poison = s.poison := rfl
@[simp] theorem State.setPost_flaws (s : State) (p c : Nat) (x : Post) : (s.setPost p c x).flaws = s.flaws := rfl
@[simp] theorem State.setPost_linkErrs (s : State) (p c : Nat) (x : Post) : (s.setPost p c x).linkErrs = s.linkErrs := rfl
@[simp] theorem State.setPost_gens (s : State) (p c : Nat) (x : Post) : (s.setPost p c x).gens = s.gens := rfl
@[simp] theorem State.setPost_cores (s : State) (p c : Nat) (x : Post) : (s.setPost p c x).cores = s.cores := rfl
@[simp] theorem State.setPost_barriers (s : State) (p c : Nat) (x : Post) : (s.setPost p c x).barriers = s.barriers := rfl
@[simp] theorem State.setPost_saved (s : State) (p c : Nat) (x : Post) : (s.setPost p c x).saved = s.saved := rfl
@[simp] theorem State.setPost_sessions (s : State) (p c : Nat) (x : Post) : (s.setPost p c x).sessions = s.sessions := rfl
@[simp] theorem State.setPost_sessIds (s : State) (p c : Nat) (x : Post) : (s.setPost p c x).sessIds = s.sessIds := rfl
@[simp] theorem State.setPost_openFails (s : State) (p c : Nat) (x : Post) : (s.setPost p c x).openFails = s.openFails := rfl
@[simp] theorem State.setPost_qps (s : State) (p c : Nat) (x : Post) : (s.setPost p c x).qps = s.qps := rfl
@[simp] theorem State.setPost_ports (s : State) (p c : Nat) (x : Post) : (s.setPost p c x).ports = s.ports := rfl
@[simp] theorem State.setPost_lxs (s : State) (p c : Nat) (x : Post) : (s.setPost p c x).lxs = s.lxs := rfl
@[simp] theorem State.setPost_mxs (s : State) (p c : Nat) (x : Post) : (s.setPost p c x).mxs = s.mxs := rfl
@[simp] theorem State.setPost_intakes (s : State) (p c : Nat) (x : Post) : (s.setPost p c x).intakes = s.intakes := rfl
@[simp] theorem State.setPost_gates (s : State) (p c : Nat) (x : Post) : (s.setPost p c x).gates = s.gates := rfl
@[simp] theorem State.setPost_pours (s : State) (p c : Nat) (x : Post) : (s.setPost p c x).pours = s.pours := rfl
@[simp] theorem State.setPost_pourOff (s : State) (p c : Nat) (x : Post) : (s.setPost p c x).pourOff = s.pourOff := rfl
@[simp] theorem State.setPost_latched (s : State) (p c : Nat) (x : Post) : (s.setPost p c x).latched = s.latched := rfl
@[simp] theorem State.setPost_parts (s : State) (p c : Nat) (x : Post) : (s.setPost p c x).parts = s.parts := rfl
@[simp] theorem State.setPost_filling (s : State) (p c : Nat) (x : Post) : (s.setPost p c x).filling = s.filling := rfl
@[simp] theorem State.setPost_govQueue (s : State) (p c : Nat) (x : Post) : (s.setPost p c x).govQueue = s.govQueue := rfl
@[simp] theorem State.setPost_power (s : State) (p c : Nat) (x : Post) : (s.setPost p c x).power = s.power := rfl
@[simp] theorem State.setPost_fw (s : State) (p c : Nat) (x : Post) : (s.setPost p c x).fw = s.fw := rfl
@[simp] theorem State.setPost_dbg (s : State) (p c : Nat) (x : Post) : (s.setPost p c x).dbg = s.dbg := rfl
@[simp] theorem State.setPost_waits (s : State) (p c : Nat) (x : Post) : (s.setPost p c x).waits = s.waits := rfl
@[simp] theorem State.setPost_winShut (s : State) (p c : Nat) (x : Post) : (s.setPost p c x).winShut = s.winShut := rfl
@[simp] theorem State.setPost_winClose (s : State) (p c : Nat) (x : Post) : (s.setPost p c x).winClose = s.winClose := rfl
@[simp] theorem State.setPost_shadows (s : State) (p c : Nat) (x : Post) : (s.setPost p c x).shadows = s.shadows := rfl
@[simp] theorem State.setPost_faultWords (s : State) (p c : Nat) (x : Post) : (s.setPost p c x).faultWords = s.faultWords := rfl
@[simp] theorem State.setPost_kiln (s : State) (p c : Nat) (x : Post) : (s.setPost p c x).kiln = s.kiln := rfl
@[simp] theorem State.setPost_hports (s : State) (p c : Nat) (x : Post) : (s.setPost p c x).hports = s.hports := rfl
@[simp] theorem State.setPost_tunRows (s : State) (p c : Nat) (x : Post) : (s.setPost p c x).tunRows = s.tunRows := rfl
@[simp] theorem State.setPost_lpWords (s : State) (p c : Nat) (x : Post) : (s.setPost p c x).lpWords = s.lpWords := rfl
@[simp] theorem State.setPost_maintOut (s : State) (p c : Nat) (x : Post) : (s.setPost p c x).maintOut = s.maintOut := rfl
@[simp] theorem State.setPost_holds (s : State) (p c : Nat) (x : Post) : (s.setPost p c x).holds = s.holds := rfl
@[simp] theorem State.setPost_epochs (s : State) (p c : Nat) (x : Post) : (s.setPost p c x).epochs = s.epochs := rfl
@[simp] theorem State.setPost_plan (s : State) (p c : Nat) (x : Post) : (s.setPost p c x).plan = s.plan := rfl
@[simp] theorem State.setPost_events (s : State) (p c : Nat) (x : Post) : (s.setPost p c x).events = s.events := rfl
@[simp] theorem State.setPost_walkQ (s : State) (p c : Nat) (x : Post) : (s.setPost p c x).walkQ = s.walkQ := rfl
@[simp] theorem State.setPost_chEvents (s : State) (p c : Nat) (x : Post) : (s.setPost p c x).chEvents = s.chEvents := rfl
@[simp] theorem State.setPost_out (s : State) (p c : Nat) (x : Post) : (s.setPost p c x).out = s.out := rfl
@[simp] theorem State.setPost_free (s : State) (p c : Nat) (x : Post) : (s.setPost p c x).free = s.free := rfl
@[simp] theorem State.setPost_time (s : State) (p c : Nat) (x : Post) : (s.setPost p c x).time = s.time := rfl
@[simp] theorem State.setPost_pending (s : State) (p c : Nat) (x : Post) : (s.setPost p c x).pending = s.pending := rfl

@[simp] theorem State.setIntake_dict (s : State) (d r : Nat) (x : Intake) : (s.setIntake d r x).dict = s.dict := rfl
@[simp] theorem State.setIntake_mem (s : State) (d r : Nat) (x : Intake) : (s.setIntake d r x).mem = s.mem := rfl
@[simp] theorem State.setIntake_poison (s : State) (d r : Nat) (x : Intake) : (s.setIntake d r x).poison = s.poison := rfl
@[simp] theorem State.setIntake_flaws (s : State) (d r : Nat) (x : Intake) : (s.setIntake d r x).flaws = s.flaws := rfl
@[simp] theorem State.setIntake_linkErrs (s : State) (d r : Nat) (x : Intake) : (s.setIntake d r x).linkErrs = s.linkErrs := rfl
@[simp] theorem State.setIntake_gens (s : State) (d r : Nat) (x : Intake) : (s.setIntake d r x).gens = s.gens := rfl
@[simp] theorem State.setIntake_cores (s : State) (d r : Nat) (x : Intake) : (s.setIntake d r x).cores = s.cores := rfl
@[simp] theorem State.setIntake_barriers (s : State) (d r : Nat) (x : Intake) : (s.setIntake d r x).barriers = s.barriers := rfl
@[simp] theorem State.setIntake_saved (s : State) (d r : Nat) (x : Intake) : (s.setIntake d r x).saved = s.saved := rfl
@[simp] theorem State.setIntake_sessions (s : State) (d r : Nat) (x : Intake) : (s.setIntake d r x).sessions = s.sessions := rfl
@[simp] theorem State.setIntake_sessIds (s : State) (d r : Nat) (x : Intake) : (s.setIntake d r x).sessIds = s.sessIds := rfl
@[simp] theorem State.setIntake_openFails (s : State) (d r : Nat) (x : Intake) : (s.setIntake d r x).openFails = s.openFails := rfl
@[simp] theorem State.setIntake_qps (s : State) (d r : Nat) (x : Intake) : (s.setIntake d r x).qps = s.qps := rfl
@[simp] theorem State.setIntake_posts (s : State) (d r : Nat) (x : Intake) : (s.setIntake d r x).posts = s.posts := rfl
@[simp] theorem State.setIntake_ports (s : State) (d r : Nat) (x : Intake) : (s.setIntake d r x).ports = s.ports := rfl
@[simp] theorem State.setIntake_lxs (s : State) (d r : Nat) (x : Intake) : (s.setIntake d r x).lxs = s.lxs := rfl
@[simp] theorem State.setIntake_mxs (s : State) (d r : Nat) (x : Intake) : (s.setIntake d r x).mxs = s.mxs := rfl
@[simp] theorem State.setIntake_gates (s : State) (d r : Nat) (x : Intake) : (s.setIntake d r x).gates = s.gates := rfl
@[simp] theorem State.setIntake_pours (s : State) (d r : Nat) (x : Intake) : (s.setIntake d r x).pours = s.pours := rfl
@[simp] theorem State.setIntake_pourOff (s : State) (d r : Nat) (x : Intake) : (s.setIntake d r x).pourOff = s.pourOff := rfl
@[simp] theorem State.setIntake_latched (s : State) (d r : Nat) (x : Intake) : (s.setIntake d r x).latched = s.latched := rfl
@[simp] theorem State.setIntake_parts (s : State) (d r : Nat) (x : Intake) : (s.setIntake d r x).parts = s.parts := rfl
@[simp] theorem State.setIntake_filling (s : State) (d r : Nat) (x : Intake) : (s.setIntake d r x).filling = s.filling := rfl
@[simp] theorem State.setIntake_govQueue (s : State) (d r : Nat) (x : Intake) : (s.setIntake d r x).govQueue = s.govQueue := rfl
@[simp] theorem State.setIntake_power (s : State) (d r : Nat) (x : Intake) : (s.setIntake d r x).power = s.power := rfl
@[simp] theorem State.setIntake_fw (s : State) (d r : Nat) (x : Intake) : (s.setIntake d r x).fw = s.fw := rfl
@[simp] theorem State.setIntake_dbg (s : State) (d r : Nat) (x : Intake) : (s.setIntake d r x).dbg = s.dbg := rfl
@[simp] theorem State.setIntake_waits (s : State) (d r : Nat) (x : Intake) : (s.setIntake d r x).waits = s.waits := rfl
@[simp] theorem State.setIntake_winShut (s : State) (d r : Nat) (x : Intake) : (s.setIntake d r x).winShut = s.winShut := rfl
@[simp] theorem State.setIntake_winClose (s : State) (d r : Nat) (x : Intake) : (s.setIntake d r x).winClose = s.winClose := rfl
@[simp] theorem State.setIntake_shadows (s : State) (d r : Nat) (x : Intake) : (s.setIntake d r x).shadows = s.shadows := rfl
@[simp] theorem State.setIntake_faultWords (s : State) (d r : Nat) (x : Intake) : (s.setIntake d r x).faultWords = s.faultWords := rfl
@[simp] theorem State.setIntake_kiln (s : State) (d r : Nat) (x : Intake) : (s.setIntake d r x).kiln = s.kiln := rfl
@[simp] theorem State.setIntake_hports (s : State) (d r : Nat) (x : Intake) : (s.setIntake d r x).hports = s.hports := rfl
@[simp] theorem State.setIntake_tunRows (s : State) (d r : Nat) (x : Intake) : (s.setIntake d r x).tunRows = s.tunRows := rfl
@[simp] theorem State.setIntake_lpWords (s : State) (d r : Nat) (x : Intake) : (s.setIntake d r x).lpWords = s.lpWords := rfl
@[simp] theorem State.setIntake_maintOut (s : State) (d r : Nat) (x : Intake) : (s.setIntake d r x).maintOut = s.maintOut := rfl
@[simp] theorem State.setIntake_holds (s : State) (d r : Nat) (x : Intake) : (s.setIntake d r x).holds = s.holds := rfl
@[simp] theorem State.setIntake_epochs (s : State) (d r : Nat) (x : Intake) : (s.setIntake d r x).epochs = s.epochs := rfl
@[simp] theorem State.setIntake_plan (s : State) (d r : Nat) (x : Intake) : (s.setIntake d r x).plan = s.plan := rfl
@[simp] theorem State.setIntake_events (s : State) (d r : Nat) (x : Intake) : (s.setIntake d r x).events = s.events := rfl
@[simp] theorem State.setIntake_walkQ (s : State) (d r : Nat) (x : Intake) : (s.setIntake d r x).walkQ = s.walkQ := rfl
@[simp] theorem State.setIntake_chEvents (s : State) (d r : Nat) (x : Intake) : (s.setIntake d r x).chEvents = s.chEvents := rfl
@[simp] theorem State.setIntake_out (s : State) (d r : Nat) (x : Intake) : (s.setIntake d r x).out = s.out := rfl
@[simp] theorem State.setIntake_free (s : State) (d r : Nat) (x : Intake) : (s.setIntake d r x).free = s.free := rfl
@[simp] theorem State.setIntake_time (s : State) (d r : Nat) (x : Intake) : (s.setIntake d r x).time = s.time := rfl
@[simp] theorem State.setIntake_pending (s : State) (d r : Nat) (x : Intake) : (s.setIntake d r x).pending = s.pending := rfl

@[simp] theorem State.setPart_dict (s : State) (p : Nat) (x : Part) : (s.setPart p x).dict = s.dict := rfl
@[simp] theorem State.setPart_mem (s : State) (p : Nat) (x : Part) : (s.setPart p x).mem = s.mem := rfl
@[simp] theorem State.setPart_poison (s : State) (p : Nat) (x : Part) : (s.setPart p x).poison = s.poison := rfl
@[simp] theorem State.setPart_flaws (s : State) (p : Nat) (x : Part) : (s.setPart p x).flaws = s.flaws := rfl
@[simp] theorem State.setPart_linkErrs (s : State) (p : Nat) (x : Part) : (s.setPart p x).linkErrs = s.linkErrs := rfl
@[simp] theorem State.setPart_gens (s : State) (p : Nat) (x : Part) : (s.setPart p x).gens = s.gens := rfl
@[simp] theorem State.setPart_cores (s : State) (p : Nat) (x : Part) : (s.setPart p x).cores = s.cores := rfl
@[simp] theorem State.setPart_barriers (s : State) (p : Nat) (x : Part) : (s.setPart p x).barriers = s.barriers := rfl
@[simp] theorem State.setPart_saved (s : State) (p : Nat) (x : Part) : (s.setPart p x).saved = s.saved := rfl
@[simp] theorem State.setPart_sessions (s : State) (p : Nat) (x : Part) : (s.setPart p x).sessions = s.sessions := rfl
@[simp] theorem State.setPart_sessIds (s : State) (p : Nat) (x : Part) : (s.setPart p x).sessIds = s.sessIds := rfl
@[simp] theorem State.setPart_openFails (s : State) (p : Nat) (x : Part) : (s.setPart p x).openFails = s.openFails := rfl
@[simp] theorem State.setPart_qps (s : State) (p : Nat) (x : Part) : (s.setPart p x).qps = s.qps := rfl
@[simp] theorem State.setPart_posts (s : State) (p : Nat) (x : Part) : (s.setPart p x).posts = s.posts := rfl
@[simp] theorem State.setPart_ports (s : State) (p : Nat) (x : Part) : (s.setPart p x).ports = s.ports := rfl
@[simp] theorem State.setPart_lxs (s : State) (p : Nat) (x : Part) : (s.setPart p x).lxs = s.lxs := rfl
@[simp] theorem State.setPart_mxs (s : State) (p : Nat) (x : Part) : (s.setPart p x).mxs = s.mxs := rfl
@[simp] theorem State.setPart_intakes (s : State) (p : Nat) (x : Part) : (s.setPart p x).intakes = s.intakes := rfl
@[simp] theorem State.setPart_gates (s : State) (p : Nat) (x : Part) : (s.setPart p x).gates = s.gates := rfl
@[simp] theorem State.setPart_pours (s : State) (p : Nat) (x : Part) : (s.setPart p x).pours = s.pours := rfl
@[simp] theorem State.setPart_pourOff (s : State) (p : Nat) (x : Part) : (s.setPart p x).pourOff = s.pourOff := rfl
@[simp] theorem State.setPart_latched (s : State) (p : Nat) (x : Part) : (s.setPart p x).latched = s.latched := rfl
@[simp] theorem State.setPart_filling (s : State) (p : Nat) (x : Part) : (s.setPart p x).filling = s.filling := rfl
@[simp] theorem State.setPart_govQueue (s : State) (p : Nat) (x : Part) : (s.setPart p x).govQueue = s.govQueue := rfl
@[simp] theorem State.setPart_power (s : State) (p : Nat) (x : Part) : (s.setPart p x).power = s.power := rfl
@[simp] theorem State.setPart_fw (s : State) (p : Nat) (x : Part) : (s.setPart p x).fw = s.fw := rfl
@[simp] theorem State.setPart_dbg (s : State) (p : Nat) (x : Part) : (s.setPart p x).dbg = s.dbg := rfl
@[simp] theorem State.setPart_waits (s : State) (p : Nat) (x : Part) : (s.setPart p x).waits = s.waits := rfl
@[simp] theorem State.setPart_winShut (s : State) (p : Nat) (x : Part) : (s.setPart p x).winShut = s.winShut := rfl
@[simp] theorem State.setPart_winClose (s : State) (p : Nat) (x : Part) : (s.setPart p x).winClose = s.winClose := rfl
@[simp] theorem State.setPart_shadows (s : State) (p : Nat) (x : Part) : (s.setPart p x).shadows = s.shadows := rfl
@[simp] theorem State.setPart_faultWords (s : State) (p : Nat) (x : Part) : (s.setPart p x).faultWords = s.faultWords := rfl
@[simp] theorem State.setPart_kiln (s : State) (p : Nat) (x : Part) : (s.setPart p x).kiln = s.kiln := rfl
@[simp] theorem State.setPart_hports (s : State) (p : Nat) (x : Part) : (s.setPart p x).hports = s.hports := rfl
@[simp] theorem State.setPart_tunRows (s : State) (p : Nat) (x : Part) : (s.setPart p x).tunRows = s.tunRows := rfl
@[simp] theorem State.setPart_lpWords (s : State) (p : Nat) (x : Part) : (s.setPart p x).lpWords = s.lpWords := rfl
@[simp] theorem State.setPart_maintOut (s : State) (p : Nat) (x : Part) : (s.setPart p x).maintOut = s.maintOut := rfl
@[simp] theorem State.setPart_holds (s : State) (p : Nat) (x : Part) : (s.setPart p x).holds = s.holds := rfl
@[simp] theorem State.setPart_epochs (s : State) (p : Nat) (x : Part) : (s.setPart p x).epochs = s.epochs := rfl
@[simp] theorem State.setPart_plan (s : State) (p : Nat) (x : Part) : (s.setPart p x).plan = s.plan := rfl
@[simp] theorem State.setPart_events (s : State) (p : Nat) (x : Part) : (s.setPart p x).events = s.events := rfl
@[simp] theorem State.setPart_walkQ (s : State) (p : Nat) (x : Part) : (s.setPart p x).walkQ = s.walkQ := rfl
@[simp] theorem State.setPart_chEvents (s : State) (p : Nat) (x : Part) : (s.setPart p x).chEvents = s.chEvents := rfl
@[simp] theorem State.setPart_out (s : State) (p : Nat) (x : Part) : (s.setPart p x).out = s.out := rfl
@[simp] theorem State.setPart_free (s : State) (p : Nat) (x : Part) : (s.setPart p x).free = s.free := rfl
@[simp] theorem State.setPart_time (s : State) (p : Nat) (x : Part) : (s.setPart p x).time = s.time := rfl
@[simp] theorem State.setPart_pending (s : State) (p : Nat) (x : Part) : (s.setPart p x).pending = s.pending := rfl

@[simp] theorem State.setGate_dict (s : State) (p : Nat) (x : Gate) : (s.setGate p x).dict = s.dict := rfl
@[simp] theorem State.setGate_mem (s : State) (p : Nat) (x : Gate) : (s.setGate p x).mem = s.mem := rfl
@[simp] theorem State.setGate_poison (s : State) (p : Nat) (x : Gate) : (s.setGate p x).poison = s.poison := rfl
@[simp] theorem State.setGate_flaws (s : State) (p : Nat) (x : Gate) : (s.setGate p x).flaws = s.flaws := rfl
@[simp] theorem State.setGate_linkErrs (s : State) (p : Nat) (x : Gate) : (s.setGate p x).linkErrs = s.linkErrs := rfl
@[simp] theorem State.setGate_gens (s : State) (p : Nat) (x : Gate) : (s.setGate p x).gens = s.gens := rfl
@[simp] theorem State.setGate_cores (s : State) (p : Nat) (x : Gate) : (s.setGate p x).cores = s.cores := rfl
@[simp] theorem State.setGate_barriers (s : State) (p : Nat) (x : Gate) : (s.setGate p x).barriers = s.barriers := rfl
@[simp] theorem State.setGate_saved (s : State) (p : Nat) (x : Gate) : (s.setGate p x).saved = s.saved := rfl
@[simp] theorem State.setGate_sessions (s : State) (p : Nat) (x : Gate) : (s.setGate p x).sessions = s.sessions := rfl
@[simp] theorem State.setGate_sessIds (s : State) (p : Nat) (x : Gate) : (s.setGate p x).sessIds = s.sessIds := rfl
@[simp] theorem State.setGate_openFails (s : State) (p : Nat) (x : Gate) : (s.setGate p x).openFails = s.openFails := rfl
@[simp] theorem State.setGate_qps (s : State) (p : Nat) (x : Gate) : (s.setGate p x).qps = s.qps := rfl
@[simp] theorem State.setGate_posts (s : State) (p : Nat) (x : Gate) : (s.setGate p x).posts = s.posts := rfl
@[simp] theorem State.setGate_ports (s : State) (p : Nat) (x : Gate) : (s.setGate p x).ports = s.ports := rfl
@[simp] theorem State.setGate_lxs (s : State) (p : Nat) (x : Gate) : (s.setGate p x).lxs = s.lxs := rfl
@[simp] theorem State.setGate_mxs (s : State) (p : Nat) (x : Gate) : (s.setGate p x).mxs = s.mxs := rfl
@[simp] theorem State.setGate_intakes (s : State) (p : Nat) (x : Gate) : (s.setGate p x).intakes = s.intakes := rfl
@[simp] theorem State.setGate_pours (s : State) (p : Nat) (x : Gate) : (s.setGate p x).pours = s.pours := rfl
@[simp] theorem State.setGate_pourOff (s : State) (p : Nat) (x : Gate) : (s.setGate p x).pourOff = s.pourOff := rfl
@[simp] theorem State.setGate_latched (s : State) (p : Nat) (x : Gate) : (s.setGate p x).latched = s.latched := rfl
@[simp] theorem State.setGate_parts (s : State) (p : Nat) (x : Gate) : (s.setGate p x).parts = s.parts := rfl
@[simp] theorem State.setGate_filling (s : State) (p : Nat) (x : Gate) : (s.setGate p x).filling = s.filling := rfl
@[simp] theorem State.setGate_govQueue (s : State) (p : Nat) (x : Gate) : (s.setGate p x).govQueue = s.govQueue := rfl
@[simp] theorem State.setGate_power (s : State) (p : Nat) (x : Gate) : (s.setGate p x).power = s.power := rfl
@[simp] theorem State.setGate_fw (s : State) (p : Nat) (x : Gate) : (s.setGate p x).fw = s.fw := rfl
@[simp] theorem State.setGate_dbg (s : State) (p : Nat) (x : Gate) : (s.setGate p x).dbg = s.dbg := rfl
@[simp] theorem State.setGate_waits (s : State) (p : Nat) (x : Gate) : (s.setGate p x).waits = s.waits := rfl
@[simp] theorem State.setGate_winShut (s : State) (p : Nat) (x : Gate) : (s.setGate p x).winShut = s.winShut := rfl
@[simp] theorem State.setGate_winClose (s : State) (p : Nat) (x : Gate) : (s.setGate p x).winClose = s.winClose := rfl
@[simp] theorem State.setGate_shadows (s : State) (p : Nat) (x : Gate) : (s.setGate p x).shadows = s.shadows := rfl
@[simp] theorem State.setGate_faultWords (s : State) (p : Nat) (x : Gate) : (s.setGate p x).faultWords = s.faultWords := rfl
@[simp] theorem State.setGate_kiln (s : State) (p : Nat) (x : Gate) : (s.setGate p x).kiln = s.kiln := rfl
@[simp] theorem State.setGate_hports (s : State) (p : Nat) (x : Gate) : (s.setGate p x).hports = s.hports := rfl
@[simp] theorem State.setGate_tunRows (s : State) (p : Nat) (x : Gate) : (s.setGate p x).tunRows = s.tunRows := rfl
@[simp] theorem State.setGate_lpWords (s : State) (p : Nat) (x : Gate) : (s.setGate p x).lpWords = s.lpWords := rfl
@[simp] theorem State.setGate_maintOut (s : State) (p : Nat) (x : Gate) : (s.setGate p x).maintOut = s.maintOut := rfl
@[simp] theorem State.setGate_holds (s : State) (p : Nat) (x : Gate) : (s.setGate p x).holds = s.holds := rfl
@[simp] theorem State.setGate_epochs (s : State) (p : Nat) (x : Gate) : (s.setGate p x).epochs = s.epochs := rfl
@[simp] theorem State.setGate_plan (s : State) (p : Nat) (x : Gate) : (s.setGate p x).plan = s.plan := rfl
@[simp] theorem State.setGate_events (s : State) (p : Nat) (x : Gate) : (s.setGate p x).events = s.events := rfl
@[simp] theorem State.setGate_walkQ (s : State) (p : Nat) (x : Gate) : (s.setGate p x).walkQ = s.walkQ := rfl
@[simp] theorem State.setGate_chEvents (s : State) (p : Nat) (x : Gate) : (s.setGate p x).chEvents = s.chEvents := rfl
@[simp] theorem State.setGate_out (s : State) (p : Nat) (x : Gate) : (s.setGate p x).out = s.out := rfl
@[simp] theorem State.setGate_free (s : State) (p : Nat) (x : Gate) : (s.setGate p x).free = s.free := rfl
@[simp] theorem State.setGate_time (s : State) (p : Nat) (x : Gate) : (s.setGate p x).time = s.time := rfl
@[simp] theorem State.setGate_pending (s : State) (p : Nat) (x : Gate) : (s.setGate p x).pending = s.pending := rfl

@[simp] theorem State.setPour_dict (s : State) (p : Nat) (x : Pour) : (s.setPour p x).dict = s.dict := rfl
@[simp] theorem State.setPour_mem (s : State) (p : Nat) (x : Pour) : (s.setPour p x).mem = s.mem := rfl
@[simp] theorem State.setPour_poison (s : State) (p : Nat) (x : Pour) : (s.setPour p x).poison = s.poison := rfl
@[simp] theorem State.setPour_flaws (s : State) (p : Nat) (x : Pour) : (s.setPour p x).flaws = s.flaws := rfl
@[simp] theorem State.setPour_linkErrs (s : State) (p : Nat) (x : Pour) : (s.setPour p x).linkErrs = s.linkErrs := rfl
@[simp] theorem State.setPour_gens (s : State) (p : Nat) (x : Pour) : (s.setPour p x).gens = s.gens := rfl
@[simp] theorem State.setPour_cores (s : State) (p : Nat) (x : Pour) : (s.setPour p x).cores = s.cores := rfl
@[simp] theorem State.setPour_barriers (s : State) (p : Nat) (x : Pour) : (s.setPour p x).barriers = s.barriers := rfl
@[simp] theorem State.setPour_saved (s : State) (p : Nat) (x : Pour) : (s.setPour p x).saved = s.saved := rfl
@[simp] theorem State.setPour_sessions (s : State) (p : Nat) (x : Pour) : (s.setPour p x).sessions = s.sessions := rfl
@[simp] theorem State.setPour_sessIds (s : State) (p : Nat) (x : Pour) : (s.setPour p x).sessIds = s.sessIds := rfl
@[simp] theorem State.setPour_openFails (s : State) (p : Nat) (x : Pour) : (s.setPour p x).openFails = s.openFails := rfl
@[simp] theorem State.setPour_qps (s : State) (p : Nat) (x : Pour) : (s.setPour p x).qps = s.qps := rfl
@[simp] theorem State.setPour_posts (s : State) (p : Nat) (x : Pour) : (s.setPour p x).posts = s.posts := rfl
@[simp] theorem State.setPour_ports (s : State) (p : Nat) (x : Pour) : (s.setPour p x).ports = s.ports := rfl
@[simp] theorem State.setPour_lxs (s : State) (p : Nat) (x : Pour) : (s.setPour p x).lxs = s.lxs := rfl
@[simp] theorem State.setPour_mxs (s : State) (p : Nat) (x : Pour) : (s.setPour p x).mxs = s.mxs := rfl
@[simp] theorem State.setPour_intakes (s : State) (p : Nat) (x : Pour) : (s.setPour p x).intakes = s.intakes := rfl
@[simp] theorem State.setPour_gates (s : State) (p : Nat) (x : Pour) : (s.setPour p x).gates = s.gates := rfl
@[simp] theorem State.setPour_pourOff (s : State) (p : Nat) (x : Pour) : (s.setPour p x).pourOff = s.pourOff := rfl
@[simp] theorem State.setPour_latched (s : State) (p : Nat) (x : Pour) : (s.setPour p x).latched = s.latched := rfl
@[simp] theorem State.setPour_parts (s : State) (p : Nat) (x : Pour) : (s.setPour p x).parts = s.parts := rfl
@[simp] theorem State.setPour_filling (s : State) (p : Nat) (x : Pour) : (s.setPour p x).filling = s.filling := rfl
@[simp] theorem State.setPour_govQueue (s : State) (p : Nat) (x : Pour) : (s.setPour p x).govQueue = s.govQueue := rfl
@[simp] theorem State.setPour_power (s : State) (p : Nat) (x : Pour) : (s.setPour p x).power = s.power := rfl
@[simp] theorem State.setPour_fw (s : State) (p : Nat) (x : Pour) : (s.setPour p x).fw = s.fw := rfl
@[simp] theorem State.setPour_dbg (s : State) (p : Nat) (x : Pour) : (s.setPour p x).dbg = s.dbg := rfl
@[simp] theorem State.setPour_waits (s : State) (p : Nat) (x : Pour) : (s.setPour p x).waits = s.waits := rfl
@[simp] theorem State.setPour_winShut (s : State) (p : Nat) (x : Pour) : (s.setPour p x).winShut = s.winShut := rfl
@[simp] theorem State.setPour_winClose (s : State) (p : Nat) (x : Pour) : (s.setPour p x).winClose = s.winClose := rfl
@[simp] theorem State.setPour_shadows (s : State) (p : Nat) (x : Pour) : (s.setPour p x).shadows = s.shadows := rfl
@[simp] theorem State.setPour_faultWords (s : State) (p : Nat) (x : Pour) : (s.setPour p x).faultWords = s.faultWords := rfl
@[simp] theorem State.setPour_kiln (s : State) (p : Nat) (x : Pour) : (s.setPour p x).kiln = s.kiln := rfl
@[simp] theorem State.setPour_hports (s : State) (p : Nat) (x : Pour) : (s.setPour p x).hports = s.hports := rfl
@[simp] theorem State.setPour_tunRows (s : State) (p : Nat) (x : Pour) : (s.setPour p x).tunRows = s.tunRows := rfl
@[simp] theorem State.setPour_lpWords (s : State) (p : Nat) (x : Pour) : (s.setPour p x).lpWords = s.lpWords := rfl
@[simp] theorem State.setPour_maintOut (s : State) (p : Nat) (x : Pour) : (s.setPour p x).maintOut = s.maintOut := rfl
@[simp] theorem State.setPour_holds (s : State) (p : Nat) (x : Pour) : (s.setPour p x).holds = s.holds := rfl
@[simp] theorem State.setPour_epochs (s : State) (p : Nat) (x : Pour) : (s.setPour p x).epochs = s.epochs := rfl
@[simp] theorem State.setPour_plan (s : State) (p : Nat) (x : Pour) : (s.setPour p x).plan = s.plan := rfl
@[simp] theorem State.setPour_events (s : State) (p : Nat) (x : Pour) : (s.setPour p x).events = s.events := rfl
@[simp] theorem State.setPour_walkQ (s : State) (p : Nat) (x : Pour) : (s.setPour p x).walkQ = s.walkQ := rfl
@[simp] theorem State.setPour_chEvents (s : State) (p : Nat) (x : Pour) : (s.setPour p x).chEvents = s.chEvents := rfl
@[simp] theorem State.setPour_out (s : State) (p : Nat) (x : Pour) : (s.setPour p x).out = s.out := rfl
@[simp] theorem State.setPour_free (s : State) (p : Nat) (x : Pour) : (s.setPour p x).free = s.free := rfl
@[simp] theorem State.setPour_time (s : State) (p : Nat) (x : Pour) : (s.setPour p x).time = s.time := rfl
@[simp] theorem State.setPour_pending (s : State) (p : Nat) (x : Pour) : (s.setPour p x).pending = s.pending := rfl

@[simp] theorem State.modDbg_dict (s : State) (f : Debug → Debug) : (s.modDbg f).dict = s.dict := rfl
@[simp] theorem State.modDbg_mem (s : State) (f : Debug → Debug) : (s.modDbg f).mem = s.mem := rfl
@[simp] theorem State.modDbg_poison (s : State) (f : Debug → Debug) : (s.modDbg f).poison = s.poison := rfl
@[simp] theorem State.modDbg_flaws (s : State) (f : Debug → Debug) : (s.modDbg f).flaws = s.flaws := rfl
@[simp] theorem State.modDbg_linkErrs (s : State) (f : Debug → Debug) : (s.modDbg f).linkErrs = s.linkErrs := rfl
@[simp] theorem State.modDbg_gens (s : State) (f : Debug → Debug) : (s.modDbg f).gens = s.gens := rfl
@[simp] theorem State.modDbg_cores (s : State) (f : Debug → Debug) : (s.modDbg f).cores = s.cores := rfl
@[simp] theorem State.modDbg_barriers (s : State) (f : Debug → Debug) : (s.modDbg f).barriers = s.barriers := rfl
@[simp] theorem State.modDbg_saved (s : State) (f : Debug → Debug) : (s.modDbg f).saved = s.saved := rfl
@[simp] theorem State.modDbg_sessions (s : State) (f : Debug → Debug) : (s.modDbg f).sessions = s.sessions := rfl
@[simp] theorem State.modDbg_sessIds (s : State) (f : Debug → Debug) : (s.modDbg f).sessIds = s.sessIds := rfl
@[simp] theorem State.modDbg_openFails (s : State) (f : Debug → Debug) : (s.modDbg f).openFails = s.openFails := rfl
@[simp] theorem State.modDbg_qps (s : State) (f : Debug → Debug) : (s.modDbg f).qps = s.qps := rfl
@[simp] theorem State.modDbg_posts (s : State) (f : Debug → Debug) : (s.modDbg f).posts = s.posts := rfl
@[simp] theorem State.modDbg_ports (s : State) (f : Debug → Debug) : (s.modDbg f).ports = s.ports := rfl
@[simp] theorem State.modDbg_lxs (s : State) (f : Debug → Debug) : (s.modDbg f).lxs = s.lxs := rfl
@[simp] theorem State.modDbg_mxs (s : State) (f : Debug → Debug) : (s.modDbg f).mxs = s.mxs := rfl
@[simp] theorem State.modDbg_intakes (s : State) (f : Debug → Debug) : (s.modDbg f).intakes = s.intakes := rfl
@[simp] theorem State.modDbg_gates (s : State) (f : Debug → Debug) : (s.modDbg f).gates = s.gates := rfl
@[simp] theorem State.modDbg_pours (s : State) (f : Debug → Debug) : (s.modDbg f).pours = s.pours := rfl
@[simp] theorem State.modDbg_pourOff (s : State) (f : Debug → Debug) : (s.modDbg f).pourOff = s.pourOff := rfl
@[simp] theorem State.modDbg_latched (s : State) (f : Debug → Debug) : (s.modDbg f).latched = s.latched := rfl
@[simp] theorem State.modDbg_parts (s : State) (f : Debug → Debug) : (s.modDbg f).parts = s.parts := rfl
@[simp] theorem State.modDbg_filling (s : State) (f : Debug → Debug) : (s.modDbg f).filling = s.filling := rfl
@[simp] theorem State.modDbg_govQueue (s : State) (f : Debug → Debug) : (s.modDbg f).govQueue = s.govQueue := rfl
@[simp] theorem State.modDbg_power (s : State) (f : Debug → Debug) : (s.modDbg f).power = s.power := rfl
@[simp] theorem State.modDbg_fw (s : State) (f : Debug → Debug) : (s.modDbg f).fw = s.fw := rfl
@[simp] theorem State.modDbg_waits (s : State) (f : Debug → Debug) : (s.modDbg f).waits = s.waits := rfl
@[simp] theorem State.modDbg_winShut (s : State) (f : Debug → Debug) : (s.modDbg f).winShut = s.winShut := rfl
@[simp] theorem State.modDbg_winClose (s : State) (f : Debug → Debug) : (s.modDbg f).winClose = s.winClose := rfl
@[simp] theorem State.modDbg_shadows (s : State) (f : Debug → Debug) : (s.modDbg f).shadows = s.shadows := rfl
@[simp] theorem State.modDbg_faultWords (s : State) (f : Debug → Debug) : (s.modDbg f).faultWords = s.faultWords := rfl
@[simp] theorem State.modDbg_kiln (s : State) (f : Debug → Debug) : (s.modDbg f).kiln = s.kiln := rfl
@[simp] theorem State.modDbg_hports (s : State) (f : Debug → Debug) : (s.modDbg f).hports = s.hports := rfl
@[simp] theorem State.modDbg_tunRows (s : State) (f : Debug → Debug) : (s.modDbg f).tunRows = s.tunRows := rfl
@[simp] theorem State.modDbg_lpWords (s : State) (f : Debug → Debug) : (s.modDbg f).lpWords = s.lpWords := rfl
@[simp] theorem State.modDbg_maintOut (s : State) (f : Debug → Debug) : (s.modDbg f).maintOut = s.maintOut := rfl
@[simp] theorem State.modDbg_holds (s : State) (f : Debug → Debug) : (s.modDbg f).holds = s.holds := rfl
@[simp] theorem State.modDbg_epochs (s : State) (f : Debug → Debug) : (s.modDbg f).epochs = s.epochs := rfl
@[simp] theorem State.modDbg_plan (s : State) (f : Debug → Debug) : (s.modDbg f).plan = s.plan := rfl
@[simp] theorem State.modDbg_events (s : State) (f : Debug → Debug) : (s.modDbg f).events = s.events := rfl
@[simp] theorem State.modDbg_walkQ (s : State) (f : Debug → Debug) : (s.modDbg f).walkQ = s.walkQ := rfl
@[simp] theorem State.modDbg_chEvents (s : State) (f : Debug → Debug) : (s.modDbg f).chEvents = s.chEvents := rfl
@[simp] theorem State.modDbg_out (s : State) (f : Debug → Debug) : (s.modDbg f).out = s.out := rfl
@[simp] theorem State.modDbg_free (s : State) (f : Debug → Debug) : (s.modDbg f).free = s.free := rfl
@[simp] theorem State.modDbg_time (s : State) (f : Debug → Debug) : (s.modDbg f).time = s.time := rfl
@[simp] theorem State.modDbg_pending (s : State) (f : Debug → Debug) : (s.modDbg f).pending = s.pending := rfl

@[simp] theorem State.modPower_dict (s : State) (f : Power → Power) : (s.modPower f).dict = s.dict := rfl
@[simp] theorem State.modPower_mem (s : State) (f : Power → Power) : (s.modPower f).mem = s.mem := rfl
@[simp] theorem State.modPower_poison (s : State) (f : Power → Power) : (s.modPower f).poison = s.poison := rfl
@[simp] theorem State.modPower_flaws (s : State) (f : Power → Power) : (s.modPower f).flaws = s.flaws := rfl
@[simp] theorem State.modPower_linkErrs (s : State) (f : Power → Power) : (s.modPower f).linkErrs = s.linkErrs := rfl
@[simp] theorem State.modPower_gens (s : State) (f : Power → Power) : (s.modPower f).gens = s.gens := rfl
@[simp] theorem State.modPower_cores (s : State) (f : Power → Power) : (s.modPower f).cores = s.cores := rfl
@[simp] theorem State.modPower_barriers (s : State) (f : Power → Power) : (s.modPower f).barriers = s.barriers := rfl
@[simp] theorem State.modPower_saved (s : State) (f : Power → Power) : (s.modPower f).saved = s.saved := rfl
@[simp] theorem State.modPower_sessions (s : State) (f : Power → Power) : (s.modPower f).sessions = s.sessions := rfl
@[simp] theorem State.modPower_sessIds (s : State) (f : Power → Power) : (s.modPower f).sessIds = s.sessIds := rfl
@[simp] theorem State.modPower_openFails (s : State) (f : Power → Power) : (s.modPower f).openFails = s.openFails := rfl
@[simp] theorem State.modPower_qps (s : State) (f : Power → Power) : (s.modPower f).qps = s.qps := rfl
@[simp] theorem State.modPower_posts (s : State) (f : Power → Power) : (s.modPower f).posts = s.posts := rfl
@[simp] theorem State.modPower_ports (s : State) (f : Power → Power) : (s.modPower f).ports = s.ports := rfl
@[simp] theorem State.modPower_lxs (s : State) (f : Power → Power) : (s.modPower f).lxs = s.lxs := rfl
@[simp] theorem State.modPower_mxs (s : State) (f : Power → Power) : (s.modPower f).mxs = s.mxs := rfl
@[simp] theorem State.modPower_intakes (s : State) (f : Power → Power) : (s.modPower f).intakes = s.intakes := rfl
@[simp] theorem State.modPower_gates (s : State) (f : Power → Power) : (s.modPower f).gates = s.gates := rfl
@[simp] theorem State.modPower_pours (s : State) (f : Power → Power) : (s.modPower f).pours = s.pours := rfl
@[simp] theorem State.modPower_pourOff (s : State) (f : Power → Power) : (s.modPower f).pourOff = s.pourOff := rfl
@[simp] theorem State.modPower_latched (s : State) (f : Power → Power) : (s.modPower f).latched = s.latched := rfl
@[simp] theorem State.modPower_parts (s : State) (f : Power → Power) : (s.modPower f).parts = s.parts := rfl
@[simp] theorem State.modPower_filling (s : State) (f : Power → Power) : (s.modPower f).filling = s.filling := rfl
@[simp] theorem State.modPower_govQueue (s : State) (f : Power → Power) : (s.modPower f).govQueue = s.govQueue := rfl
@[simp] theorem State.modPower_fw (s : State) (f : Power → Power) : (s.modPower f).fw = s.fw := rfl
@[simp] theorem State.modPower_dbg (s : State) (f : Power → Power) : (s.modPower f).dbg = s.dbg := rfl
@[simp] theorem State.modPower_waits (s : State) (f : Power → Power) : (s.modPower f).waits = s.waits := rfl
@[simp] theorem State.modPower_winShut (s : State) (f : Power → Power) : (s.modPower f).winShut = s.winShut := rfl
@[simp] theorem State.modPower_winClose (s : State) (f : Power → Power) : (s.modPower f).winClose = s.winClose := rfl
@[simp] theorem State.modPower_shadows (s : State) (f : Power → Power) : (s.modPower f).shadows = s.shadows := rfl
@[simp] theorem State.modPower_faultWords (s : State) (f : Power → Power) : (s.modPower f).faultWords = s.faultWords := rfl
@[simp] theorem State.modPower_kiln (s : State) (f : Power → Power) : (s.modPower f).kiln = s.kiln := rfl
@[simp] theorem State.modPower_hports (s : State) (f : Power → Power) : (s.modPower f).hports = s.hports := rfl
@[simp] theorem State.modPower_tunRows (s : State) (f : Power → Power) : (s.modPower f).tunRows = s.tunRows := rfl
@[simp] theorem State.modPower_lpWords (s : State) (f : Power → Power) : (s.modPower f).lpWords = s.lpWords := rfl
@[simp] theorem State.modPower_maintOut (s : State) (f : Power → Power) : (s.modPower f).maintOut = s.maintOut := rfl
@[simp] theorem State.modPower_holds (s : State) (f : Power → Power) : (s.modPower f).holds = s.holds := rfl
@[simp] theorem State.modPower_epochs (s : State) (f : Power → Power) : (s.modPower f).epochs = s.epochs := rfl
@[simp] theorem State.modPower_plan (s : State) (f : Power → Power) : (s.modPower f).plan = s.plan := rfl
@[simp] theorem State.modPower_events (s : State) (f : Power → Power) : (s.modPower f).events = s.events := rfl
@[simp] theorem State.modPower_walkQ (s : State) (f : Power → Power) : (s.modPower f).walkQ = s.walkQ := rfl
@[simp] theorem State.modPower_chEvents (s : State) (f : Power → Power) : (s.modPower f).chEvents = s.chEvents := rfl
@[simp] theorem State.modPower_out (s : State) (f : Power → Power) : (s.modPower f).out = s.out := rfl
@[simp] theorem State.modPower_free (s : State) (f : Power → Power) : (s.modPower f).free = s.free := rfl
@[simp] theorem State.modPower_time (s : State) (f : Power → Power) : (s.modPower f).time = s.time := rfl
@[simp] theorem State.modPower_pending (s : State) (f : Power → Power) : (s.modPower f).pending = s.pending := rfl

end Sys2Proof.Machine
end

