-- ==== Sys2Proof/Laws/Ops.lean ====
section
/-! SUPPORT. What each shared operation does in the case in which its command acts: one lemma an operation, to be cited in
place of unfolding it. -/

namespace Sys2Proof.Machine

/-! ### Macro-operations (chapters 06 and 07) -/

/-- An iteration at work belongs to a command that has started. -/
theorem State.atWork_cmd {s : State} {n h op : Nat} {k : CmdRun} (w : s.atWork n h op k) : (s.ctx n h).cmd.isNone = false := by
  obtain ⟨h1, -, -, -⟩ := w
  unfold State.running at h1
  dsimp only at h1
  split at h1
  · cases hh : (s.ctx n h).cmd with
    | none => simp only [State.ctx] at hh; simp [hh] at h1
    | some x => rfl
  · simp at h1

/-- The row of a macro-operation whose iteration is open and at work takes one step of it. -/
theorem State.invoke_atWork {s : State} {n h op : Nat} {k : CmdRun} (w : s.atWork n h op k)
    (more : State → CmdRun → List Nat → List Status) (step : State → CmdRun → State) :
    s.invoke n h op more step = step s k := by
  have hc := State.atWork_cmd w
  obtain ⟨h1, h2, h3, h4⟩ := w
  simp [State.invoke, hc, h1, h2, h3, h4]

/-- That of a vector command takes one step of its kernel. -/
theorem State.vector_atWork {s : State} {n h op : Nat} {k : CmdRun} (w : s.atWork n h op k)
    (kern : State → CmdRun → List Nat → Kernel) (more : State → CmdRun → List Nat → List Status) :
    s.vector n h op kern more = s.vecStep n h kern k := State.invoke_atWork w _ _

/-- A role whose bytes are all staged takes nothing more from its ring. -/
theorem State.pull_full {s : State} {n h r need fuel : Nat} {keep : Bool} {k : CmdRun} (h1 : s.running n h = some k)
    (hf : k.full r need = true) : s.pull n h r need keep fuel = s := by
  cases fuel with
  | zero => rfl
  | succ f =>
    have hc : (s.ctx n h).cmd = some k := by
      unfold State.running at h1
      dsimp only at h1
      split at h1
      · simp only [State.ctx]
        cases hh : ((s.core n).ctx h).cmd <;> simp_all [Option.filter]
      · simp at h1
    simp only [State.pull, hc]
    simp only [CmdRun.full] at hf
    simp_all

/-- Draining goes forward, and leaves the accumulators as they are (R34, R41). -/
theorem State.drainPass_mono (n h : Nat) (q : Prod) (ops : List Nat) (mask : Bytes) :
    ∀ (fuel : Nat) (s t : State) (a b : ArrayRun) (st : Status), s.drainPass n h q ops mask fuel a = (t, b, st) →
      a.drained ≤ b.drained ∧ b.acc = a.acc := by
  intro fuel
  induction fuel with
  | zero => intro s t a b st hh; simp [State.drainPass] at hh; simp [← hh.2.1]
  | succ f ih =>
    intro s t a b st hh
    simp only [State.drainPass] at hh
    split at hh
    · cases hh; simp
    · split at hh
      · cases hh; simp
      · split at hh
        · cases hh; simp
        · split at hh
          · cases hh; simp
          · split at hh
            · cases hh; simp
            · have := ih _ _ _ _ _ hh
              simp only at this
              exact ⟨by omega, this.2⟩

/-! ### Requests: intake, host ports, fabric, debug, Caddy -/

/-- An intake row executes the well-formed packet of its TYPE at which its reader stands (R328, R329). -/
theorem State.reader_reads {s u : State} {d r ty : Nat} {bs : Bytes} (w : s.readsType d r ty u bs)
    (f : State → Bytes → State) : s.reader d r ty f = f u bs := by
  obtain ⟨h1, h2⟩ := w
  simp [State.reader, h1, h2]

/-- What reaches a READY queue pair is counted, answers its CE mark, and is taken (R318, R320, R335). -/
theorem State.roceIn_takes {s u : State} {p q k : Nat} {ce : Bool} (w : s.takesRoce p q k ce u) (f : State → State) :
    s.roceIn p q k ce f = f u := by
  obtain ⟨h1, h2, rfl⟩ := w
  simp [State.roceIn, h1, h2]

@[simp] theorem State.setHport_hport (s : State) (p : Nat) (x : HPort) : (s.setHport p x).hport p = x := by
  show SMap.get {} (SMap.putD {} p x s.hports) p = x
  rw [get_putD, if_pos rfl]

/-- A request that finds the receive buffer empty and does not wait is served at once, and the port then tells its peer
(R317, R321). -/
theorem State.rxTake_serves {s u : State} {p q k : Nat} {ce : Bool} {m : RxMsg} (w : s.servesRoce p q k ce m u) :
    s.rxTake p q k ce m = (u.rxServe p q m).flowControl p := by
  obtain ⟨v, h1, h2, h3, rfl⟩ := w
  simp only [State.rxTake, State.roceIn_takes h1, State.rxPump, h2, List.nil_append, State.setHport_hport,
    List.length_singleton, State.rxServeN, h3]
  simp

/-- A fabric row consumes the transaction of its kind that stands first, and frees its buffers (R300, R308). -/
theorem State.onTxn_front {s : State} {x : Nat} {t : Txn} {rest : List Txn} (w : (s.lx x).inq = t :: rest)
    (f : State → Txn → State) :
    s.onTxn x t.op f = f ((s.setLx x { s.lx x with inq := rest }).freeBufs t) t := by
  simp [State.onTxn, w]

/-- A well-formed debug request of an open scope, on a port that takes it, acts after the scan has shifted out the response
to the request before (R433, R435). -/
theorem State.dbgRequest_ready {s : State} {scope : Nat} (w : s.dbgReady scope) (op seq arg : Nat) (body : State → State) :
    s.dbgRequest op seq arg scope false body = body s.dbgScan := by
  obtain ⟨h1, h2, h3, h4⟩ := w
  have h3' : s.dbgScan.dbg.busy = none := h3
  have h4' : s.dbgScan.scopeOpen scope = true := h4
  simp [State.dbgRequest, h1, h2, h3', h4', conds]

/-- A well-formed Caddy request of an open session, next in sequence, is executed (R453, R457). -/
theorem State.caddyRequest_takes {s : State} {t : Tuple} {m : Bytes} {ty : Nat} {x : Session} (w : s.takesRequest t m ty x)
    (body : State → Session → State) :
    s.caddyRequest ty t m false body = body (s.rxFrames t.port.val 1) x := by
  obtain ⟨h1, h2, h3, h4, h5, h6, h7⟩ := w
  unfold State.caddyRequest
  rw [if_neg (by simp [h1, msgFor, h2])]
  dsimp only
  rw [h4]
  dsimp only
  rw [if_neg h6, if_pos ⟨h5, by simp [h7]⟩, if_neg (by simp [h3])]

/-- A dictionary write that no check refuses is done by the entry's own rule, and recorded (R443, R459, R461). -/
theorem State.writeEntry_done {s t : State} {o : Origin} {index sub : Nat} {value : Bytes} (who : Replier)
    (hc : s.writeRefusals o index sub value = []) (hb : index ≠ 0x2030)
    (ha : s.applyWrite o index sub value = (t, .done .ok)) :
    s.writeEntry o index sub value who =
      (t.writeNote o index sub (s.reg index sub) (t.valueAfter index sub (leNat value)) .ok, some .ok) := by
  simp [State.writeEntry, hc, hb, ha]

end Sys2Proof.Machine
end

