-- ==== Sys2Proof/Tests/Slice0.lean ====
section
/-! SUPPORT. Tests: WellFormed refuses what each of its checks is for; grist words of R104 written out bit by bit decode to
their instructions; and for each statement with hypotheses, concrete states and operands that meet them. -/

namespace Sys2Proof.Tests

open Sys2Proof Sys2Proof.Machine

-- One declaration at a time: the kernel evaluations of these tests otherwise each hold a thread of their own.
set_option Elab.async false

/-- The KD die as the writer of an entry. -/
def kd : Origin := ⟨0, 0xFF, 96, 0, 0⟩

theorem test_wf_chunk_number : (Instr.fwStageWrite kd 12288 (List.replicate 4096 0#8)).wf = false := by decide
theorem test_wf_chunk_length : (Instr.fwStageWrite kd 0 [0#8]).wf = false := by decide
theorem test_wf_segment_due : (Instr.kilnDue 0 true 176).wf = false := by decide
theorem test_wf_segment_request : (Instr.kilnRequestSegment kd 0 176).wf = false := by decide
theorem test_wf_bad_row : (Instr.segmentTest 0 0 [(0, 45056)]).wf = false := by decide
theorem test_wf_refresh_channels : (Instr.refreshPoll 0 2 [0, 0]).wf = false := by decide
theorem test_wf_package_ids : (Instr.lpddrTrainingDone [] []).wf = false := by decide
theorem test_wf_maintenance : (Instr.maintenanceRead 0 false ⟨0, 3, 1, 1, 0, 0, false⟩).wf = false := by decide
theorem test_wf_maintenance_rows : (Instr.maintenanceRead 0 false ⟨0, 8, 385, 1, 0, 0, false⟩).wf = false := by decide

/-! ### Grist words, bit by bit from the table of R104 -/

theorem test_word_seta : decodeGrist 0b00001_10_000101_111111_0000000000000 = some (.seta 2 5 63) := by decide
theorem test_word_adda_register : decodeGrist 0b00010_11_1_101_000000000000000000000 = some (.addaReg 3 5) := by decide
theorem test_word_adda_minus_one :
    decodeGrist 0b00010_01_0_000_111111111111111111111 = some (.addaImm 1 2097151) := by decide
theorem test_word_endl : decodeGrist 0b00101_01_1001_100_011_010_001_000000000 = some (.endl 1 9 4 3 2 1) := by decide
theorem test_word_store : decodeGrist 0b00111_11_1_10_11111111111_00000000000 = some (.store 3 true 2 2047) := by decide
theorem test_word_store_reserved_acc : decodeGrist 0b00111_11_1_11_11111111111_00000000000 = none := by decide
theorem test_word_scatter : decodeGrist 0b01001_01_10_011_100_11111111_01_0000000 = some (.scatter 1 2 3 4 255 1) := by decide
theorem test_word_wait : decodeGrist 0b01101_01_100000_00000011_000111_00000 = some (.wait 1 32 3 7) := by decide
theorem test_word_reserved_opcode : decodeGrist 0b10000_000000000000000000000000000 = none := by decide

/-! ### States that meet the hypotheses of the statements -/

/-- A state whose core 0 is as given. -/
def onCore (x : Core) : State := { cores := [(0, x)] }
/-- A stream of context 0 and ring 0, at instruction 0. -/
def strm : Stream := { desc := 0, ctx := 0, ring := 0, regs := { pc := 0 }, ckpt := { pc := 0 } }
/-- Ring 0: one unit a slot, three slots, in bank 0. -/
def ring0 : Ring := { ctx := 0, units := 1, slots := 3, baseRow := 0, mask := 1 }
/-- Core 0 with stream 0 about to execute a grist instruction, and ring 0. -/
def atGrist (g : Grist) (y : Stream := strm) (r : Ring := ring0) (x : Core := {}) : State :=
  onCore { x with streams := [(0, y)], rings := [(0, r)], prog := [(0, BitVec.ofNat 32 (encodeGrist g))] }

theorem witness_PlainGristCompletes :
    (atGrist (.setiImm 0 7)).ready 0 0 = some (strm, .setiImm 0 7) ∧ plainGrist (.setiImm 0 7) = true := by decide +kernel
theorem witness_PlainGristResults : ((16777215 : Fin 16777216).val ≠ 0) := by decide

/-- A stream whose transfer of 32 B has left whole. -/
def moved32 : Stream := { strm with regs := { pc := 0, done := 32 } }
/-- The same for rows: IR0 holds a row length of 32 and IR1 an increment of 32; its one row has left. -/
def movedRow : Stream :=
  { strm with regs := { pc := 0, ir := (Vector.replicate 8 0).set 0 32 |>.set 1 32, done := 131072 } }
theorem witness_TransfersComplete_load :
    let s := atGrist (.load 0 true 0) moved32;
    s.ready 0 0 = some (moved32, .load 0 true 0) ∧ moved32.regs.cursor + 32 ≤ s.slotSize 0 moved32 ∧
    s.ringFree 0 0 = true ∧ ((s.beginSlot 0 0).runMove 0 0 0 32 0 none 4096 32).2 = .left := by decide +kernel
theorem witness_TransfersComplete_gather :
    let s := atGrist (.gather 0 1 0 1 0) movedRow;
    s.ready 0 0 = some (movedRow, .gather 0 1 0 1 0) ∧ badRows (s.slotSize 0 movedRow) 0 1 32 = false ∧
    badIndexing movedRow.regs 1 0 1 = false ∧ s.ringFree 0 0 = true ∧
    ((s.beginSlot 0 0).runRows 0 0 0 1 1 32 1 none 8192).2 = .left := by decide +kernel
theorem witness_TransfersComplete_store :
    let y := { moved32 with taken := true }; let s := atGrist (.store 0 true 0 0) y;
    s.ready 0 0 = some (y, .store 0 true 0 0) ∧ y.suppress = false ∧ 32 ≤ s.slotSize 0 y ∧
    (s.runMove 0 0 0 32 0 (some 0) 4096 32).2 = .left := by decide +kernel
theorem witness_TransfersComplete_scatter :
    let y := { movedRow with taken := true }; let s := atGrist (.scatter 0 1 0 1 0 0) y;
    s.ready 0 0 = some (y, .scatter 0 1 0 1 0 0) ∧ badRows (s.slotSize 0 y) 0 1 32 = false ∧
    badIndexing y.regs 1 0 1 = false ∧ (s.runRows 0 0 0 1 1 32 1 (some 0) 8192).2 = .left := by decide +kernel

/-- A stream whose slot of 256 B is full. -/
def filled : Stream := { strm with regs := { pc := 0, cursor := 256 } }
theorem witness_SlotGristCompletes_emit :
    let s := atGrist (.emit false) filled;
    s.ready 0 0 = some (filled, .emit false) ∧ filled.waiting = false ∧ s.ringFree 0 0 = true ∧
    s.slotSize 0 filled ≤ 256 := by decide +kernel
/-- Ring 0 with one committed slot, sealed. -/
def ring1 (v : Nat) : Ring := { ring0 with tail := 1, prodPos := 1, seals := [(0, v)] }
theorem witness_SlotGristCompletes_take :
    let s := atGrist .take strm (ring1 0);
    s.ready 0 0 = some (strm, .take) ∧ strm.taken = false ∧ s.ring 0 0 = some (ring1 0) ∧
    s.headVisible (ring1 0) = true := by decide +kernel
/-- The seal of 256 zero bytes (the CRC is folded 32 B at a time). -/
theorem test_seal_of_zeros : (crc32c (List.replicate 256 0#8)).toNat = 3094524304 := by
  let z : Bytes := List.replicate 32 0#8
  have split (r : Nat) (a b : Bytes) : crcFold 0x82F63B78 r (a ++ b) = crcFold 0x82F63B78 (crcFold 0x82F63B78 r a) b := by
    simp [crcFold, List.foldl_append]
  have h0 : crcFold 0x82F63B78 4294967295 z = 1970194773 := by decide +kernel
  have h1 : crcFold 0x82F63B78 1970194773 z = 4231468184 := by decide +kernel
  have h2 : crcFold 0x82F63B78 4231468184 z = 2920151892 := by decide +kernel
  have h3 : crcFold 0x82F63B78 2920151892 z = 4158167844 := by decide +kernel
  have h4 : crcFold 0x82F63B78 4158167844 z = 475290725 := by decide +kernel
  have h5 : crcFold 0x82F63B78 475290725 z = 2345306063 := by decide +kernel
  have h6 : crcFold 0x82F63B78 2345306063 z = 3070562025 := by decide +kernel
  have h7 : crcFold 0x82F63B78 3070562025 z = 1200442991 := by decide +kernel
  have e : List.replicate 256 0#8 = z ++ (z ++ (z ++ (z ++ (z ++ (z ++ (z ++ z)))))) := by decide +kernel
  rw [crc32c, e, split, h0, split, h1, split, h2, split, h3, split, h4, split, h5, split, h6, h7]
  decide
theorem witness_SlotGristCompletes_free :
    let r := ring1 3094524304; let y := { filled with taken := true }; let s := atGrist .free y r;
    s.ready 0 0 = some (y, .free) ∧ y.waiting = false ∧ y.aborted = false ∧ s.ring 0 0 = some r ∧
    y.regs.cursor = r.slotBytes ∧
    s.readSlot 0 r 0 0 256 = (s, .ok, List.replicate 256 0#8) ∧ SMap.get 0 r.seals 0 = 3094524304 := by decide +kernel

/-- The state with barrier object 3 of die 0 owned by partition 0, one arrival from its phase 1. -/
def withBar (s : State) : State := { s with barriers := [(3, { owner := some 0, expect := 1 })] }
theorem witness_SyncGristCompletes_writes :
    (atGrist (.wait 0 0 0 0)).ready 0 0 = some (strm, .wait 0 0 0 0) ∧ strm.writing = false := by decide +kernel
theorem witness_SyncGristCompletes_barrier :
    let s := withBar (atGrist (.wait 1 0 3 0));
    s.ready 0 0 = some (strm, .wait 1 0 3 0) ∧ s.barRefusal 0 0 3 = none ∧ (s.barrier 0 3).reached 0 = true := by
  decide +kernel
theorem witness_SyncGristCompletes_arrive :
    let s := withBar (atGrist (.arrive 0 3));
    s.ready 0 0 = some (strm, .arrive 0 3) ∧ strm.writing = false ∧ s.barRefusal 0 0 3 = none ∧
    strm.arrMax ≤ strm.regs.arr := by decide +kernel
theorem witness_SyncGristCompletes_end :
    let s := atGrist .done;
    s.ready 0 0 = some (strm, .done) ∧ strm.reqs = [] ∧ strm.regs.cursor = 0 ∧ strm.taken = false ∧
    (s.ctx 0 0).rewinds 0 = false := by decide +kernel

/-- A request of the stream: a write that is acknowledged, and a read of LPDDR5X that the memory has not answered. -/
def wReq : Req := { write := true, gaddr := 0, va := 0, len := 32, off := 0, ready := true }
def rReq : Req := { wReq with write := false, ready := false }
theorem witness_StreamEventsComplete_write :
    let y := { strm with reqs := [wReq] };
    (atGrist .take y).stream 0 0 = some y ∧ y.completable = some wReq ∧ wReq.status = .ok := by decide +kernel
theorem witness_StreamEventsComplete_read :
    let y := { strm with desc := 2 ^ 14, reqs := [rReq] }; let s := atGrist .take y;
    s.stream 0 0 = some y ∧ s.memRead y = some rReq ∧ y.drains = true ∧
    ((s.bump 32 (0x8830 + (s.lpDecode 0).1) (s.lpDecode 0).2.1 2).readArray 0 32
      (s.ctx 0 y.ctx).lastTag).2 = (.ok, List.replicate 32 0#8) := by decide +kernel
theorem witness_StreamEventsComplete_increment :
    let q := { wReq with ready := false, owner := some 0 }; let y := { strm with reqs := [q] };
    let s := { atGrist .take y with mxs := [(0, { incr := [(0, 0, 0, 0)] })] };
    (s.mx 0).incr = [(0, 0, 0, 0)] ∧ s.stream 0 0 = some y ∧
    (y.reqs.find? fun q => q.write && q.va == 0 && q.owner == some 0) = some q := by decide +kernel
/-- Ring 0 with one committed slot. -/
def ring2 : Ring := { ring0 with tail := 1, prodPos := 1 }
/-- A slot record with one generation. -/
def rec0 : SlotRec := { ckpt := { pc := 0 }, gens := [(0, 0)] }
theorem witness_StreamEventsComplete_probe :
    let r := { ring2 with recs := [(0, rec0)] };
    (atGrist .take strm r).ring 0 0 = some r ∧ r.kept < r.held ∧ r.busy = false ∧
    SMap.find? r.cur r.recs = some rec0 ∧ r.hd ≠ .delivered := by decide +kernel
theorem witness_StreamEventsComplete_response :
    let r := { ring2 with recs := [(0, rec0)], hd := .probing (some [0]) }; let s := atGrist .take strm r;
    s.ring 0 0 = some r ∧ SMap.find? r.cur r.recs = some rec0 ∧ r.hd = .probing (some (rec0.gens.map (·.2))) ∧
    rec0.unrecorded = false ∧ s.fresh rec0 = true := by decide +kernel
/-- A word of a command with an opcode and a number of bits besides. -/
def cmdOf (op : Nat) (more : Nat := 0) : CmdRun := { index := 0, word := op + more, open_ := true }
theorem witness_StreamEventsComplete_barrier :
    let k := cmdOf 0x48; let s : State := { onCore { ctxs := [(0, { state := .waiting, cmd := some k })] } with barriers := [(0, { owner := some 0 })] };
    (s.ctx 0 0).cmd = some k ∧ (s.ctx 0 0).state = .waiting ∧ cOp k.word = 0x48 ∧ (s.ctx 0 0).halted = false ∧
    (s.barrier (barDie k.word) (barObj k.word)).reached (opnd (s.opsNow 0 0 k) 0 % 65536) = true ∧
    (s.core 0).exec_ = none := by decide +kernel
/-- A page table at 0x10000 whose entry 0 names the table itself and whose entry 1 is a writable 2 MiB leaf. -/
def walkState : State :=
  let y := { strm with phase := .walking 0x200000 true };
  ({ atGrist .take y with mem := [(0x10000, 1), (0x10002, 1), (0x10008, 0xD)], walkQ := [(0, 0)] } : State)
    |>.setReg 0x3000 0 (2 ^ 36) |>.setReg 0x3800 0 0x10000
theorem witness_StreamEventsComplete_walk :
    let s := walkState;
    (s.walks 0).contains (0, 0) = true ∧
    (({ s with walkQ := s.walkQ.filter fun e => e != (0, 0) } : State).walkFill 0 0 0 0 0x200000 true).2 = .ok 0 false ∧
    s.stream 0 0 = some { strm with phase := .walking 0x200000 true } := by decide +kernel

/-- Core 0 with context 0 at work on a command. -/
def working (k : CmdRun) (x : Core := {}) : State :=
  onCore { x with ctxs := [(0, { state := .running, cmd := some k })], exec_ := some 0 }

/-- Every opcode has a state in which its open iteration is at work (VectorRowsComplete, ProductRowsComplete,
OtherMacroRowsComplete). -/
theorem witness_atWork (op : Nat) (h : op < 256) : (working (cmdOf op)).atWork 0 0 op (cmdOf op) :=
  ⟨rfl, rfl, by show ((op + 0) >>> 0) % 2 ^ (7 + 1 - 0) = op; simpa using h, rfl⟩

theorem witness_VectorIterationEnds :
    let k := cmdOf 0x38; let q : Kernel := { ins := [], outs := [], run := fun _ _ => [] };
    (working k).running 0 0 = some k ∧ q.read k = true := by decide +kernel
theorem witness_ProductRowsComplete_begin : ((working (cmdOf 1)).core 0).array = none := by decide +kernel
/-- A pass of context 0 whose k-steps have all entered. -/
def pass (hold : Bool := false) : ArrayRun := { ctx := 0, mTile := 0, nTile := 0, acc := [], hold := hold }
theorem witness_ProductRowsComplete_end :
    let s := working (cmdOf 1) { array := some pass };
    (s.core 0).array = some pass ∧ pass.hold = false ∧ (s.prod 0 (cmdOf 1) (s.opsNow 0 0 (cmdOf 1))).steps ≤ pass.step := by
  decide +kernel
theorem witness_ArrayRowsComplete_continue :
    let s := working (cmdOf 1) { array := some (pass true) };
    (s.core 0).array = some (pass true) ∧ s.running 0 0 = some (cmdOf 1) := by decide +kernel
theorem witness_ArrayRowsComplete_drain :
    let k := cmdOf 1; let s := working k { array := some pass }; let q := s.prod 0 k (s.opsNow 0 0 k);
    (s.core 0).array = some pass ∧ s.running 0 0 = some k ∧ q.steps ≤ pass.step ∧ k.full 0 q.lenA = true ∧
    k.full 1 q.lenB = true ∧
    (s.drainPass 0 0 q (s.opsNow 0 0 k) (if q.masked then k.got 2 (q.lenIn2 (s.opsNow 0 0 k)) else []) (33 * q.wid)
      pass).2.2 = .ok := by decide +kernel
theorem witness_ArrayRowsComplete_kstep :
    let k := { cmdOf 1 (2 ^ 244 + 2 ^ 149 + 2 ^ 153) with inBuf := [(0, List.replicate 256 0#8), (1, List.replicate 64 0#8)] };
    let s := working k { array := some pass }; let q := s.prod 0 k (s.opsNow 0 0 k);
    (s.core 0).array = some pass ∧ s.running 0 0 = some k ∧ pass.hold = false ∧ pass.step + 1 < q.steps ∧
    k.full 0 (q.needA pass.step) = true ∧ k.full 1 (q.needB pass.nTile pass.step) = true := by decide +kernel
theorem witness_StepAccShape :
    (List.replicate 32 (0 : W32)).length =
      32 * ({ (working (cmdOf 1)).prod 0 (cmdOf 1) [] with wid := 1 } : Prod).wid := by decide +kernel
theorem witness_OtherMacroRowsComplete_barrier :
    let k := cmdOf 0x48 (2 ^ 32); let s := { working k with barriers := [(0, { owner := some 0, expect := 1 })] };
    s.atWork 0 0 0x48 k ∧ s.cmdBarRefusal 0 k.word = none ∧
    cFlag k.word 32 = true := ⟨⟨rfl, rfl, rfl, rfl⟩, by decide +kernel⟩
theorem witness_OtherMacroRowsComplete_wait :
    let k := cmdOf 0x49; let s := { working k with barriers := [(0, { owner := some 0, expect := 1 })] };
    s.cmdBarRefusal 0 k.word = none ∧ (s.barrier (barDie k.word) (barObj k.word)).reached (opnd (s.opsNow 0 0 k) 0 % 65536) = true := by
  decide +kernel
theorem witness_OtherMacroRowsComplete_fill :
    let k := cmdOf 0x50; let s := working k;
    (s.fillLease 0 0 k).2 = none ∧ ((s.fillLease 0 0 k).1.writeMem (spBase 0) (fillBytes 0 0)).2 = .ok := by decide +kernel
theorem witness_OtherMacroRowsComplete_copy :
    let k := cmdOf 0x51 (2 ^ 146);
    let s := onCore { ctxs := [(0, { state := .running, cmd := some k, params := [(0, 32)] })], exec_ := some 0 };
    (s.fillLease 0 0 k).2 = none ∧ opnd (s.opsNow 0 0 k) 2 = 32 ∧
    ((s.fillLease 0 0 k).1.readMem (spBase 0 + opnd (s.opsNow 0 0 k) 0) (opnd (s.opsNow 0 0 k) 2) (cTag k.word)).2.1 = .ok ∧
    (s.writeMem (spBase 0 + opnd (s.opsNow 0 0 k) 1) (List.replicate 32 0#8)).2 = .ok := by decide +kernel
theorem witness_OtherMacroRowsComplete_report :
    let k := { cmdOf 0x39 with phase := .held }; let s := onCore { ctxs := [(0, { state := .waiting, cmd := some k })] };
    (s.ctx 0 0).cmd = some k ∧ (s.ctx 0 0).state = .waiting ∧ k.pos = 0 ∧ (s.ctx 0 0).kind ≠ .third := by decide +kernel
/-- A gated update of step 0 while the gate of step 0 is OPEN, on a core whose group runs. -/
theorem witness_OtherMacroRowsComplete_gated :
    let k := { cmdOf 0x30 (2 ^ 32) with phase := .gate };
    let s := ((onCore { ctxs := [(0, { state := .running, cmd := some k })] }).setReg 0x9400 2 3).setReg 0x2013 0 1;
    (s.ctx 0 0).cmd = some k ∧ s.gateSays 0 (opnd (s.opsNow 0 0 k) 3) = some .ok ∧ (s.core 0).exec_ = none ∧
    s.scan 0 = some 0 ∧ (s.core 0).maint = false ∧ (s.core 0).retire = none ∧ s.awake 0 = true := by decide +kernel
theorem witness_SealsAgree : ([] : List W32).length = (blocksOf []).length := rfl
theorem witness_IterationOrder : (∀ c ∈ [2, 3], 0 < c) ∧ iterCount [2, 3] = 6 ∧ [1, 2].length = 2 := by decide

/-- Partition 0 is BUILT with unit 0, client 0 is resident, and control ring 0 of die 0 serves it with one packet. -/
def atRing (bs : Bytes) (x : Core := {}) : State :=
  { ((((onCore x).setReg 0x4000 0 1).setReg 0x4000 1 1).setReg 0x4000 3 0).setReg 0x5830 0 (2 ^ 63) with
    intakes := [(0, { fifo := [intakeWord true bs] })] }
/-- The header of a request of a TYPE for context 0 of core 0. -/
def request (ty args : Nat) (more : Nat := 0) : Bytes := natLe 8 (ty * 2 ^ 56 + args) ++ natLe more 0
/-- Core 0 with context 0 in a state. -/
def ctxIn (st : CtxState) : Core := { ctxs := [(0, { state := st })] }

theorem witness_IntakeRowsComplete_load :
    let h := (atRing (request 1 0 32)).heads 0 0;
    h.2 = .good (request 1 0 32) ∧ rqType (request 1 0 32) = 1 ∧ h.1.serves 0 0 0 0 = true ∧
    h.1.loadRefusals 0 (h.1.ctxOf 0 0 0 0).state (leNat (sliceZ (request 1 0 32) 8 32)) = [] := by decide +kernel
theorem witness_IntakeRowsComplete_start :
    let h := (atRing (request 2 0) (ctxIn .ready)).heads 0 0;
    h.2 = .good (request 2 0) ∧ h.1.presented 0 = true ∧ h.1.serves 0 0 0 0 = true ∧
    (h.1.ctxOf 0 0 0 0).state = .ready ∧ (h.1.startRun 0 0).2 = .ok := by decide +kernel
theorem witness_IntakeRowsComplete_busy :
    let h := (atRing (request 2 0) (ctxIn .running)).heads 0 0;
    h.2 = .good (request 2 0) ∧ h.1.presented 0 = true ∧ h.1.answers 0 0 = true ∧ (h.1.ctxOf 0 0 0 0).state = .running := by
  decide +kernel
theorem witness_IntakeRowsComplete_abort :
    let h := (atRing (request 3 0) (ctxIn .running)).heads 0 0;
    h.2 = .good (request 3 0) ∧ h.1.presented 0 = true ∧ h.1.savedOf 0 0 0 0 = none ∧
    abortReply (h.1.ctxOf 0 0 0 0) 0 = .aborted := by decide +kernel
theorem witness_IntakeRowsComplete_patch :
    let b := request 4 (63 * 2 ^ 18 + 2 ^ 11) 8; let h := (atRing b (ctxIn .done)).heads 0 0;
    h.2 = .good b ∧ h.1.presented 0 = true ∧ bit (rqArgs b) 0 = false ∧
    fld (rqArgs b) 23 18 + fld (rqArgs b) 17 11 = 64 ∧ (h.1.ctxOf 0 0 0 0).state = .done := by decide +kernel
theorem witness_IntakeRowsComplete_unload :
    let h := (atRing (request 5 0) (ctxIn .ready)).heads 0 0;
    h.2 = .good (request 5 0) ∧ h.1.presented 0 = true ∧ (h.1.ctxOf 0 0 0 0).state = .ready := by decide +kernel

/-- The header of an image of one command, and that command: a closing BARRIER. -/
def header1 : Nat := 1 <<< 171 + 2 ^ 16 + 2 + 1788947009 <<< 224
def closing : Nat := 2 ^ 39 + 2 ^ 8 + 0x48
theorem witness_LoadAndCommandEndRowsComplete_header :
    let l : LoadReq := { srcVa := 0, region := 0, start := false, got := [(0, natLe 32 header1)] };
    let s := onCore { ctxs := [(0, { state := .loading, load := some l })] };
    (s.ctx 0 0).load = some l ∧ l.ended = true ∧ l.bad = none ∧ l.header = none ∧
    s.headerRefusals 0 0 (leNat (l.bytesFrom 0)) 0 = [] := by decide +kernel
theorem witness_LoadAndCommandEndRowsComplete_image :
    let l : LoadReq := { srcVa := 0, region := 0, start := false, header := some header1, got := [(32, natLe 32 closing)] };
    let s := onCore { ctxs := [(0, { state := .loading, load := some l })] };
    (s.ctx 0 0).load = some l ∧ l.ended = true ∧ l.bad = none ∧ l.header = some header1 ∧
    imageCrc header1 (l.bytesFrom 32) = true ∧
    s.validate 0 0 0 0 (header1 :: (chunks 32 (l.bytesFrom 32)).map leNat) = [] ∧
    s.armClash 0 (armRecords [header1, closing]) = false := by decide +kernel
theorem witness_LoadAndCommandEndRowsComplete_command :
    let k := { cmdOf 0x48 with phase := .last }; let s := working k;
    (s.ctx 0 0).cmd = some k ∧ (s.ctx 0 0).state = .running ∧ (s.core 0).streamsOf 0 = [] ∧ (s.core 0).maint = false ∧
    (s.core 0).exec_ = some 0 ∧ k.outcome = .ok := by decide +kernel
theorem witness_LoadAndCommandEndRowsComplete_preemption :
    let s := onCore { ctxs := [(0, { state := .waiting, preempt := true })] };
    s.canPreempt 0 0 = true ∧ (s.core 0).kiln = false ∧ (s.core 0).retire = none := by decide +kernel

/-- Partition 0 with a key in the collector, whose one report has its arbitration due. -/
theorem witness_GateRowsComplete_arbitration :
    let k : MashKey := { step := 0, mash := 0, count := 1, reports := [{ core := 0, ctx := 1, pos := 0 }], stage := 1 };
    let s := { ((State.reset.setReg 0x4000 0 1).setReg 0x4000 1 3) with gates := [(0, { keys := [k] })] };
    (s.gate 0).key 0 0 = some k ∧ distinct (k.reports.map fun r => s.arbTarget 0 r.core) = true ∧
    s.arbTarget 0 0 ≠ 0 ∧
    (k.reports.all fun r => s.presented (s.arbTarget 0 r.core) &&
      (s.ctxOf (s.arbTarget 0 r.core) (s.reg 0x9400 9) 0 r.client).state == .empty &&
      (s.resident 0 != r.client || (s.ctx (s.arbTarget 0 r.core) (s.reg 0x9400 9)).state == .empty)) = true := by
  decide +kernel
theorem witness_GateRowsComplete_timeout :
    let s := (State.reset.setReg 0x9400 6 5000).setReg 0x9400 2 1; s.reg 0x9400 6 ≠ 0 ∧ s.gState 0 = 1 := by decide +kernel

/-- A copy whose last write is acknowledged. -/
def copied (kind : CopyKind) (stage : Nat) : Copy :=
  { id := 0, kind := kind, entry := 0, page := 0, lg := 0, client := 0, src := 0, seals := none, tier := 0, frame := 0,
    stage := stage }
theorem witness_PourRowsComplete_flush :
    let x := { copied .flush 2 with src := 0x200000 };
    let s := ({ walkState with pours := [(0, { copies := [x] })] } : State).setReg 0x9500 6 16384;
    (s.pour 0).due = [] ∧ ((s.pour 0).copies.find? fun e => e.kind == .flush) = some x ∧
    (s.copyRun 0 x).2.bad = none ∧ (s.copyRun 0 x).2.stage = 2 ∧
    let t := s.setCopy 0 x; let a := t.setDevHalf 0 (withLast (t.devHalf 0) .ok);
    let c := (a.dropCopy 0 0).setPage 0 ⟨0, 0, 0, 0, 0, 0, 0, false⟩;
    (c.zeroVa 0 0 0x200000 (framePieces (c.frameBytes 0) false)).2 = none := by decide +kernel
theorem witness_PourRowsComplete_move :
    let x := copied .spill 1; let s := { State.reset with pours := [(0, { copies := [x] })] };
    ((s.pour 0).copies.find? fun e => e.kind != .flush && e.stage != 2) = some x ∧ (s.copyRun 0 x).2.bad = none ∧
    (s.copyRun 0 x).2.stage = 2 ∧
    (((s.copyRun 0 x).1.setCopy 0 (s.copyRun 0 x).2).bump 32 0x8600 1 1).reg 0x9500 1 ≠ 2 := by decide +kernel
theorem witness_PourRowsComplete_release :
    let s := State.reset.setReg 0x9500 1 1;
    s.reg 0x9500 1 = 1 ∧ ((s.pour 0).copies.any fun e => e.kind == .flush) = false ∧ (s.pour 0).walk = none ∧
    (s.pour 0).due = [] ∧ (s.pour 0).quiet = true ∧ (s.pour 0).bad = none := by decide +kernel
theorem witness_PourRowsComplete_walked :
    let w : Walk := { todo := [] };
    let s := ({ walkState with pours := [(0, { walk := some w })] } : State).setReg 0x9500 1 1 |>.setReg 0x9500 5 0x20000;
    s.reg 0x9500 1 = 1 ∧ ((s.pour 0).copies.any fun e => e.kind == .flush) = false ∧ (s.pour 0).walk = some w ∧
    (s.pour 0).due = [] ∧ (s.pour 0).quiet = true ∧ (s.pour 0).bad = none ∧ (s.walkAll 0 w.blocks w.todo).2.todo = [] ∧
    ((s.setPour 0 { s.pour 0 with walk := none }).writeLocal .pour 0x20000 (natLe 16 0)).2 = .ok := by decide +kernel

/-- A contribution of die 0 to block 0 of device 0, of 32 zero bytes; the plan's one entry covers that block. -/
def contrib : Contrib :=
  { dest := 0, payload := List.replicate 32 0#8, header := 2324772522 * 2 ^ 32, part := some 0, sender := .stream 0 0 0 }
def planned (x : Mx) : State := { State.reset.setReg 0x5000 2 0 with plan := [2 ^ 168 + 1], mxs := [(0, x)] }
theorem witness_LauterRowsComplete_accum :
    let s := planned { queue := [contrib], admits := [(0, 0)] }; let u := s.modMx 0 fun k => { k with queue := [] };
    (s.mx 0).queue = [contrib] ∧ cGen contrib.header = u.reg 0x9210 2 ∧ (u.mx 0).failed.contains 0 = false ∧
    u.planFind contrib.dest = some 0 ∧ u.arrivalRefusal 0 contrib (some 0) = none ∧ (u.openBlock 0 0 0).isSome := by
  decide +kernel
theorem witness_LauterRowsComplete_retry :
    let s := { planned { retry := [contrib] } with
      cores := [(0, { streams := [(0, { strm with reqs := [{ wReq with ready := false, acc := true }] })] })] };
    (s.mx 0).retry = [contrib] ∧ contrib.sender = .stream 0 0 0 ∧
    (((s.modMx 0 fun k => { k with retry := [] }).stream 0 0).bind fun y => y.contribReq 0).isSome = true := by
  decide +kernel
theorem witness_LauterRowsComplete_timeout :
    let x : Block := { entry := 0, since := 0, frames := 1 }; let s := (planned { blocks := [(0, x)] }).setReg 0x9210 3 1;
    SMap.find? 0 (s.mx 0).blocks = some x ∧ s.reg 0x9210 3 ≠ 0 := by decide +kernel

/-- Partition 0 is BUILT with unit 0; client 0 is resident; clients 0 and 1 have slices. -/
def sharing (x : Core := {}) : State :=
  (((((onCore x).setReg 0x4000 0 1).setReg 0x4000 1 1).setReg 0x4000 3 0).setReg 0x4100 0 10).setReg 0x4100 1 10
theorem witness_PartitionRowsComplete_fill :
    let s := { State.reset with filling := [63 * 256 + 175] }; s.filling.contains (63 * 256 + 175) = true := by decide
theorem witness_PartitionRowsComplete_sliceEnd :
    let v : Saved := { part := 0, client := 1, core := 0, ctx := 0, st := { state := .preempted, client := 1 }, streams := [],
                       rings := [], bytes := [], poison := [], recipe := [], prog := [], carry := [], kiln := false };
    let s := { sharing with saved := [v] };
    s.built 0 = true ∧ (s.part 0).closing = false ∧ (s.part 0).switch = none ∧ s.resident 0 < 8 ∧
    (s.choose 0 (after (s.resident 0))).2 = some 1 := by decide +kernel
theorem witness_PartitionRowsComplete_switch :
    let w : Switch := { dest := 1, since := 0, overruns := [], wasOver := false };
    let s := { sharing with parts := [(0, { switch := some w })] };
    (s.part 0).switch = some w ∧ s.liveCtxs 0 = [] := by decide +kernel
/-- A shadow that waits for its target. -/
def shadow0 : Shadow :=
  { client := 0, core := 0, ctx := 0, pos := 0, entry := 1, tag := 1, step := 0, digest := 7, run := 0, seed := 0, params := [],
    recipe := [(0, BitVec.ofNat 256 header1), (1, BitVec.ofNat 256 closing)], prog := [], base := 0, progBase := 0, count := 2,
    progWords := 0, since := 0 }
theorem witness_PartitionRowsComplete_shadow :
    let s := { sharing with shadows := [(0, [shadow0])] }; let n := s.shadowTarget 0 shadow0; let h := s.reg 0x9400 9;
    (s.shadowList 0)[0]? = some shadow0 ∧ s.presented n = true ∧ (s.ctxOf n h 0 0).state = .empty ∧
    (s.ctx n h).state = .empty ∧ (s.core n).kiln = false ∧ (s.core n).maint = false ∧ s.reg 0x9400 0xA + 2 ≤ 1024 ∧
    cmdRange [header1, closing] = some (1, 1) := by decide +kernel
theorem witness_PartitionRowsComplete_shadowResult :
    let w := { shadow0 with result := some (some 7) }; let s := { sharing with shadows := [(0, [w])] };
    (s.shadowList 0)[0]? = some w ∧ w.result = some (some w.digest) ∧ w.tie = false := by decide +kernel

/-- The device in P7. -/
def inP7 : State := State.reset.setReg 0x2030 0 7
theorem witness_KilnRowsComplete_due :
    inP7.inP7 = true ∧ inP7.dieUp 63 = true ∧ inP7.posRetired 63 271 = false ∧ inP7.kiln.slices = [] := by decide +kernel
theorem witness_KilnRowsComplete_force :
    let s := { inP7 with kiln := { due := [(0, kilnCore, 5)] } };
    s.kiln.due.contains (0, kilnCore, 5) = true ∧ s.sliceRoom 0 = true ∧ s.quiescing = false := by decide +kernel
theorem witness_KilnRowsComplete_slice :
    let s := { inP7 with kiln := { due := [(0, kilnCore, 16)] } };
    s.sliceRoom 0 = true ∧ s.coreAtPos 0 16 = none := by decide +kernel
theorem witness_KilnRowsComplete_sliceDone :
    let s := { inP7 with kiln := { slices := [(0, 16)] } };
    s.inPhase 5 = false ∧ s.kiln.slices.contains (0, 16) = true := by decide +kernel
theorem witness_KilnRowsComplete_segment :
    let s := { inP7 with kiln := { due := [(63, kilnSegment, 175)], spans := [(63, 175)] } };
    s.inPhase 5 = false ∧ s.inP7 = true ∧ s.quiescing = false ∧ s.dieUp 63 = true ∧
    s.kiln.due.contains (63, kilnSegment, 175) = true ∧ s.segOwner 63 175 = 0 ∧
    ((s.undue 63 kilnSegment 175).sweepSegment 63 175).reg (0x3180 + 63) 175 ≠ 1 ∧
    s.kiln.spans.contains (63, 175) = true := by decide +kernel
theorem witness_KilnRowsComplete_checks :
    let s := State.reset.setReg 0x2030 0 5;
    5 ≤ s.phase ∧ s.fencedDie 97 = false ∧ s.inPhase 5 = true ∧ s.kiln.badSlices.contains (15, 67) = false := by
  decide +kernel

/-- The device in P7 with a reference, and a writer with every role. -/
def live : State := inP7.setReg 0x2000 1 1
def boss : Origin := ⟨1, 2, 3, 4, 255⟩
theorem witness_DictRowsComplete_done :
    dictRow (.gateStepWrite boss 0 5) = some (boss, 0x9400, 1, natLe 4 5) ∧ 3 ≤ live.phase ∧
    live.writeCheck boss 0x9400 1 (natLe 4 5) = .ok ∧
    live.applyWrite boss 0x9400 1 (natLe 4 5) = doneNow (live.writeGateStep 0 5) := by decide +kernel
theorem witness_DictRowsComplete_later :
    dictRow (.invalidate boss 0 0 0) = some (boss, 0x3900, 0, natLe 8 0) ∧
    live.writeCheck boss 0x3900 0 (natLe 8 0) = .ok ∧
    (match (live.applyWrite boss 0x3900 0 (natLe 8 0)).2 with | .later _ _ => true | _ => false) = true := by decide +kernel
theorem witness_DictRowsComplete_boot :
    dictRow (.bootReset boss) = some (boss, 0x2030, 1, [1#8]) ∧ live.writeCheck boss 0x2030 1 [1#8] = .ok := by
  decide +kernel
theorem witness_RefusedWriteOnlyNotes :
    dictRow (.gateStepWrite ⟨1, 2, 3, 4, 0⟩ 0 5) = some (⟨1, 2, 3, 4, 0⟩, 0x9400, 1, natLe 4 5) ∧ 3 ≤ live.phase ∧
    live.writeCheck ⟨1, 2, 3, 4, 0⟩ 0x9400 1 (natLe 4 5) = .accessDenied := by decide +kernel
theorem witness_LittleEndianRoundTrip : 65535 < 256 ^ 2 := by decide
theorem witness_RecordFrame :
    State.reset.reg 0x1100 3 ≠ 1 ∧ ({ kind := 0, origin := kd, index := 0, sub := 0 } : AuditRec).status.sticky = false := by
  decide +kernel
theorem witness_StickyBitsStay :
    (255 < 256 ∧ bit ((State.reset.setReg 0x1100 0x10 (2 ^ 255)).reg 0x1100 0x10) 255 = true) := by decide +kernel

theorem witness_MemoryRowsComplete_scrub :
    live.presented 0 = true ∧ live.fused 0 = false ∧ live.fencedDie 0 = false ∧
    live.reg 0x3180 (tunOffset 0 0 / 0x400000) ≠ 2 ∧
    (live.lpEncode 15 7 (32 * SMap.get 0 live.lpWords 127)).isSome = true := by decide +kernel
theorem witness_MemoryRowsComplete_maintenance :
    let r : MaintRead := ⟨0, 8, 384, 1, 8, 0, false⟩; let s := onCore { maint := true };
    s.fused 0 = false ∧ s.inMaint 0 = true ∧ maintOk r = true ∧ maintOk { r with rows := 1, cols := 384 } = true := by
  decide +kernel
theorem witness_MemoryRowsComplete_maintElems :
    let r : MaintRead := ⟨0, 8, 1, 1, 0, 0, false⟩; let s := onCore { maint := true };
    s.inMaint 0 = true ∧ maintOk r = true ∧ (s.maintElems 0 r.elemBytes (maintOffsets r)).2.1 = .ok := by decide +kernel
theorem witness_MemoryRowsComplete_refresh : (4 : Fin 6).val ≠ 5 := by decide
theorem witness_MemoryRowsComplete_training :
    let s := State.reset.setReg 0x2030 0 4;
    s.inPhase 4 = true ∧ s.power.trained = false ∧ s.power.fenced = [] := by decide +kernel
theorem witness_MemoryRowsComplete_zeroFill :
    let s := { State.reset.setReg 0x2030 0 4 with power := { trained := true } };
    s.inPhase 4 = true ∧ s.power.trained = true := by decide +kernel
theorem witness_MemoryRowsComplete_close :
    let s := State.reset.setReg (0x3B00 + 4095 / 256) 255 (2 ^ 225);
    winState (s.win 4095) = 2 ∧ s.closeDone 4095 = true := by decide +kernel
theorem witness_WritesAdvanceGenerations :
    ([0#8, 0#8] : Bytes) ≠ [] ∧ ∀ x, 65535 ≤ x → x < 65535 + ([0#8, 0#8] : Bytes).length → place x = .lpddr := by
  refine ⟨by decide, fun x h g => ?_⟩
  have : x = 65535 ∨ x = 65536 := by simp at g; omega
  rcases this with rfl | rfl <;> decide +kernel
theorem witness_PoisonIsNotDelivered :
    (∃ w ∈ wordsOf 100 32, ({ State.reset with poison := [96] } : State).poisoned w = true) ∧
    ∀ w ∈ wordsOf 100 32, State.reset.poisoned w = false ∧ SMap.get 0 State.reset.flaws w = 0 := by
  exact ⟨⟨96, by decide +kernel, by decide +kernel⟩, by decide +kernel⟩
/-- A channel of which the next read meets link errors three times. -/
theorem witness_PoisonIsNotDelivered_link :
    let k := (State.reset.lpChannels 0 32).headD 0; let s := { State.reset with linkErrs := [(k, 3, 3)] };
    place 0 = .lpddr ∧ s.lpChannels 0 32 = [k] ∧ SMap.find? k s.linkErrs = some (3, 3) ∧ s.reg 0x1100 3 ≠ 1 := by
  decide +kernel
theorem witness_LpddrDecodeIsExact_flipped :
    let s := { State.reset with flaws := [(32, 2 ^ 271)] }; s.poisoned 32 = false ∧ s.flawOf 32 = 1 := by decide +kernel
theorem witness_LpddrDecodeIsExact : 0 < State.reset.lpUsable ∧ State.reset.lpUsable - 1 < State.reset.lpUsable := by
  decide +kernel
theorem witness_BarrierCounts_object :
    (State.reset.barrier 63 31).arrived + 1 ≠ (State.reset.barrier 63 31).expect ∧
    ((withBar State.reset).barrier 0 3).arrived + 1 = ((withBar State.reset).barrier 0 3).expect := by decide +kernel
theorem witness_BarrierCounts_wait :
    let b : Barrier := { phase := 32766 }; b.phase = (65535 + 32767) % 65536 ∧
    b.phase = (65534 + 32768) % 65536 := by decide
theorem witness_RingCounts :
    (atGrist .take strm (ring1 0)).ring 0 0 = some (ring1 0) ∧ (ring1 0).tail < 65536 ∧ (ring1 0).head < 65536 ∧
    (ring1 0).held < 65535 ∧ 0 < (ring1 0).held := by decide +kernel

/-- A use of a number that first makes the kernel compute it. -/
def forced {α : Type} (r : Nat) (f : Nat → α) : α := Nat.rec (f 0) (fun n _ => f (n + 1)) r
/-- The CRC register after bytes, computed byte by byte. -/
def crcFast (poly : Nat) : Bytes → Nat → Nat
  | [], r => r
  | b :: t, r => forced (crcBit poly 8 (r ^^^ b.toNat)) (crcFast poly t)
theorem crcFast_eq (poly : Nat) (bs : Bytes) (r : Nat) : crcFold poly r bs = crcFast poly bs r := by
  induction bs generalizing r with
  | nil => rfl
  | cons b t ih =>
    have e (f : Nat → Nat) (n : Nat) : forced n f = f n := by cases n <;> rfl
    simp only [crcFast, e, ← ih]; rfl
theorem crcOk_fast (f : Nat) : crcOk f = (fld f 2047 2016 ==
    (BitVec.ofNat 32 (crcFast 0xEDB88320 (natLe 252 (f % 2 ^ 2016)) 0xFFFFFFFF ^^^ 0xFFFFFFFF)).toNat) := by
  rw [crcOk, crc32, crcFast_eq]
/-- The device with port 0 in a state. -/
def atPort (st : Nat) (x : Port := {}) : State := { (live.setReg 0x5020 0 st).setReg 0x5000 0 0 with ports := [(0, x)] }
theorem witness_LinkRowsComplete_flit :
    let f := 2 ^ 31 + 2 ^ 2016 * 1064686569; let s := atPort 5; let u := s.takeAck 0 f;
    s.portState 0 = 5 ∧ crcOk f = true ∧ fld f 7 0 = 0 ∧ fld f 32 31 = 1 ∧ u.portState 0 = 5 ∧
    fld f 63 52 = (u.port 0).rxNext ∧ (u.takePayload 0 f).portState 0 = 5 := by
  simp only [crcOk_fast]; decide +kernel
theorem witness_LinkRowsComplete_retry :
    let s := atPort 5 { retry := [⟨0, 0, true, true, []⟩], resends := 14 };
    s.portState 0 = 5 ∧ (s.port 0).retry ≠ [] ∧ (s.port 0).resends < 15 := by decide +kernel
theorem witness_LinkRowsComplete_map :
    let f := 2 ^ 187 + 2 ^ 194 * 255 + 2 ^ 31 * 3 + 2 ^ 2016 * 3046650251; let s := atPort 3 { locked := 255 };
    let u := (s.setPort 0 { s.port 0 with peerMask := some (frReport f) }).reserveSpares 0;
    frameOk f 1 = true ∧ (atPort 5).portState 0 = 5 ∧ s.portState 0 ≠ 5 ∧ s.mapping 0 = true ∧
    ((u.port 0).locked &&& (frReport f).1) % 256 = 255 := by
  simp only [frameOk, crcOk_fast]; decide +kernel
theorem witness_LinkRowsComplete_config :
    let f := 2 ^ 188 + 2 ^ 239 + 2 ^ 231 + 2 ^ 31 * 3 + 2 ^ 2016 * 4003734587; let s := atPort 4 { cfgSent := true };
    frameOk f 2 = true ∧ s.portState 0 ≠ 5 ∧ s.configuring 0 = true ∧ (s.port 0).cfgGot = none ∧
    (s.port 0).repair = false ∧ frDevice f ≠ s.ownId ∧ frLevel f ≠ 0 := by
  simp only [frameOk, crcOk_fast]; decide +kernel
theorem witness_LinkRowsComplete_done :
    let f := 2 ^ 187 * 3 + 2 ^ 31 * 3 + 2 ^ 2016 * 2058323662; let s := atPort 4 { cfgSent := true };
    frameOk f 3 = true ∧ s.portState 0 ≠ 5 ∧ s.configuring 0 = true := by
  simp only [frameOk, crcOk_fast]; decide +kernel
theorem witness_LinkRowsComplete_states :
    (atPort 1).portState 0 = 1 ∧ (atPort 2).portState 0 = 2 ∧ ((atPort 2).port 0).spare = false ∧
    ((atPort 3 { paused := true }).port 0).paused = true ∧ (atPort 6).portState 0 = 6 ∧
    ((atPort 6).port 0).paused = false := by
  decide +kernel
theorem witness_DisabledPortsStay :
    (atPort 0).events = [] ∧ (atPort 0).portState 0 = 0 ∧ ((atPort 0).port 0).paused = false := by decide +kernel

/-- A transaction from device 1 stands first at link die 0; window 0 has the given descriptor. -/
def inbound (op addr : Nat) (win : Nat := 2 ^ 131 + 2 ^ 170 + 2 ^ 171 + 2 ^ 191 + 2 ^ 224) (aux : Nat := 0) : State × Txn :=
  let t : Txn := { op := op, dest := 0, src := 1, hops := 1, addr := addr, len := 32, aux := aux, data := List.replicate 32 1#8 }
  ({ (((live.setReg 0x3B00 0 win).setReg 0x4000 0 1).setReg 0x4000 1 1).setReg 0x4100 0 10 with lxs := [(0, { inq := [t] })] }, t)
theorem witness_TransactionRowsComplete_memory :
    let e := inbound 1 4064; let s := e.1; let t := e.2; let u := (s.setLx 0 { s.lx 0 with inq := [] }).freeBufs t;
    (s.lx 0).inq = [t] ∧ s.txnHeld 0 = false ∧ (u.admitTxn 0 t t.len .write) = (u, .ok) ∧
    (u.admitTxn 0 t t.len .read) = (u, .ok) ∧ inWindowMem t.addr = true ∧ u.inSaveArea t.addr = false ∧
    (u.writeLocal .engine t.addr t.data).2 = .ok ∧ (u.readLocal t.addr t.len).2.1 = .ok := by decide +kernel
theorem witness_TransactionRowsComplete_arrive :
    let e := inbound 4 0x13000000300 (2 ^ 96 * 0x13000000 + 2 ^ 131 + 2 ^ 172 + 2 ^ 191 + 2 ^ 224); let s := e.1;
    let t := e.2;
    let u := (s.setLx 0 { s.lx 0 with inq := [] }).freeBufs t;
    t.op = 4 ∧ place t.addr = .arrival 0 3 0 ∧ u.admitTxn 0 t 32 .arrive = (u, .ok) ∧
    u.fused 0 = false := by decide +kernel
theorem witness_TransactionRowsComplete_vote :
    let e := inbound 5 0 0 1; let u := (e.1.setLx 0 { e.1.lx 0 with inq := [] }).freeBufs e.2;
    e.2.op = 5 ∧ u.built 0 = true ∧ fld e.2.aux 1 0 = 1 := by decide +kernel
/-- A table row that covers no window descriptor. -/
def far (e : Entry) : Bool := decide (0x3B10 ≤ e.base) || decide (e.base + e.span ≤ 0x3B00)
/-- No table row but that of the window descriptors covers them, so each is 0 by default. -/
theorem win_default (k : Nat) (h : 0x3B0000 ≤ k) (h' : k < 0x3B1000) : dictDefault k = 0 := by
  have hf (l : List Entry) (q : Entry → Bool) (hq : ∀ e, far e = true → q e = false) :
      l.find? q = (l.filter fun e => !far e).find? q := by
    induction l with
    | nil => rfl
    | cons e t ih => cases hx : far e <;> simp [List.find?_cons, hx, hq, ih]
  have hd : (dictTable.filter fun e => !far e).map Entry.dflt = [cst 0] := by
    set_option maxRecDepth 100000 in rfl
  unfold dictDefault findEntry
  rw [hf _ _ fun e he => by
    simp only [far, Bool.or_eq_true, decide_eq_true_eq] at he
    simp only [Bool.and_eq_false_iff, decide_eq_false_iff_not]
    omega]
  split
  next e he =>
    have hm := List.mem_map_of_mem (f := Entry.dflt) (List.mem_of_find?_eq_some he)
    rw [hd, List.mem_singleton] at hm
    rw [hm]; rfl
  next => rfl
/-- A SHUT window 0 that device 1 controls, and the transaction that opens it. -/
def opens : State :=
  { dict := [(rk 0x3B00 0, 2 ^ 131 + 2 ^ 170 + 2 ^ 191 + 2 ^ 95 + 2 ^ 78), (rk 0x4000 0, 1), (rk 0x4000 1, 1),
             (rk 0x4100 0, 10)] }
def opener : Txn := { op := 6, dest := 0, src := 1, hops := 1, addr := 0, len := 0 }
theorem witness_TransactionRowsComplete_winOpen :
    let s := opens.setLx 0 { inq := [opener] }; let u := (s.setLx 0 { s.lx 0 with inq := [] }).freeBufs opener;
    (s.lx 0).inq = [opener] ∧ opener.op = 6 ∧ u.controls opener.src (fld opener.aux 11 0) = true ∧
    (u.openWindow (fld opener.aux 11 0)).2 = .ok := by
  have hw (v : Nat) (h : v < 4096) (h0 : v ≠ 0) : opens.win v = 0 := by
    have hk : rk (0x3B00 + v / 256) (v % 256) = 0x3B0000 + v := by simp [rk]; omega
    rw [State.win, State.reg, hk, win_default _ (by omega) (by omega)]
    simp only [opens, SMap.find?, rk]
    rw [if_neg (by omega), if_neg (by omega), if_neg (by omega), if_neg (by omega)]
    rfl
  have hb : opens.winBad 0 (opens.win 0) = false := by
    rw [State.winBad, Bool.or_eq_false_iff]
    refine ⟨by decide +kernel, ?_⟩
    rw [List.any_eq_false]
    intro v hv
    by_cases h0 : v = 0
    · simp [h0]
    · have : v < 4096 := by simpa [windows] using hv
      simp [hw v this h0, winState, fld]
  have hu : let s := opens.setLx 0 { inq := [opener] }; (s.setLx 0 { s.lx 0 with inq := [] }).freeBufs opener = opens := by
    decide +kernel
  intro s u
  rw [show u = opens from hu]
  refine ⟨by decide +kernel, rfl, by decide +kernel, ?_⟩
  have hs : winState (opens.win 0) = 0 := by decide +kernel
  have hn : SMap.find? 0 opens.winShut = none := rfl
  show (opens.openWindow 0).2 = .ok
  simp only [State.openWindow, hs, hn, hb, Bool.false_eq_true, ite_false, ne_eq, not_true_eq_false]
theorem witness_TransactionRowsComplete_winClose :
    let e := inbound 7 0; let t := e.2; let u := (e.1.setLx 0 { e.1.lx 0 with inq := [] }).freeBufs t;
    t.op = 7 ∧ fld t.aux 11 0 = 0 ∧
    (match (u.closeWindow 0).2 with | .later (.window 0) [] => true | _ => false) = true := by decide +kernel
theorem witness_TransactionRowsComplete_ends :
    (inbound 8 0).2.op = 8 ∧
    (let e := inbound 9 0; let o : Outst := ⟨1, 1, 32, 0, 0, .nobody, false⟩; o.fits e.2 = true ∧
      SMap.find? e.2.txn [(0, o)] = some o) ∧
    (let e := inbound 10 0; let o : Outst := ⟨1, 2, 32, 0, 0, .nobody, false⟩; o.fits e.2 = true) := by decide
/-- A segment that is a save area stands first in an inbound write, and link die 0 waits for a segment under test. -/
theorem witness_TransactionRowsComplete_saveArea :
    let e := inbound 1 0x10000000000 (2 ^ 96 * 0x10000000 + 2 ^ 131 + 2 ^ 170 + 2 ^ 171 + 2 ^ 191 + 2 ^ 224);
    let s := e.1.setReg 0x4300 0 (ownWord 2 0 0); let t := e.2;
    let u := (s.setLx 0 { s.lx 0 with inq := [] }).freeBufs t;
    (s.lx 0).inq = [t] ∧ s.txnHeld 0 = false ∧ u.admitTxn 0 t t.len .write = (u, .ok) ∧ u.inSaveArea t.addr = true := by
  decide +kernel
theorem witness_TransactionRowsComplete_held :
    let s := (inbound 1 0).1.setReg 0x2030 0 4; s.txnHeld 0 = true := by decide +kernel
theorem witness_TransactionRowsComplete_abandon :
    let s := { live with lxs := [(15, { outst := [(4095, ⟨1, 2, 32, 0, 0, .nobody, false⟩)] })] };
    SMap.find? 4095 (s.lx 15).outst = some ⟨1, 2, 32, 0, 0, .nobody, false⟩ := by decide +kernel

/-- Port 0 is up; queue pair 0 is READY, bound to client 0 of partition 0 and to intake ring 0 of die 0; window 1 covers
LPDDR5X for it. -/
def onHost (q : Qp := {}) (x : HPort := {}) : State :=
  { (((live.setReg 0x5800 7 1).setReg 0x5810 0 (2 ^ 226)).setReg 0x5830 0 (2 ^ 63)).setReg 0x3B00 1
      (2 ^ 131 + 2 ^ 170 + 2 ^ 171 + 2 ^ 173 + 2 ^ 224) with qps := [(0, q)], hports := [(0, x)] }
/-- The state in which such a message is served. -/
def taken (k : Nat) (s : State := onHost) : State := (s.rxFrames 0 k).markCe 0 0 true
theorem witness_HostRowsComplete_send :
    onHost.servesRoce 0 0 1 true (.send [1#8]) (taken 1) ∧ (taken 1).ringOf 0 0 = some (0, 0) ∧
    64 ≤ (taken 1).intakeFree 0 0 ∧ ((taken 1).intake 0 0).got = 0 ∧ ((taken 1).intake 0 0).curVoid = false := by
  refine ⟨⟨taken 1, ⟨by decide +kernel, by decide +kernel, rfl⟩, ?_⟩, ?_⟩ <;> decide +kernel
theorem witness_HostRowsComplete_rdma :
    onHost.servesRoce 0 0 1 true (.write 4064 1 [7#8]) (taken 1) ∧
    onHost.servesRoce 0 0 1 true (.read 4064 1 32) (taken 1) ∧
    (taken 1).hostWindow 0 0 1 4064 1 .write = (taken 1, .ok) ∧ ((taken 1).writeLocal .host 4064 [7#8]).2 = .ok ∧
    (taken 1).hostWindow 0 0 1 4064 32 .read = (taken 1, .ok) ∧ ((taken 1).readLocal 4064 32).2.1 = .ok := by
  refine ⟨⟨taken 1, ⟨by decide +kernel, by decide +kernel, rfl⟩, ?_⟩, ⟨taken 1, ⟨by decide +kernel, by decide +kernel, rfl⟩, ?_⟩,
    ?_⟩ <;> decide +kernel
theorem witness_HostRowsComplete_doorbell :
    onHost.servesRoce 0 0 1 true (.write 0x13001008000 0 (natLe 8 (2 ^ 56))) (taken 1) ∧
    ((taken 1).pageWrite 0 0 0x13001008000 (natLe 8 (2 ^ 56))).isSome = true := by
  refine ⟨⟨taken 1, ⟨by decide +kernel, by decide +kernel, rfl⟩, ?_⟩, ?_⟩ <;> decide +kernel
/-- Before the zero-fill has ended a write to LPDDR5X waits, and so does the one behind it. -/
theorem witness_HostRowsComplete_waiting :
    let s := (onHost {} { inq := [(0, .write 4064 1 [7#8])] }).setReg 0x2030 0 4; let v := taken 1 s;
    s.takesRoce 0 0 1 true v ∧ (v.hport 0).inq = [(0, .write 4064 1 [7#8])] ∧
    (v.setHport 0 { v.hport 0 with inq := [(0, .write 4064 1 [7#8]), (0, .write 4096 1 [8#8])] }).rxWaits
      (.write 4064 1 [7#8]) = true := by
  refine ⟨⟨by decide +kernel, by decide +kernel, rfl⟩, ?_⟩; decide +kernel
theorem witness_HostRowsComplete_flowControl :
    onHost.linkUp 0 = true ∧ (onHost.hport 0).xoff = false ∧
    ((onHost {} { xoff := true }).hport 0).xoff = true ∧ (onHost {} { xoff := true }).rxHeld 0 < 0x100000 := by
  decide +kernel
/-- A write and a read of the device that the host has not acknowledged. -/
def sentW : Wqe := { read := false, va := 0, rkey := 0, len := 8, data := [], psn := 0, packets := 1, sent := true, purpose := .other }
def sentR : Wqe := { sentW with read := true }
theorem witness_HostRowsComplete_ack :
    let s := onHost { unacked := [sentW] }; s.takesRoce 0 0 1 false ((s.rxFrames 0 1).markCe 0 0 false) ∧
    (((s.rxFrames 0 1).markCe 0 0 false).qp 0 0).unacked = [sentW] ∧ sentW.read = false ∧ sentW.sent = true ∧
    s.qpState 0 0 = 1 ∧ (s.qp 0 0).unacked.all (fun w => !w.sent) = false := by
  refine ⟨⟨by decide +kernel, by decide +kernel, rfl⟩, ?_⟩; decide +kernel
theorem witness_HostRowsComplete_response :
    let s := onHost { unacked := [sentR] }; s.takesRoce 0 0 1 false ((s.rxFrames 0 1).markCe 0 0 false) ∧
    (((s.rxFrames 0 1).markCe 0 0 false).qp 0 0).unacked = [sentR] ∧ sentR.read = true ∧ sentR.sent = true ∧
    sentR.len = 8 := by
  refine ⟨⟨by decide +kernel, by decide +kernel, rfl⟩, ?_⟩; decide +kernel
theorem witness_HostRowsComplete_retry :
    let s := (onHost { unacked := [sentW] }).setReg 0x5810 0 (2 ^ 226 + 7 * 2 ^ 244 + 7 * 2 ^ 247);
    s.takesRoce 0 0 1 false ((s.rxFrames 0 1).markCe 0 0 false) ∧
    fld (((s.rxFrames 0 1).markCe 0 0 false).qpCtx 0 0) 246 244 = 7 ∧ (s.qp 0 0).retries < fld (s.qpCtx 0 0) 249 247 := by
  refine ⟨⟨by decide +kernel, by decide +kernel, rfl⟩, ?_⟩; decide +kernel
theorem witness_HostRowsComplete_addresses :
    let s := (onHost.setReg 0x5800 1 0xC0A80001).setReg 0x5800 2 0xFE;
    (s.rxFrames 0 1).reg 0x5800 1 = 0xC0A80001 ∧ (s.rxFrames 0 1).ipv6Of 0 = 0xFE * 2 ^ 120 := by decide +kernel
theorem witness_RatesStayInRange :
    onHost.events = [] ∧ 1000000000 ≤ (onHost.qp 0 0).rate ∧ (onHost.qp 0 0).rate ≤ lineRate := by decide +kernel

theorem witness_ReferenceRowsComplete_up :
    live.receiving = true ∧ live.kiln.badLanes.contains 0 = false ∧ live.inPhase 1 = false := by decide +kernel
theorem witness_ReferenceRowsComplete_down :
    let s := (live.setReg 0x2000 0 2).setReg 0x2000 3 4;
    let w := (s.portLost 2).setReg 0x2000 3 (setFld (s.reg 0x2000 3) 2 2 0);
    w.inPhase 1 = false ∧ w.reg 0x2000 0 = 2 ∧ w.reg 0x2000 1 = 1 := by decide +kernel
theorem witness_ReferenceRowsComplete_candidate :
    let s := (live.setReg 0x2000 1 2).setReg 0x2000 3 2;
    s.lockedPorts.contains 1 = true ∧ s.power.counting = none ∧ s.reg 0x2000 1 = 2 ∧ s.power.port = none ∧
    s.candidate = some 1 := by decide +kernel
theorem witness_ReferenceRowsComplete_pll :
    let s := live.modPower fun w => { w with relock := [unitOf (.kd 1)] };
    s.power.relock.contains (unitOf (.kd 1)) = true ∧ s.inPhase 1 = false ∧
    (s.reg 0x2000 1 = 1 ∨ s.power.port.isSome = true) := by decide +kernel
theorem witness_PowerRowsComplete_move :
    ∃ m : OpMove, m.locked = true ∧ SMap.find? 63 (live.modPower fun p => { p with moves := [(63, m)] }).power.moves = some m :=
  ⟨{ src := 1, dst := 2, locked := true }, rfl, rfl⟩
theorem witness_PowerRowsComplete_gate :
    let s := live.setReg 0x2013 63 (2 ^ 15);
    3 ≤ s.phase ∧ bit (s.reg 0x2013 63) 15 = true ∧ s.groupIdle 63 15 = true ∧
    s.power.spent + s.stepCost ⟨63, some 15, 0⟩ ≤ s.reg 0x2020 1 ∧ s.power.volts.length < 9 := by decide +kernel
theorem witness_StartUpRowsComplete_roles : (live.setReg 0x2040 1 1).reg 0x2040 1 = 1 ∧
    (live.modPower fun p => { p with standby := true }).power.standby = true ∧
    (State.reset.modPower fun p => { p with standby := false }).power.standby = false := by
  decide +kernel
theorem witness_StartUpRowsComplete_p5 :
    let s := State.reset.setReg 0x2030 0 5; s.phase = 5 ∧ s.haltedBoot = false := by decide +kernel
theorem witness_StartUpRowsComplete_ramp :
    let s := (State.reset.setReg 0x2030 0 3).modPower fun p => { p with inRange := true };
    s.inPhase 3 = true ∧ s.power.inRange = true ∧ (s.ramping.take 4).contains ((s.ramping.take 4).headD 0) = true := by
  decide +kernel

/-- The generator of the curve as a public key: that of the private key 1 (GB/T 32918.5). -/
def gKey : Bytes := 4#8 :: (natBe 32 sm2gx ++ natBe 32 sm2gy)
/-- The device in P7 with the debug register selected and every scope unlocked. -/
def onDebug (x : Core := {}) : State :=
  { live.setReg 0x7030 2 (2 ^ 15 + 2 ^ 14 + 7 * 2 ^ 11) with dbg := { State.reset.dbg with ir := 0x20 }, cores := [(0, x)] }
theorem witness_TrustAndTapRowsComplete :
    (live.setReg 0x7000 0 2).reg 0x7000 0 = 2 ∧ ({ live.fw with forming := some 5 } : Firmware).forming = some 5 ∧
    live.tapOn = true ∧ onDebug.dbg.ir = 0x20 := by decide +kernel
theorem witness_DebugRunRowsComplete_unlock :
    onDebug.dbgReady 0 ∧ (onDebug.setReg 0x7030 0 1).reg 0x7030 0 ≠ 0 ∧ onDebug.dbg.blocked ≤ onDebug.localNs ∧
    fld 3 47 2 = 0 ∧ fld 3 1 0 ≠ 0 ∧ onDebug.unlocked = true :=
  ⟨⟨by decide +kernel, rfl, rfl, rfl⟩, by decide +kernel⟩
/-- A signature by the key of slot 2 over the unlock message of scope 7, with the secret number 1. -/
def unlockState : State :=
  let s := (live.setReg 0x7020 2 (leNat gKey + 2 ^ 523)).modDbg fun d => { d with ir := 0x20, nonce := natLe 32 9 }
  s.modDbg fun d => { d with sig := (List.range 8).map fun i =>
    (i, BitVec.ofNat 64 (leNat (slice (sm2Sign 1 gKey (s.unlockMsg 2 7) 1) (8 * i) 8))) }
theorem witness_DebugRunRowsComplete_respond :
    let x := 2 * 2 ^ 44 + 7 * 2 ^ 41 + 7;
    fld x 40 3 = 0 ∧ fld x 2 0 = 7 ∧ fld x 47 44 = 2 ∧ fld x 43 41 = 7 ∧ unlockState.unlocks 2 7 = true := by decide +kernel
theorem witness_DebugRunRowsComplete_halt :
    let s := onDebug { ctxs := [(0, { state := .running }), (1, { state := .waiting }), (2, { state := .running, halted := true })] };
    s.dbgReady scopeRun ∧ fld 0 47 16 = 0 ∧ s.coreGone 0 = none ∧ (s.dbgCtx 0 0).halted = false ∧
    (s.dbgCtx 0 0).state = .running ∧ s.dbgSaved 0 1 = none ∧ (s.ctx 0 1).state = .waiting ∧ (s.dbgCtx 0 1).halted = false ∧
    (s.dbgCtx 0 2).halted = true :=
  ⟨⟨by decide +kernel, rfl, rfl, by decide +kernel⟩, by decide +kernel⟩
theorem witness_DebugRunRowsComplete_break :
    let x := 15 * 2 ^ 44 + 2 ^ 42; (fld x 43 42 = 1 ∨ fld x 43 42 = 2) ∧ fld x 32 14 = 0 ∧ bit x 41 = false ∧
    fld (15 * 2 ^ 44) 43 0 = 0 ∧ fld (33 * 2 ^ 16) 47 24 = 0 ∧ fld (33 * 2 ^ 16) 23 16 ≤ 33 := by decide
theorem witness_DebugRunRowsComplete_effect :
    let s := onCore { ctxs := [(0, { state := .running, haltReq := true })] };
    (s.ctx 0 0).state = .running ∧ (s.ctx 0 0).cmd = none ∧ (s.ctx 0 0).halted = false ∧ s.haltDue 0 0 = true ∧
    s.dbg.busy = none ∧ (s.modDbg fun d => { d with busy := some (5, .halt 0 0) }).dbg.busy = some (5, .halt 0 0) := by
  decide +kernel
theorem witness_DebugDataRowsComplete_memory :
    let x := tunBase 0; let u := onDebug.dbgScan;
    onDebug.dbgReady scopeRead ∧ onDebug.dbgReady scopeWrite ∧ x < 2 ^ 47 ∧ x % 8 = 0 ∧ place x = .tun 0 0 ∧
    u.inSaveArea x = false ∧ u.accessWaits x 8 = false ∧ (u.readLocal x 8).2.1 = .ok ∧
    (u.writeLocal .debug x (natLe 8 7)).2 = .ok :=
  ⟨⟨by decide +kernel, rfl, rfl, by decide +kernel⟩, ⟨by decide +kernel, rfl, rfl, by decide +kernel⟩, by decide +kernel⟩
theorem witness_DebugDataRowsComplete_dict :
    let u := onDebug.dbgScan; let x := 0x1000 * 2 ^ 32 + 3 * 2 ^ 24; let y := 0x9400 * 2 ^ 32 + 6 * 2 ^ 24 + 4;
    fld x 15 0 = 0 ∧ (u.dictRead onDebug.tapRoles (fld x 47 32) (fld x 31 24)).1 = .ok ∧ fld (5 * 2 ^ 16) 47 24 = 0 ∧
    fld y 23 16 = 0 ∧ fld y 47 32 ≠ 0x2030 ∧
    (u.writeEntry u.tapWriter (fld y 47 32) (fld y 31 24) (u.staged (fld y 15 0)) (.tap 1)).2 = some .ok := by
  decide +kernel

/-- A host's tuple on port 0, and the state that takes Caddy messages there. -/
def tuple0 : Tuple := ⟨0, 1, 4000⟩
def onCaddy (l : List Session) : State :=
  { ((live.setReg 0x5800 7 1).setReg 0x7080 0 15).setReg 0x7020 2 (leNat gKey + 2 ^ 523) with sessions := l }
/-- A request of a type with a payload, its MAC by a key, or zeros. -/
def message (ty seq : Nat) (payload : Bytes) (key : Bytes := [1#8]) : Bytes :=
  caddyMacd key (caddyHeader ty false 0 1 seq payload.length) payload
def openSes : Session := { id := 1, tuple := tuple0, isOpen := true, slot := 2, roles := 0xFF, key := [1#8] }
theorem witness_SessionRowsComplete_hello :
    let m := caddyHeader 1 false 0 0 0 32 ++ List.replicate 64 0#8; let s := onCaddy [];
    s.caddyOn tuple0 = true ∧ msgType m = 1 ∧ bit ((s.rxFrames 0 1).reg 0x7080 0) 0 = true ∧ 48 ≤ m.length ∧
    msgMac m = noMac ∧
    badHeader 1 m = false ∧ msgSession m = 0 ∧ (msgPayload m).length = 32 := by decide +kernel
/-- A half-open session, and its OPEN with a signature by the key of slot 2. -/
def halfSes : Session := { id := 1, tuple := tuple0, isOpen := false, nonces := List.replicate 64 7#8 }
def openReq : Bytes :=
  caddyHeader 2 false 0 1 0 72 ++ ([2#8] ++ List.replicate 7 0#8 ++ sm2Sign 1 gKey (halfSes.openMsg 2 0) 1) ++ noMac
theorem witness_SessionRowsComplete_open :
    let s := onCaddy [halfSes]; let u := s.rxFrames 0 1; let p := msgPayload openReq;
    s.caddyOn tuple0 = true ∧ msgType openReq = 2 ∧ u.session (msgSession openReq) = some halfSes ∧ 48 ≤ openReq.length ∧
    msgMac openReq = noMac ∧ badHeader 2 openReq = false ∧ p.length = 72 ∧ leNat (sliceZ p 0 1) = 2 ∧
    leNat (sliceZ p 1 1) = 0 ∧ leNat (slice p 2 6) = 0 ∧ u.openRefused 2 (msgSeq openReq) false = none ∧
    u.openValid halfSes 2 0 (slice p 8 64) = true := by decide +kernel
theorem witness_SessionRowsComplete_idle :
    ((onCaddy [openSes]).sessions.any fun x => x.id == 1 && x.isOpen) = true := by decide +kernel
theorem witness_RequestRowsComplete_close :
    (onCaddy [openSes]).takesRequest tuple0 (message 3 1 []) 3 openSes ∧ msgPayload (message 3 1 []) = [] := by
  unfold State.takesRequest; decide +kernel
theorem witness_RequestRowsComplete_read :
    let m := message 0x10 1 (natLe 8 1 ++ natLe 8 (0x1000 + 3 * 2 ^ 16)); let p := msgPayload m;
    (onCaddy [openSes]).takesRequest tuple0 m 0x10 openSes ∧ badRead p = false ∧ itemCount p = 1 ∧
    (((onCaddy [openSes]).rxFrames 0 1).dictRead 0xFF (itemIndex (slice p 8 8)) (itemSub (slice p 8 8))).1 = .ok := by
  unfold State.takesRequest; decide +kernel
theorem witness_RequestRowsComplete_write :
    let m := message 0x11 1 (natLe 8 1 ++ natLe 8 (0x9400 + 6 * 2 ^ 16 + 4 * 2 ^ 32) ++ natLe 8 9); let p := msgPayload m;
    (onCaddy [openSes]).takesRequest tuple0 m 0x11 openSes ∧ badOpening p = false ∧
    writeItemsOk (itemCount p) (p.drop 8) = true := by
  unfold State.takesRequest; decide +kernel
theorem witness_RequestRowsComplete_readBlock :
    let m := message 0x12 1 (natLe 8 (0x1000 + 3 * 2 ^ 16 + 8 * 2 ^ 48)); let p := msgPayload m;
    (onCaddy [openSes]).takesRequest tuple0 m 0x12 openSes ∧ p.length = 8 ∧ leNat (sliceZ p 3 1) = 0 ∧ blockLen p = 8 ∧
    blockOff p = 0 ∧ (((onCaddy [openSes]).rxFrames 0 1).dictRead 0xFF (itemIndex p) (itemSub p)).1 = .ok := by
  unfold State.takesRequest; decide +kernel
theorem witness_RequestRowsComplete_writeBlock :
    let m := message 0x13 1 (natLe 8 (0x9400 + 6 * 2 ^ 16 + 2 ^ 24 + 4 * 2 ^ 48) ++ natLe 4 9); let p := msgPayload m;
    let u := (((onCaddy [openSes]).rxFrames 0 1).executing openSes (msgSeq m)).modSession 1 fun y => { y with stage := none };
    (onCaddy [openSes]).takesRequest tuple0 m 0x13 openSes ∧ p.length = 8 + blockLen p ∧ blockLen p = 4 ∧
    openSes.stageWith p = some (natLe 4 9) ∧ leNat (sliceZ p 3 1) = 1 ∧
    (u.writeEntry openSes.origin (itemIndex p) (itemSub p) (natLe 4 9) (.block 1 (msgSeq m))).2 = some .ok := by
  unfold State.takesRequest; decide +kernel
theorem witness_RequestRowsComplete_notify :
    let x := { openSes with nOut := true, nNum := 3, nSends := 9 }; let s := onCaddy [x];
    let m := caddyMacd [1#8] (caddyHeader 0x20 true 0 1 3 0) [];
    s.caddyOn tuple0 = true ∧ msgIsReply m = true ∧ msgType m = 0x20 ∧ (s.rxFrames 0 1).authentic tuple0 m = some x ∧
    x.nNum = msgSeq m ∧ x.nDirty = false ∧ s.session 1 = some x ∧ x.nSends < 10 := by decide +kernel

theorem witness_StepRunsFront :
    ({ State.reset with pending := [.refLoss, .heartbeat] } : State).pending = [.refLoss, .heartbeat] := rfl
theorem witness_IdleStepCountsTime :
    let u := (((List.range 4).foldl State.rxPump live).dbgRetry).settle;
    live.pending = [] ∧ u.reg 0x2000 1 = 1 ∧ (State.reset.reg 0x2000 1 ≠ 1 ∧ State.reset.reg 0x2000 1 ≠ 2) ∧
    (∀ p, p < 4 → (live.hport p).inq = [] ∧ (live.hport p).xoff = false) ∧ live.dbg.busy = none ∧ live.events = [] := by
  decide +kernel
theorem witness_MemoryStaysCanonical : Memory.wf walkState.mem = true := by decide +kernel
theorem witness_MaskKeepsAtThreshold : (255 : Nat) < opnd [256, 0, 65535, 0] 0 ∧
    opnd [256, 0, 65535, 0] 2 < 65536 := by decide
theorem witness_BeyondUsableRange :
    (State.reset.setReg 0x3000 0 (2 ^ 36)).reg 0x3000 0 ≤ 0xEFFFFFFFFF ∧ 0xEFFFFFFFFF + 1 ≤ 0xF000000000 ∧
    0xFFFFFFFFFF + 1 ≤ 0x10000000000 := by
  decide +kernel
theorem witness_AnnotateAddsRecord : 3 ≤ live.phase ∧ live.writeCheck boss 0x1100 1 (natLe 16 5) = .ok := by decide +kernel
theorem witness_ShadowOneStepIn64 :
    let k := cmdOf 0x30 (2 ^ 32); let s := ((sharing { ctxs := [(0, { state := .running, cmd := some k })] }).setReg 0x6200 0 1);
    gated k.word = true ∧ (s.ctx 0 0).kind ≠ .shadow ∧ (s.ctx 0 0).kind ≠ .third ∧ s.reg 0x6200 0 = 1 ∧
    s.reg 0x9400 8 = 0 ∧ (0 + s.stepOf 0 0 k) % 64 = 0 := by decide +kernel
theorem witness_ResetState_grist :
    gristWf (.endl 3 15 7 6 5 4) = true ∧ encodeGrist (.endl 3 15 7 6 5 4) < 2 ^ 32 ∧
    (31 * 2 ^ 27) / 2 ^ 27 = 31 := by decide

end Sys2Proof.Tests
end

section
/-! O57: the bits of an RNG_MASK bitmap (R170, R171) and the range of the draws that decide them (R61 to R64). -/

namespace Sys2Proof.Machine

/-! Bits of byte sequences. -/

/-- The model's bit test is the library's. -/
theorem bit_eq_testBit (v i : Nat) : bit v i = v.testBit i := by
  rw [Bool.eq_iff_iff, Nat.testBit_eq_decide_div_mod_eq, decide_eq_true_iff, bit, beq_iff_eq, fld,
    Nat.shiftRight_eq_div_pow, Nat.add_sub_cancel_left, Nat.pow_one]

/-- `len` bytes keep the value up to 256 ^ `len` (R10). -/
theorem leNat_natLe_eq_mod (len v : Nat) : leNat (natLe len v) = v % 256 ^ len := by
  induction len generalizing v with
  | zero => rw [natLe, leNat, Nat.pow_zero, Nat.mod_one]
  | succ len ih => rw [natLe, leNat, ih, Nat.pow_succ', Nat.mod_mul, BitVec.toNat_ofNat]

/-- n bits fit the bytes that hold them. -/
theorem two_pow_le_bytes (n : Nat) : 2 ^ n ≤ 256 ^ ceilDiv n 8 := by
  rw [show 256 = 2 ^ 8 from rfl, ← Nat.pow_mul]
  refine Nat.pow_le_pow_right (by decide) ?_
  unfold ceilDiv
  omega

/-- The fold of `outBits` adds the number whose binary digits, least significant first, are the listed bits. -/
theorem foldl_bits_eq (bits : List Bool) (k a : Nat) :
    (bits.zipIdx k).foldl (fun a (e : Bool × Nat) => if e.1 then a + 2 ^ e.2 else a) a
      = a + 2 ^ k * (BitVec.ofBoolListLE bits).toNat := by
  induction bits generalizing k a with
  | nil => rfl
  | cons b t ih =>
    rw [List.zipIdx_cons, List.foldl_cons, ih, BitVec.ofBoolListLE, BitVec.toNat_concat, Nat.pow_succ, Nat.mul_add]
    have hrest (x : Nat) : 2 ^ k * 2 * x = 2 ^ k * (x * 2) := by rw [Nat.mul_assoc, Nat.mul_comm 2 x]
    have hbit : (if b then a + 2 ^ k else a) = a + 2 ^ k * b.toNat := by
      cases b
      · rfl
      · exact congrArg (a + ·) (Nat.mul_one _).symm
    dsimp only
    rw [hbit, hrest, Nat.add_assoc, Nat.add_comm (2 ^ k * b.toNat)]

/-- A complete bitmap holds bit i of its list at bit i (R170). -/
theorem bit_leNat_outBits {n : Nat} {bits : List Bool} (hn : bits.length = n) (i : Nat) :
    bit (leNat (outBits n bits)) i = bits.getD i false := by
  subst hn
  have hfit : (BitVec.ofBoolListLE bits).toNat < 256 ^ ceilDiv bits.length 8 :=
    Nat.lt_of_lt_of_le (BitVec.isLt _) (two_pow_le_bytes _)
  simp only [outBits, foldl_bits_eq, if_true, leNat_natLe_eq_mod, Nat.zero_add, Nat.pow_zero, Nat.one_mul,
    Nat.mod_eq_of_lt hfit, bit_eq_testBit]
  exact BitVec.getLsbD_ofBoolListLE

/-! The draws. -/

/-- The four words of a Philox counter fit 32 bits. -/
def PhiloxFits (c : Nat × Nat × Nat × Nat) : Prop :=
  c.1 < 2 ^ 32 ∧ c.2.1 < 2 ^ 32 ∧ c.2.2.1 < 2 ^ 32 ∧ c.2.2.2 < 2 ^ 32

theorem mul32_high_lt {a b : Nat} (ha : a < 2 ^ 32) (hb : b < 2 ^ 32) : (mul32 a b).1 < 2 ^ 32 :=
  Nat.div_lt_of_lt_mul (Nat.mul_lt_mul'' ha hb)

theorem mul32_low_lt (a b : Nat) : (mul32 a b).2 < 2 ^ 32 := Nat.mod_lt _ (by decide)

/-- Philox rounds keep the words in 32 bits when the key's words fit them (R61). -/
theorem philoxRounds_fits (n : Nat) {k0 k1 : Nat} {c : Nat × Nat × Nat × Nat} (h0 : k0 < 2 ^ 32) (h1 : k1 < 2 ^ 32)
    (hc : PhiloxFits c) : PhiloxFits (philoxRounds n k0 k1 c) := by
  induction n generalizing k0 k1 c with
  | zero => exact hc
  | succ n ih =>
    obtain ⟨c0, c1, c2, c3⟩ := c
    obtain ⟨hc0, hc1, hc2, hc3⟩ := hc
    refine ih (Nat.mod_lt _ (by decide)) (Nat.mod_lt _ (by decide)) ⟨?_, mul32_low_lt _ _, ?_, mul32_low_lt _ _⟩
    · exact Nat.xor_lt_two_pow (Nat.xor_lt_two_pow (mul32_high_lt (by decide) hc2) hc1) h0
    · exact Nat.xor_lt_two_pow (Nat.xor_lt_two_pow (mul32_high_lt (by decide) hc0) hc3) h1

/-- Each output word of Philox fits 32 bits, and so does the 0 read beyond them. -/
theorem philox_getD_lt {k0 k1 c0 c1 c2 c3 : Nat} (h0 : k0 < 2 ^ 32) (h1 : k1 < 2 ^ 32)
    (hc : PhiloxFits (c0, c1, c2, c3)) (i : Nat) : (philox k0 k1 c0 c1 c2 c3).getD i 0 < 2 ^ 32 := by
  obtain ⟨r0, r1, r2, r3⟩ := philoxRounds_fits 10 h0 h1 hc
  match i with
  | 0 => exact r0
  | 1 => exact r1
  | 2 => exact r2
  | 3 => exact r3
  | _ + 4 => exact Nat.two_pow_pos 32

/-- A draw is a 16-bit value (R63). -/
theorem drawU_lt (seed purpose tensor draw e : Nat) : drawU seed purpose tensor draw e < 65536 := by
  have mod_lt (x : Nat) : x % 2 ^ 32 < 2 ^ 32 := Nat.mod_lt _ (Nat.two_pow_pos 32)
  have hc1 (g : Nat) : g % 2 ^ 13 + purpose % 16 * 2 ^ 16 < 2 ^ 32 := by omega
  unfold drawU
  dsimp only
  split
  · exact Nat.mod_lt _ (by decide)
  · exact Nat.div_lt_of_lt_mul
      (philox_getD_lt (mod_lt _) (mod_lt _) ⟨mod_lt _, hc1 _, mod_lt _, mod_lt _⟩ _)

/-! RNG_MASK. -/

/-- Bit i of what RNG_MASK writes: the draw of element e0 + i against the threshold (R64, R171). -/
theorem kRngMask_bit (seed : Nat) (k : CmdRun) (ops : List Nat) (f : Nat → Bytes) (role : Nat) {i : Nat}
    (hi : i < opnd ops 0) :
    bit (leNat ((kRngMask seed k ops).run f role)) i
      = decide (opnd ops 2 ≤ drawU seed 2 (cImm k.word) (opnd ops 3) (opnd ops 1 + i)) := by
  unfold kRngMask
  rw [bit_leNat_outBits (by rw [List.length_map, List.length_range]), List.getD_eq_getElem?_getD, List.getElem?_map,
    List.getElem?_range hi, Option.map_some, Option.getD_some]

/-- Of the values below n, as many lie below a threshold as the smaller of the two says. -/
theorem length_filter_lt_range (n t : Nat) :
    ((List.range n).filter fun v => decide (v < t)).length = min n t := by
  induction n with
  | zero => exact (Nat.zero_min t).symm
  | succ n ih =>
    rw [List.range_succ, List.filter_append, List.length_append, ih, List.filter_cons, List.filter_nil]
    by_cases h : n < t
    · rw [if_pos (decide_eq_true h), List.length_singleton]; omega
    · rw [if_neg (by rwa [decide_eq_true_iff]), List.length_nil]; omega

/-- Settles O57: a mask bit is the comparison of its draw with the threshold, and every draw is a 16-bit value. -/
theorem maskKeepsAtThreshold : Obligations.MaskKeepsAtThreshold := by
  intro seed k ops f role i hi hT
  dsimp only
  rw [kRngMask_bit seed k ops f role hi, decide_eq_true_iff]
  exact ⟨Iff.rfl, drawU_lt .., fun h0 => h0 ▸ Nat.zero_le _,
    (length_filter_lt_range ..).trans (Nat.min_eq_right (Nat.le_of_lt hT))⟩

end Sys2Proof.Machine
end

section
/-! O58: accesses beyond the usable LPDDR5X range (R259). -/

namespace Sys2Proof.Machine

/-! What the structure of local memory says first: a refusal there is the whole outcome of an access. -/

/-- A read that the structure refuses delivers no byte and changes nothing. -/
theorem State.readLocal_of_popStatus {s : State} {a len : Nat} {st : Status} (h : s.popStatus a len = some st)
    (tag : Nat) : s.readLocal a len tag = (s, st, []) := by
  rw [readLocal, h]

/-- A write that the structure refuses stores no byte and changes nothing, whoever the writer is. -/
theorem State.writeLocal_of_popStatus {s : State} {a : Nat} {bs : Bytes} {st : Status}
    (h : s.popStatus a bs.length = some st) (w : Writer) (gen : Bool) (tag : Nat) :
    s.writeLocal w a bs gen tag = (s, st) := by
  rw [writeLocal, h]

/-- The LPDDR5X row of the local map (R271). -/
theorem place_eq_lpddr {a : Nat} (h : a < 0x10000000000) : place a = .lpddr := if_pos h

/-- 0xF0_0000_0000 ends the data of LPDDR5X: no range may reach beyond it (R259, second bullet). -/
theorem State.popStatus_lpddr_beyondData {s : State} {a len : Nat} (ha : a < 0x10000000000)
    (hend : 0xF000000000 < a + len) : s.popStatus a len = some .accessDenied := by
  rw [popStatus, place_eq_lpddr ha]
  exact if_pos hend

/-- Between `mem.usable_bytes` and the end of the data lies withdrawn capacity (R259, first bullet). -/
theorem State.popStatus_lpddr_beyondUsable {s : State} {a len : Nat} (ha : a < 0x10000000000)
    (hend : a + len ≤ 0xF000000000) (husable : s.reg 0x3000 0 < a + len) :
    s.popStatus a len = some .unitRetired := by
  rw [popStatus, place_eq_lpddr ha]
  exact (if_neg (Nat.not_lt.mpr hend)).trans (if_pos husable)

/-- Settles O58: either bullet of R259 is a refusal by the structure, which reads and writes alike answer at once. -/
theorem beyondUsableRange : Obligations.BeyondUsableRange := by
  rintro s a len bs w gen hlen rfl
  refine ⟨fun husable hend => ?_, fun hdata hend => ?_⟩
  · have hpop : s.popStatus a bs.length = some .unitRetired :=
      State.popStatus_lpddr_beyondUsable (by omega) hend (by omega)
    exact ⟨State.readLocal_of_popStatus hpop 0, State.writeLocal_of_popStatus hpop w gen 0⟩
  · have hpop : s.popStatus a bs.length = some .accessDenied :=
      State.popStatus_lpddr_beyondData (by omega) (by omega)
    exact ⟨State.readLocal_of_popStatus hpop 0, State.writeLocal_of_popStatus hpop w gen 0⟩

end Sys2Proof.Machine
end

section
/-! O60: which gated updates are shadowed (R367). -/

namespace Sys2Proof.Machine

/-- A table reads back, at a key that was written, what was written there. -/
theorem get_put {α : Type} (d : α) (k : Nat) (v : α) (m : SMap α) : SMap.get d (SMap.put k v m) k = v :=
  congrArg (Option.getD · d) (find_put k v m)

/-- The three conditions of R367 on a gated update of context h of core n: its partition enables shadows and runs
`mash.policy` 0, and the sum of the core's number and the step is a multiple of 64. -/
def State.ShadowDue (s : State) (n h : Nat) (k : CmdRun) : Prop :=
  s.reg (0x6200 + (s.ctx n h).part) 0 = 1 ∧ s.reg (0x9400 + (s.ctx n h).part) 8 = 0 ∧ (n + s.stepOf n h k) % 64 = 0

/-- A gated update of a primary run (R368) that meets R367 gets one more shadow check, of that core, context, command and
step, behind those its partition holds. -/
theorem State.noteShadow_of_due {s : State} {n h : Nat} {k : CmdRun} (hgated : gated k.word = true)
    (hshadow : (s.ctx n h).kind ≠ .shadow) (hthird : (s.ctx n h).kind ≠ .third) (hdue : s.ShadowDue n h k) :
    ∃ w : Shadow, SMap.get [] (s.noteShadow n h k).shadows (s.ctx n h).part
        = SMap.get [] s.shadows (s.ctx n h).part ++ [w] ∧
      w.core = n ∧ w.ctx = h ∧ w.entry = k.index ∧ w.step = s.stepOf n h k := by
  obtain ⟨henable, hpolicy, hstep⟩ := hdue
  unfold noteShadow
  rw [if_pos (by simp [hgated, hshadow, hthird, henable, hpolicy, hstep]), bump_shadows, get_put]
  exact ⟨_, rfl, rfl, rfl, rfl, rfl⟩

/-- A command that does not meet R367 leaves the state as it is, whatever its run. -/
theorem State.noteShadow_of_not_due {s : State} {n h : Nat} {k : CmdRun} (hdue : ¬ s.ShadowDue n h k) :
    s.noteShadow n h k = s := by
  refine if_neg fun hguard => hdue ?_
  simp only [Bool.and_eq_true, beq_iff_eq] at hguard
  obtain ⟨⟨⟨-, henable⟩, hpolicy⟩, hstep⟩ := hguard
  exact ⟨henable, hpolicy, hstep⟩

/-- Of 64 consecutive numbers exactly one is a multiple of 64: the one as far from the first as the first is short of the
next multiple. -/
theorem exists_unique_offset_multiple_64 (a : Nat) :
    ∃ j, j < 64 ∧ (a + j) % 64 = 0 ∧ ∀ i, i < 64 → (a + i) % 64 = 0 → i = j :=
  ⟨(64 - a % 64) % 64, by omega, by omega, fun i hi hmult => by omega⟩

/-- Settles O60: the guard of `noteShadow` is R367's for a gated update of a primary run, and the third condition holds of
one step number in 64. -/
theorem shadowOneStepIn64 : Obligations.ShadowOneStepIn64 := by
  refine ⟨fun s n h k hgated hshadow hthird => ⟨?_, ?_⟩, fun n first => ?_⟩
  · exact State.noteShadow_of_due hgated hshadow hthird
  · exact State.noteShadow_of_not_due
  · simpa only [Nat.add_assoc] using exists_unique_offset_multiple_64 (n + first)

end Sys2Proof.Machine
end

section
/-! O59: a write of `audit.annotate` (R463), and where an audit record holds its KIND and its NEW (R460). -/

namespace Sys2Proof.Machine

/-! What a write that passes its check does (R16, R443, R459). -/

/-- Of several conditions the lowest code is that of one of them (R16). -/
theorem lowest_cons_mem (st : Status) (l : List Status) : lowest (st :: l) ∈ st :: l := by
  induction l generalizing st with
  | nil => exact List.mem_singleton_self st
  | cons e l ih =>
    have hfold : lowest (st :: e :: l) = lowest ((if e.code < st.code then e else st) :: l) := rfl
    rw [hfold]
    split
    · exact List.mem_cons_of_mem st (ih e)
    · exact List.cons_subset_cons st (List.subset_cons_self e l) (ih st)

/-- A condition that the check of a write names is a failure. -/
theorem State.ok_notMem_writeRefusals (s : State) (o : Origin) (index sub : Nat) (value : Bytes) :
    Status.ok ∉ s.writeRefusals o index sub value := by
  unfold writeRefusals
  split
  · decide
  · simp [conds]

/-- The check of a write answers ST_OK only when it finds nothing. -/
theorem State.writeRefusals_eq_nil {s : State} {o : Origin} {index sub : Nat} {value : Bytes}
    (hok : s.writeCheck o index sub value = .ok) : s.writeRefusals o index sub value = [] := by
  cases hfound : s.writeRefusals o index sub value with
  | nil => rfl
  | cons st l =>
    have hmem : s.writeCheck o index sub value ∈ s.writeRefusals o index sub value := by
      rw [writeCheck, hfound]
      exact lowest_cons_mem st l
    exact absurd (hok ▸ hmem) (s.ok_notMem_writeRefusals o index sub value)

/-- A dictionary write that passes its check, and that its entry's own rule accepts at once, ends with that rule applied and
its KIND 0 record. -/
theorem State.dictWrite_done {s t : State} {o : Origin} {index sub : Nat} {value : Bytes} (hphase : 3 ≤ s.phase)
    (hok : s.writeCheck o index sub value = .ok) (hboot : index ≠ 0x2030)
    (happly : s.applyWrite o index sub value = (t, .done .ok)) :
    s.dictWrite o index sub value
      = (t.writeNote o index sub (s.reg index sub) (t.valueAfter index sub (leNat value)) .ok).afterWrite index sub
          (some .ok) := by
  rw [dictWrite, if_neg (Nat.not_lt.mpr hphase), writeEntry_done .nobody (writeRefusals_eq_nil hok) hboot happly]

/-- Only a write of a principal slot closes sessions (R452). -/
theorem State.afterWrite_of_ne {index : Nat} (h : index ≠ 0x7020) (s : State) (sub : Nat) (st : Option Status) :
    s.afterWrite index sub st = s := if_neg fun hp => h hp.1

/-- The record of a write of a write-only entry gives what was written. -/
theorem State.valueAfter_of_wo {index sub : Nat} (h : (findEntry index sub).map Entry.acc = some .wo) (s : State) (v : Nat) :
    s.valueAfter index sub v = v := by
  obtain ⟨e, he, hacc⟩ := Option.map_eq_some_iff.mp h
  rw [valueAfter, he]
  exact if_pos hacc

/-! Fields of an audit record (R460). -/

/-- A status code is one byte (R13). -/
theorem Status.code_lt (st : Status) : st.code < 256 := by cases st <;> decide

/-- Bits 415 to 412 of a record hold its KIND. -/
theorem AuditRec.fld_word_kind (r : AuditRec) (time seq : Nat) : fld (r.word time seq) 415 412 = r.kind % 16 := by
  have hstatus := r.status.code_lt
  have horigin := r.origin.kind.isLt
  have hprincipal := r.origin.principal.isLt
  have hid := r.origin.originId.isLt
  have htrunc : b2n r.trunc < 2 := by cases r.trunc <;> decide
  simp only [fld, word, Nat.shiftLeft_eq, Nat.shiftRight_eq_div_pow]
  omega

/-- Bits 127 to 0 of a record hold its NEW. -/
theorem AuditRec.fld_word_new (r : AuditRec) (time seq : Nat) : fld (r.word time seq) 127 0 = r.new % 2 ^ 128 := by
  simp only [fld, word, Nat.shiftLeft_eq, Nat.shiftRight_eq_div_pow]
  omega

/-! The entry itself. -/

/-- The record of a write of `audit.annotate`: KIND 4, with what is written in NEW (R463). -/
def annotateRec (o : Origin) (v : Nat) : AuditRec := { kind := 4, origin := o, index := 0x1100, sub := 1, new := v }

/-- A 16-byte value is read back as it was written (R10). -/
theorem leNat_natLe_toNat (v : BitVec 128) : leNat (natLe 16 v.toNat) = v.toNat :=
  (leNat_natLe_eq_mod 16 _).trans (Nat.mod_eq_of_lt v.isLt)

/-- The rule of `audit.annotate` accepts every value, and adds the record of it. -/
theorem State.applyWrite_annotate (s : State) (o : Origin) (v : BitVec 128) :
    s.applyWrite o 0x1100 1 (natLe 16 v.toNat) = (s.record (annotateRec o v.toNat), .done .ok) := by
  have hrule : s.applyWrite o 0x1100 1 (natLe 16 v.toNat)
      = (s.record (annotateRec o (leNat (natLe 16 v.toNat))), .done .ok) := rfl
  rw [hrule, leNat_natLe_toNat]

/-- `audit.annotate` is write-only (R465). -/
theorem annotate_acc : (findEntry 0x1100 1).map Entry.acc = some .wo := by decide

/-- ANNOTATE is the write of the entry as a command of its own. -/
theorem exec_annotate (o : Origin) (v : BitVec 128) (s : State) :
    exec (.annotate o v) s = .next (s.dictWrite o 0x1100 1 (natLe 16 v.toNat)).settle := rfl

/-- Settles O59: the rule of the entry adds the KIND 4 record, and the write adds the KIND 0 record that every accepted
write has (R461, log entry 24). -/
theorem annotateAddsRecord : Obligations.AnnotateAddsRecord := by
  intro o v s hphase hok
  refine ⟨?_, AuditRec.fld_word_kind .., (AuditRec.fld_word_new ..).trans (Nat.mod_eq_of_lt v.isLt)⟩
  rw [exec_annotate, State.dictWrite_done hphase hok (by decide) (s.applyWrite_annotate o v),
    State.afterWrite_of_ne (by decide), State.valueAfter_of_wo annotate_acc, leNat_natLe_toNat]
  rfl

end Sys2Proof.Machine
end

section
/-! O56: the words of the grist instructions (R103, R104) decode to the instructions that they are the words of. -/

namespace Sys2Proof

/-- The opcode of a grist instruction (R104). -/
def gristOpcode : Grist → Nat
  | .seta .. => 0x01
  | .addaImm .. | .addaReg .. => 0x02
  | .setiImm .. | .setiReg .. => 0x03
  | .loopImm .. | .loopReg .. => 0x04
  | .endl .. => 0x05
  | .load .. => 0x06
  | .store .. => 0x07
  | .gather .. => 0x08
  | .scatter .. => 0x09
  | .emit _ => 0x0A
  | .take => 0x0B
  | .free => 0x0C
  | .wait .. => 0x0D
  | .arrive .. => 0x0E
  | .done => 0x0F

theorem bitOf_lt (b : Bool) : bitOf b < 2 := by cases b <;> decide

/-- The opcode stands above the operands, which together stay below bit 27. -/
theorem encodeGrist_div (g : Grist) : encodeGrist g / 2 ^ 27 = gristOpcode g := by
  cases g
  case load _ post _ | store _ post _ _ | emit post =>
    have := bitOf_lt post
    simp only [encodeGrist, gristOpcode]
    omega
  all_goals simp only [encodeGrist, gristOpcode]
  all_goals omega

theorem gristOpcode_lt (g : Grist) : gristOpcode g < 16 := by cases g <;> simp only [gristOpcode] <;> decide

theorem encodeGrist_lt (g : Grist) : encodeGrist g < 2 ^ 32 := by
  have hdiv := encodeGrist_div g
  have hop := gristOpcode_lt g
  omega

/-- The decoder reads the opcode that the encoder writes. -/
theorem wfld_opcode (g : Grist) : wfld (encodeGrist g) 31 27 = gristOpcode g := by
  have hop := gristOpcode_lt g
  rw [wfld, encodeGrist_div]
  omega

theorem fin_eq_iff {n w hi lo : Nat} {h : 0 < n} {i : Fin n} : fin n w hi lo h = i ↔ wfld w hi lo % n = i.val :=
  Fin.ext_iff

theorem zeros_iff {w hi lo : Nat} : zeros w hi lo = true ↔ wfld w hi lo = 0 := beq_iff_eq

theorem guardZ_eq_some {ok : Bool} {g g' : Grist} : guardZ ok g = some g' ↔ ok = true ∧ g = g' := by
  cases ok <;> simp [guardZ]

/-- A flag reads back as what its bit holds. -/
theorem f1_eq_iff {w lo : Nat} {b : Bool} : f1 w lo = b ↔ wfld w lo lo = bitOf b := by
  have hlt : wfld w lo lo < 2 := by
    rw [wfld, Nat.add_sub_cancel_left]
    exact Nat.mod_lt _ (by decide)
  cases b <;> simp [f1, bitOf]; omega

namespace Machine

/-- R104: a word formed from operands without a reserved value decodes to its instruction. An instruction with a register
and an immediate form is told apart by the bit that selects the form. -/
theorem decodeGrist_encodeGrist (g : Grist) (hg : gristWf g = true) : decodeGrist (encodeGrist g) = some g := by
  unfold decodeGrist
  rw [wfld_opcode]
  cases g with
  | take | free | done => rfl
  | seta | endl | gather | arrive =>
    simp only [gristOpcode, guardZ_eq_some, zeros_iff, f2, f3, f6, f8, fin_eq_iff, Grist.seta.injEq, Grist.endl.injEq,
      Grist.gather.injEq, Grist.arrive.injEq, wfld, encodeGrist]
    omega
  | addaImm ar imm =>
    have hform : ¬ f1 (encodeGrist (.addaImm ar imm)) 24 = true := by
      simp only [f1_eq_iff, bitOf, if_true, wfld, encodeGrist]
      omega
    simp only [gristOpcode]
    rw [if_neg hform]
    simp only [guardZ_eq_some, zeros_iff, f2, fin_eq_iff, Grist.addaImm.injEq, wfld, encodeGrist]
    omega
  | addaReg ar ir =>
    have hform : f1 (encodeGrist (.addaReg ar ir)) 24 = true := by
      simp only [f1_eq_iff, bitOf, if_true, wfld, encodeGrist]
      omega
    simp only [gristOpcode]
    rw [if_pos hform]
    simp only [guardZ_eq_some, zeros_iff, f2, f3, fin_eq_iff, Grist.addaReg.injEq, wfld, encodeGrist]
    omega
  | setiImm ir imm =>
    have hform : ¬ f1 (encodeGrist (.setiImm ir imm)) 23 = true := by
      simp only [f1_eq_iff, bitOf, if_true, wfld, encodeGrist]
      omega
    simp only [gristOpcode]
    rw [if_neg hform]
    simp only [Option.some.injEq, f3, fin_eq_iff, Grist.setiImm.injEq, wfld, encodeGrist]
    omega
  | setiReg ir px =>
    have hform : f1 (encodeGrist (.setiReg ir px)) 23 = true := by
      simp only [f1_eq_iff, bitOf, if_true, wfld, encodeGrist]
      omega
    simp only [gristOpcode]
    rw [if_pos hform]
    simp only [guardZ_eq_some, zeros_iff, f3, f6, fin_eq_iff, Grist.setiReg.injEq, wfld, encodeGrist]
    omega
  | loopImm lvl count =>
    have hform : ¬ f1 (encodeGrist (.loopImm lvl count)) 24 = true := by
      simp only [f1_eq_iff, bitOf, if_true, wfld, encodeGrist]
      omega
    simp only [gristOpcode]
    rw [if_neg hform]
    simp only [Option.some.injEq, f2, fin_eq_iff, Grist.loopImm.injEq, wfld, encodeGrist]
    omega
  | loopReg lvl px =>
    have hform : f1 (encodeGrist (.loopReg lvl px)) 24 = true := by
      simp only [f1_eq_iff, bitOf, if_true, wfld, encodeGrist]
      omega
    simp only [gristOpcode]
    rw [if_pos hform]
    simp only [guardZ_eq_some, zeros_iff, f2, f6, fin_eq_iff, Grist.loopReg.injEq, wfld, encodeGrist]
    omega
  | load ar post len =>
    have hpost := bitOf_lt post
    simp only [gristOpcode, guardZ_eq_some, Bool.and_eq_true, zeros_iff, f1_eq_iff, f2, fin_eq_iff, Grist.load.injEq,
      wfld, encodeGrist]
    omega
  | store ar post acc len =>
    have hpost := bitOf_lt post
    have hacc : acc ≠ 3 := bne_iff_ne.mp hg
    simp only [gristOpcode, guardZ_eq_some, Bool.and_eq_true, Bool.not_eq_true', beq_eq_false_iff_ne, zeros_iff,
      f1_eq_iff, f2, fin_eq_iff, Grist.store.injEq, wfld, encodeGrist]
    omega
  | scatter ab ai irl irs n acc =>
    have hacc : acc ≠ 3 := bne_iff_ne.mp hg
    simp only [gristOpcode, guardZ_eq_some, Bool.and_eq_true, Bool.not_eq_true', beq_eq_false_iff_ne, zeros_iff, f2, f3,
      f8, fin_eq_iff, Grist.scatter.injEq, wfld, encodeGrist]
    omega
  | emit zpad =>
    have hzpad := bitOf_lt zpad
    simp only [gristOpcode, guardZ_eq_some, zeros_iff, f1_eq_iff, Grist.emit.injEq, wfld, encodeGrist]
    omega
  | wait mode die bar px =>
    have hmode : mode.val < 2 := of_decide_eq_true hg
    simp only [gristOpcode, guardZ_eq_some, Bool.and_eq_true, decide_eq_true_eq, zeros_iff, f2, f6, f8, fin_eq_iff,
      Grist.wait.injEq]
    simp only [wfld, encodeGrist]
    omega

/-- R104: opcodes 0 and 16 to 31 are reserved. -/
theorem decodeGrist_reserved {w : Nat} (hw : w < 2 ^ 32) (hop : w / 2 ^ 27 = 0 ∨ 16 ≤ w / 2 ^ 27) :
    decodeGrist w = none := by
  have hfld : wfld w 31 27 = w / 2 ^ 27 := Nat.mod_eq_of_lt (by omega)
  unfold decodeGrist
  rw [hfld]
  split
  case h_16 => rfl
  all_goals omega

/-- Settles O56: the encoder keeps the operands in 27 bits below the opcode, and the decoder reads each of them back. -/
theorem gristRoundTrip : Obligations.GristRoundTrip :=
  ⟨fun g hg => ⟨encodeGrist_lt g, decodeGrist_encodeGrist g hg⟩, fun _ => decodeGrist_reserved⟩

end Machine
end Sys2Proof
end

section
/-! O26: little-endian bytes and their values (R10). -/

namespace Sys2Proof.Machine

/-- A byte sequence is that of its value (R10). -/
theorem natLe_leNat (bs : Bytes) : natLe bs.length (leNat bs) = bs := by
  induction bs with
  | nil => rfl
  | cons b t ih =>
    have hlow : BitVec.ofNat 8 (b.toNat + 256 * leNat t) = b := by
      apply BitVec.eq_of_toNat_eq
      rw [BitVec.toNat_ofNat]
      omega
    have hrest : (b.toNat + 256 * leNat t) / 256 = leNat t := by omega
    rw [List.length_cons, leNat, natLe, hlow, hrest, ih]

/-- Settles O26: the bytes keep the value up to 256 ^ `len`, and a value keeps its bytes. -/
theorem littleEndianRoundTrip : Obligations.LittleEndianRoundTrip :=
  ⟨fun len v hv => (leNat_natLe_eq_mod len v).trans (Nat.mod_eq_of_lt hv), natLe_leNat⟩

end Sys2Proof.Machine
end

section
/-! O17: a PATCH and the parameter registers (R137). -/

namespace Sys2Proof.Machine

/-- A parameter register after one was written. -/
theorem Ctx.param_setParam (x : Ctx) (p v q : Nat) :
    (x.setParam p v).param q = if q = p then v % 2 ^ 32 else x.param q := by
  simp only [param, setParam, get_putD]
  split
  · rw [BitVec.toNat_ofNat]
  · rfl

/-- A PATCH writes its words one after another, from `FIRST` on. -/
theorem Ctx.patch_eq (x : Ctx) (first : Nat) (ws : List W32) :
    x.patch first ws = (ws.zipIdx).foldl (fun (x : Ctx) p => x.setParam (first + p.2) p.1.toNat) x := by
  rw [patch, List.zipIdx_eq_zip_range', ← List.range_eq_range']

/-- The parameter registers after the words were written that stand from place k on. -/
theorem Ctx.param_foldl_setParam (ws : List W32) (x : Ctx) (first k p : Nat) :
    ((ws.zipIdx k).foldl (fun (x : Ctx) p => x.setParam (first + p.2) p.1.toNat) x).param p =
      if first + k ≤ p ∧ p < first + k + ws.length then (ws.getD (p - (first + k)) 0).toNat else x.param p := by
  induction ws generalizing x k with
  | nil => exact (if_neg (by simp only [List.length_nil]; omega)).symm
  | cons w t ih =>
    rw [List.zipIdx_cons, List.foldl_cons, ih, param_setParam, List.length_cons]
    by_cases hhere : p = first + k
    · subst hhere
      rw [if_neg (by omega), if_pos rfl, if_pos (by omega), Nat.sub_self, List.getD_cons_zero,
        Nat.mod_eq_of_lt w.isLt]
    · rw [if_neg hhere]
      by_cases hrest : first + (k + 1) ≤ p ∧ p < first + (k + 1) + t.length
      · rw [if_pos hrest, if_pos (by omega), show p - (first + k) = p - (first + (k + 1)) + 1 by omega, List.getD_cons_succ]
      · rw [if_neg hrest, if_neg (by omega)]

/-- Settles O17: each word goes to its own register, and a write of a parameter register changes no other field. -/
theorem patchWritesParameters : Obligations.PatchWritesParameters := by
  intro x first ws p
  rw [Ctx.patch_eq]
  refine ⟨Ctx.param_foldl_setParam ws x first 0 p, ?_⟩
  refine foldl_ind (P := fun y : Ctx => y.state = x.state ∧ y.run = x.run ∧ y.seed = x.seed ∧ y.status = x.status)
    (fun y e h => ?_) ⟨rfl, rfl, rfl, rfl⟩
  exact h

end Sys2Proof.Machine
end

section
/-! O30 and O31: what a store changes, and the generations it advances (R73, R87, R88). -/

namespace Sys2Proof.Machine

/-- Advancing generations leaves every other field as it is. -/
theorem State.bumpGens_eq (s : State) (a len : Nat) :
    s.bumpGens a len = { s with gens := (s.bumpGens a len).gens } :=
  foldl_ind (P := fun t : State => t = { s with gens := t.gens }) (fun t g h => by rw [h]; rfl) rfl

/-- A store changes byte memory, poison, flaws and generations only. -/
theorem State.store_eq (s : State) (a : Nat) (bs : Bytes) (gen : Bool) :
    s.store a bs gen = { s with mem := (s.store a bs false).mem, poison := (s.store a bs false).poison,
                                flaws := (s.store a bs false).flaws, gens := (s.store a bs gen).gens } := by
  cases gen
  · rfl
  · exact (s.store a bs false).bumpGens_eq a bs.length

/-- Settles O30: the bytes of the range are those stored (`State.byte_store`), and the fields named are not written. -/
theorem storeFrame : Obligations.StoreFrame := by
  intro s a bs gen x
  refine ⟨State.byte_store s a bs gen x, ?_⟩
  rw [State.store_eq]
  exact ⟨rfl, rfl, rfl, rfl⟩

/-- A list of granules without repeats advances each of them once (R88). -/
theorem State.gens_foldl_bumpGen {gs : List Nat} (hgs : gs.Nodup) (s : State) (g : Nat) :
    SMap.get 0 (gs.foldl State.bumpGen s).gens g =
      if g ∈ gs then (SMap.get 0 s.gens g + 1) % 2 ^ 32 else SMap.get 0 s.gens g := by
  induction gs generalizing s with
  | nil => rfl
  | cons x t ih =>
    obtain ⟨hx, ht⟩ := List.nodup_cons.mp hgs
    rw [List.foldl_cons, ih ht, bumpGen, get_putD]
    by_cases hg : g = x
    · subst hg
      rw [if_neg hx, if_pos rfl, if_pos (List.mem_cons_self ..)]
    · rw [if_neg hg]
      simp only [List.mem_cons, hg, false_or]

/-- The granules that a range of LPDDR5X touches (R87). -/
theorem State.gensOf_lpddr {a : Nat} (ha : place a = .lpddr) (s : State) (len : Nat) :
    (s.gensOf a len).map (·.1) = List.range' (a / 65536) ((a % 65536 + len + 65535) / 65536) := by
  rw [gensOf, ha, List.map_map, List.range'_eq_map_range]
  rfl

/-- Settles O31: the granules of the range are consecutive, and each is advanced once. -/
theorem writesAdvanceGenerations : Obligations.WritesAdvanceGenerations := by
  intro s a bs g hbs hplace
  have hlen : 0 < bs.length := List.length_pos_iff.mpr hbs
  have ha : place a = .lpddr := hplace a (Nat.le_refl a) (by omega)
  rw [State.store]
  simp only [if_true]
  rw [State.bumpGens, State.gensOf_lpddr ha, State.gens_foldl_bumpGen List.nodup_range']
  refine ite_congr (propext (List.mem_range'_1.trans ?_)) (fun _ => rfl) (fun _ => rfl)
  omega

end Sys2Proof.Machine
end

section
/-! O27 and O28: what an audit record changes, and the sticky bits (R373, R460 to R464). -/

namespace Sys2Proof.Machine

/-- Keys of entries differ when index or sub-index do. -/
theorem rk_inj {i j k l : Nat} (hk : k < 256) (hl : l < 256) : rk i k = rk j l ↔ i = j ∧ k = l := by
  unfold rk
  omega

/-- An entry keeps its value when another is set. -/
theorem State.reg_setReg_of_ne {i j k l : Nat} (hk : k < 256) (hl : l < 256) (h : j ≠ i ∨ l ≠ k) (s : State) (v : Nat) :
    (s.setReg i k v).reg j l = s.reg j l := by
  rw [reg_setReg, if_neg]
  rw [rk_inj hl hk]
  omega

/-- An entry holds what was set. -/
theorem State.reg_setReg_self (s : State) (i k v : Nat) : (s.setReg i k v).reg i k = v := by
  rw [reg_setReg, if_pos rfl]

/-! The mirror and the notifications leave the dictionary as it is. -/

theorem State.reg_of_dict {s t : State} (h : t.dict = s.dict) (i k : Nat) : t.reg i k = s.reg i k := by
  rw [reg, h, ← reg]

@[simp] theorem State.store_dict (s : State) (a : Nat) (bs : Bytes) (gen : Bool) : (s.store a bs gen).dict = s.dict := by
  rw [store_eq]

@[simp] theorem State.mirror_dict (s : State) (slot w : Nat) : (s.mirror slot w).dict = s.dict := by
  simp only [mirror]
  split
  · exact store_dict _ _ _ _
  · rfl

@[simp] theorem State.notifyAll_dict (s : State) : s.notifyAll.dict = s.dict := rfl

/-- A mirror that is off receives nothing (R462). -/
theorem State.mirror_off {s : State} (h : s.reg 0x1100 3 ≠ 1) (slot w : Nat) : s.mirror slot w = s :=
  if_neg fun hon => h hon.1

/-- A status without a sticky bit sets none (R373). -/
theorem State.setSticky_of_not_sticky {st : Status} (h : st.sticky = false) (s : State) (seq : Nat) :
    s.setSticky st seq = s := by
  simp [setSticky, h]

/-! A record. -/

/-- The state in which a record stands in its slot and has taken its number (R460, R462); the mirror and the sticky bit
follow. -/
def State.logged (s : State) (r : AuditRec) : State :=
  (s.setReg (0x1200 + s.reg 0x1100 0 % Config.auditSlots / 256) (s.reg 0x1100 0 % Config.auditSlots % 256)
    (r.word s.localNs (s.reg 0x1100 0))).setReg 0x1100 0 ((s.reg 0x1100 0 + 1) % 2 ^ 32)

theorem State.record_eq (s : State) (r : AuditRec) :
    s.record r = ((s.logged r).mirror (s.reg 0x1100 0 % Config.auditSlots)
      (r.word s.localNs (s.reg 0x1100 0))).setSticky r.status (s.reg 0x1100 0) := rfl

/-- The slot of a number lies in the entries of the log. -/
theorem slot_entry_lt (n : Nat) : n % Config.auditSlots / 256 < 256 := by
  unfold Config.auditSlots
  omega

/-- Outside the log's own entries a record changes no entry before the mirror and the sticky bit follow. -/
theorem State.reg_logged_of_ne {index sub : Nat} (hsub : sub < 256) (hseq : index ≠ 0x1100 ∨ sub ≠ 0)
    (hslot : index < 0x1200 ∨ 0x1300 ≤ index) (s : State) (r : AuditRec) :
    (s.logged r).reg index sub = s.reg index sub := by
  have hentry := slot_entry_lt (s.reg 0x1100 0)
  rw [logged, reg_setReg_of_ne (by decide) hsub hseq,
    reg_setReg_of_ne (Nat.mod_lt _ (by decide)) hsub (Or.inl (by omega))]

/-- With the mirror off and a status without a sticky bit, a record only takes its slot and its number. -/
theorem State.record_eq_logged {s : State} {r : AuditRec} (hmirror : s.reg 0x1100 3 ≠ 1) (hst : r.status.sticky = false) :
    s.record r = s.logged r := by
  rw [record_eq, setSticky_of_not_sticky hst, mirror_off]
  rwa [reg_logged_of_ne (by decide) (Or.inr (by decide)) (Or.inl (by decide))]

/-- Settles O27: while the mirror is off, the entries that a record writes are the log's own. -/
theorem recordFrame : Obligations.RecordFrame := by
  intro s r hmirror hst
  have hentry := slot_entry_lt (s.reg 0x1100 0)
  rw [State.record_eq_logged hmirror hst]
  refine ⟨State.reg_setReg_self .., ?_, ?_, rfl, rfl, rfl, rfl, rfl⟩
  · rw [State.logged, State.reg_setReg_of_ne (by decide) (Nat.mod_lt _ (by decide)) (Or.inl (by omega)),
      State.reg_setReg_self]
  · intro index sub _ hsub hne hslot
    exact State.reg_logged_of_ne hsub (Or.inl hne) hslot s r

/-! Sticky bits. -/

theorem bit_eq_div_mod (v i : Nat) : bit v i = decide (v / 2 ^ i % 2 = 1) := by
  rw [bit_eq_testBit, Nat.testBit_eq_decide_div_mod_eq]

/-- Setting a bit that is not set leaves the bits that are. -/
theorem bit_add_two_pow {v i k : Nat} (hi : bit v i = true) (hk : bit v k = false) : bit (v + 2 ^ k) i = true := by
  simp only [bit_eq_div_mod, decide_eq_true_eq, decide_eq_false_iff_not] at hi hk ⊢
  rcases Nat.lt_trichotomy i k with hlt | rfl | hlt
  · obtain ⟨d, rfl⟩ : ∃ d, k = i + (d + 1) := ⟨k - i - 1, by omega⟩
    have hpow : 2 ^ (i + (d + 1)) = 2 ^ i * (2 * 2 ^ d) := by rw [Nat.pow_add, Nat.pow_succ']
    rw [hpow, Nat.add_mul_div_left _ _ (Nat.two_pow_pos i)]
    omega
  · exact absurd hi hk
  · obtain ⟨d, rfl⟩ : ∃ d, i = k + (1 + d) := ⟨i - k - 1, by omega⟩
    have hdiv (x : Nat) : x / 2 ^ (k + (1 + d)) = x / 2 ^ k / 2 / 2 ^ d := by
      rw [Nat.pow_add, Nat.pow_add, Nat.pow_one, ← Nat.div_div_eq_div_mul, ← Nat.div_div_eq_div_mul]
    rw [hdiv] at hi ⊢
    rwa [Nat.add_div_right _ (Nat.two_pow_pos k), show (v / 2 ^ k + 1) / 2 = v / 2 ^ k / 2 by omega]

/-- Setting the sticky bit of a status leaves those that are set, and the records that they name (R373). -/
theorem State.setSticky_keeps {s : State} {c : Nat} (hc : c < 256) (hbit : bit (s.reg 0x1100 0x10) c = true)
    (st : Status) (seq : Nat) :
    bit ((s.setSticky st seq).reg 0x1100 0x10) c = true ∧ (s.setSticky st seq).reg 0x1110 c = s.reg 0x1110 c := by
  unfold setSticky
  split
  · exact ⟨hbit, rfl⟩
  split
  · exact ⟨hbit, rfl⟩
  next hnew =>
    have hcode : bit (s.reg 0x1100 0x10) st.code = false := Bool.eq_false_iff.mpr hnew
    have hne : c ≠ st.code := fun heq => hnew (heq ▸ hbit)
    have hlt := st.code_lt
    simp only [reg_of_dict (notifyAll_dict _)]
    rw [reg_setReg_of_ne hlt (by decide) (Or.inl (by decide)), reg_setReg_self, reg_setReg_of_ne hlt hc (Or.inr hne),
      reg_setReg_of_ne (by decide) hc (Or.inl (by decide))]
    exact ⟨bit_add_two_pow hbit hcode, rfl⟩

/-- Settles O28: neither the log nor the mirror writes the sticky bits, and a new one is added beside those that are set. -/
theorem stickyBitsStay : Obligations.StickyBitsStay := by
  intro s r c hc hbit
  have hlogged (i k : Nat) (hk : k < 256) (hne : i ≠ 0x1100 ∨ k ≠ 0) (hi : i < 0x1200) (slot w : Nat) :
      ((s.logged r).mirror slot w).reg i k = s.reg i k :=
    (State.reg_of_dict (State.mirror_dict ..) i k).trans (State.reg_logged_of_ne hk hne (Or.inl hi) s r)
  rw [State.record_eq, ← hlogged 0x1110 c hc (Or.inl (by decide)) (by decide)]
  refine State.setSticky_keeps hc ?_ r.status _
  rwa [hlogged 0x1100 0x10 (by decide) (Or.inr (by decide)) (by decide)]

end Sys2Proof.Machine
end

section
/-! O33: what a read of poisoned and of sound words delivers, and one whose link fails (R74, R262). -/

namespace Sys2Proof.Machine

/-! Reading the array. -/

/-- A word without a flaw is whole. -/
theorem State.flawOf_eq_zero {s : State} {w : Nat} (h : SMap.get 0 s.flaws w = 0) : s.flawOf w = 0 := by
  rw [flawOf, h]
  rfl

/-- A word that is delivered was not poisoned, and reading it has poisoned none and cured none. -/
theorem State.readWord_delivered {s : State} {w tag : Nat} (h : (s.readWord w tag).2 = true) :
    s.poisoned w = false ∧ (s.readWord w tag).1.poison = s.poison := by
  unfold readWord at h ⊢
  split at h
  · exact absurd h Bool.false_ne_true
  next hp =>
    rw [if_neg hp]
    refine ⟨Bool.eq_false_iff.mpr hp, ?_⟩
    split
    · rfl
    · rfl
    · split at h <;> simp_all

/-- Words that are all delivered were not poisoned. -/
theorem State.readWords_delivered {tag : Nat} {ws : List Nat} {s : State} (h : (s.readWords tag ws).2 = true) :
    ∀ w ∈ ws, s.poisoned w = false := by
  induction ws generalizing s with
  | nil => exact fun w hw => absurd hw List.not_mem_nil
  | cons x t ih =>
    rw [readWords] at h
    split at h
    next hx =>
      obtain ⟨hsound, hpoison⟩ := readWord_delivered hx
      refine List.forall_mem_cons.mpr ⟨hsound, fun w hw => ?_⟩
      have hw' := ih h w hw
      rwa [poisoned, hpoison, ← poisoned] at hw'
    next hx => exact absurd h hx

/-- Sound words are delivered as they stand. -/
theorem State.readWords_sound {tag : Nat} {ws : List Nat} {s : State}
    (h : ∀ w ∈ ws, s.poisoned w = false ∧ SMap.get 0 s.flaws w = 0) : s.readWords tag ws = (s, true) := by
  induction ws with
  | nil => rfl
  | cons x t ih =>
    obtain ⟨⟨hpoison, hflaw⟩, ht⟩ := List.forall_mem_cons.mp h
    have hread : s.readWord x tag = (s, true) := by simp [readWord, hpoison, flawOf_eq_zero hflaw]
    rw [readWords, hread]
    exact ih ht

/-! The link. -/

/-- A link over which the data came has poisoned nothing and cured nothing (R262). -/
theorem State.linkOutcome_delivered {s : State} {p c f e tag : Nat} (h : (s.linkOutcome p c f e tag).2 = true) :
    (s.linkOutcome p c f e tag).1.poison = s.poison := by
  unfold linkOutcome at h ⊢
  dsimp only at h ⊢
  split at h
  · exact absurd h Bool.false_ne_true
  next hf => rw [if_neg hf]; rfl

/-- What a read makes of the link of one channel (R262). -/
def linkStep (tag : Nat) (r : State × Bool) (k : Nat) : State × Bool :=
  match SMap.find? k r.1.linkErrs with
  | none => r
  | some e =>
    let o := ({ r.1 with linkErrs := SMap.del k r.1.linkErrs } : State).linkOutcome (k / 8) (k % 8) e.1 e.2 tag
    (o.1, r.2 && o.2)

theorem State.linkRead_eq (s : State) (a len tag : Nat) :
    s.linkRead a len tag =
      if s.linkErrs.isEmpty || place a != .lpddr then (s, true) else (s.lpChannels a len).foldl (linkStep tag) (s, true) :=
  rfl

theorem linkStep_delivered {tag k : Nat} {r : State × Bool} (h : (linkStep tag r k).2 = true) :
    r.2 = true ∧ (linkStep tag r k).1.poison = r.1.poison := by
  unfold linkStep at h ⊢
  split at h
  · exact ⟨h, rfl⟩
  · obtain ⟨hr, ho⟩ := Bool.and_eq_true_iff.mp h
    exact ⟨hr, State.linkOutcome_delivered ho⟩

theorem foldl_linkStep_delivered {tag : Nat} {ks : List Nat} {r : State × Bool}
    (h : (ks.foldl (linkStep tag) r).2 = true) : r.2 = true ∧ (ks.foldl (linkStep tag) r).1.poison = r.1.poison := by
  induction ks generalizing r with
  | nil => exact ⟨h, rfl⟩
  | cons k t ih =>
    obtain ⟨hk, hpoison⟩ := ih h
    obtain ⟨hr, hstep⟩ := linkStep_delivered hk
    exact ⟨hr, hpoison.trans hstep⟩

/-- A read whose data came over the link has poisoned nothing and cured nothing. -/
theorem State.linkRead_delivered {s : State} {a len tag : Nat} (h : (s.linkRead a len tag).2 = true) :
    (s.linkRead a len tag).1.poison = s.poison := by
  rw [linkRead_eq] at h ⊢
  split at h
  next hcalm => rw [if_pos hcalm]
  next hcalm => rw [if_neg hcalm]; exact (foldl_linkStep_delivered h).2

/-- Nothing strikes a read where no link error waits, or off LPDDR5X. -/
theorem State.linkRead_sound {s : State} {a : Nat} (h : place a ≠ .lpddr ∨ s.linkErrs = []) (len tag : Nat) :
    s.linkRead a len tag = (s, true) := by
  rw [linkRead_eq, if_pos]
  rcases h with h | h
  · simp [h]
  · simp [h]

/-- The state after the link of channel k has failed a read three times: its counters, and an event of the channel (R262). -/
def State.linkFailed (s : State) (k f e tag : Nat) : State :=
  ((({ s with linkErrs := SMap.del k s.linkErrs } : State).bump 32 (0x8820 + k / 8) (k % 8) e).bump 32 (0x8830 + k / 8)
    (k % 8) (min f 2)).channelEvent (k / 8) (k % 8) tag

/-- A read of one channel, for which a third failure waits, meets it. -/
theorem State.linkRead_failed {s : State} {a len k f e : Nat} (ha : place a = .lpddr) (hk : s.lpChannels a len = [k])
    (herr : SMap.find? k s.linkErrs = some (f, e)) (hf : 3 ≤ f) (tag : Nat) :
    s.linkRead a len tag = (s.linkFailed k f e tag, false) := by
  have hsome : s.linkErrs.isEmpty = false := by
    cases hl : s.linkErrs with
    | nil => rw [hl] at herr; exact absurd herr (by simp [SMap.find?])
    | cons x t => rfl
  rw [linkRead_eq, if_neg (by simp [hsome, ha]), hk, List.foldl_cons, List.foldl_nil, linkStep]
  simp only [herr, linkOutcome, if_pos hf, Bool.and_false]
  rfl

/-! What an event of a channel leaves while the mirror is off. -/

/-- t has the poison of s, and its mirror is off if that of s is. -/
def SamePoison (s t : State) : Prop := s.reg 0x1100 3 ≠ 1 → t.poison = s.poison ∧ t.reg 0x1100 3 ≠ 1

theorem SamePoison.refl {s : State} : SamePoison s s := fun hoff => ⟨rfl, hoff⟩

theorem SamePoison.of_eq {s t u : State} (h : SamePoison s t) (hp : u.poison = t.poison) (hd : u.dict = t.dict) :
    SamePoison s u := fun hoff =>
  have ⟨hpoison, hmirror⟩ := h hoff
  ⟨hp.trans hpoison, by rwa [State.reg_of_dict hd]⟩

theorem SamePoison.setReg {s t : State} {i k : Nat} (h : SamePoison s t) (hne : rk 0x1100 3 ≠ rk i k) (v : Nat) :
    SamePoison s (t.setReg i k v) := fun hoff =>
  have ⟨hpoison, hmirror⟩ := h hoff
  ⟨hpoison, by rwa [State.reg_setReg, if_neg hne]⟩

theorem SamePoison.setSticky {s t : State} (h : SamePoison s t) (st : Status) (seq : Nat) :
    SamePoison s (t.setSticky st seq) := by
  have hne : rk 0x1100 3 ≠ rk 0x1110 st.code := by unfold rk; omega
  have hbit : rk 0x1100 3 ≠ rk 0x1100 0x10 := by decide
  unfold State.setSticky
  split
  · exact h
  split
  · exact h
  · exact ((h.setReg hbit _).setReg hne _).of_eq rfl rfl

theorem SamePoison.record {s t : State} (h : SamePoison s t) (r : AuditRec) : SamePoison s (t.record r) := by
  intro hoff
  obtain ⟨hpoison, hmirror⟩ := h hoff
  have hlogged : (t.logged r).reg 0x1100 3 ≠ 1 := by
    rwa [State.reg_logged_of_ne (by decide) (Or.inr (by decide)) (Or.inl (by decide))]
  have hst : SamePoison s (t.logged r) := fun _ => ⟨hpoison, hlogged⟩
  rw [State.record_eq, State.mirror_off hlogged]
  exact hst.setSticky _ _ hoff

theorem SamePoison.kdChange {s t : State} {i k : Nat} (h : SamePoison s t) (hne : rk 0x1100 3 ≠ rk i k) (v tag : Nat) :
    SamePoison s (t.kdChange i k v tag) := by
  unfold State.kdChange State.ownChange
  dsimp only
  split
  · exact h
  · exact (h.setReg hne v).record _

theorem SamePoison.retireChannel {s t : State} (h : SamePoison s t) (p c tag : Nat) :
    SamePoison s (t.retireChannel p c true tag) := by
  have hmap : rk 0x1100 3 ≠ rk 0x3010 p := by unfold rk; omega
  have hfence : rk 0x1100 3 ≠ rk 0x3020 p := by unfold rk; omega
  exact ((h.kdChange hmap _ tag).setReg hfence _).record _

theorem SamePoison.channelEvent {s t : State} (h : SamePoison s t) (p c tag : Nat) :
    SamePoison s (t.channelEvent p c tag) := by
  unfold State.channelEvent
  dsimp only
  split
  · refine SamePoison.retireChannel ?_ p c tag
    exact h.of_eq rfl rfl
  · exact h.of_eq rfl rfl

theorem State.linkFailed_samePoison (s : State) (k f e tag : Nat) : SamePoison s (s.linkFailed k f e tag) := by
  have hread : rk 0x1100 3 ≠ rk (0x8820 + k / 8) (k % 8) := by unfold rk; omega
  have hretry : rk 0x1100 3 ≠ rk (0x8830 + k / 8) (k % 8) := by unfold rk; omega
  have herrs : SamePoison s { s with linkErrs := SMap.del k s.linkErrs } := SamePoison.refl.of_eq rfl rfl
  exact ((herrs.setReg hread _).setReg hretry _).channelEvent _ _ tag

/-! The statement. -/

/-- A read over a range with a poisoned word delivers no byte of it: on the way to the word nothing cures it (R74). -/
theorem State.readMem_poisoned {s : State} {a len : Nat} (h : ∃ w ∈ wordsOf a len, s.poisoned w = true) (tag : Nat) :
    (s.readMem a len tag).2 = (.eccUncorrectable, []) := by
  obtain ⟨w, hw, hpoisoned⟩ := h
  unfold readMem
  split
  next t hlink =>
    have hpoison : t.poison = s.poison := by
      have := linkRead_delivered (s := s) (a := a) (len := len) (tag := tag) (by rw [hlink])
      rwa [hlink] at this
    have hfail : (t.readWords tag (wordsOf a len)).2 ≠ true := by
      intro hok
      have := readWords_delivered hok w hw
      rw [poisoned, hpoison, ← poisoned, hpoisoned] at this
      exact absurd this (by decide)
    simp [readArray, hfail]
  · rfl

/-- Settles O33: a poisoned word stays poisoned until the read reaches it; sound words are passed over; and a failed link is an
event of its channel, which poisons nothing. -/
theorem poisonIsNotDelivered : Obligations.PoisonIsNotDelivered := by
  intro s a len tag
  refine ⟨fun h => State.readMem_poisoned h tag, fun hsound hlink => ?_, fun k f e ha hk herr hf => ?_⟩
  · simp [State.readMem, State.linkRead_sound hlink, State.readArray, State.readWords_sound hsound]
  · rw [State.readMem, State.linkRead_failed ha hk herr hf]
    exact ⟨rfl, fun hoff => (s.linkFailed_samePoison k f e tag hoff).1⟩

end Sys2Proof.Machine
end

section
/-! O35 and O36: barrier objects and the ends of slot rings (R99 to R102, R118, R119). -/

namespace Sys2Proof.Machine

/-- The barrier object that was written, and the others. -/
theorem State.barrier_setBarrier (s : State) (d b e c : Nat) (x : Barrier) :
    (s.setBarrier d b x).barrier e c = if e * 256 + c = d * 256 + b then x else s.barrier e c := get_putD ..

/-- Settles O35: an arrival writes its own object only, and the condition of a wait is a comparison modulo 2^16. -/
theorem barrierCounts : Obligations.BarrierCounts := by
  refine ⟨fun s d b => ⟨fun hne => ?_, fun heq => ?_, fun e c hother => ?_, rfl, rfl, rfl⟩, ?_⟩
  · rw [State.arriveAt, State.barrier_setBarrier, if_pos rfl, Barrier.arrive, if_neg hne]
  · rw [State.arriveAt, State.barrier_setBarrier, if_pos rfl, Barrier.arrive, if_pos heq]
  · rw [State.arriveAt, State.barrier_setBarrier, if_neg hother]
  · intro b target k hphase htarget hk hdist
    rw [Barrier.reached, decide_eq_true_iff]
    omega

/-- The ring that was written. -/
theorem State.ring_setRing (s : State) (n rn : Nat) (x : Ring) : (s.setRing n rn x).ring n rn = some x := by
  rw [ring, setRing, modCore, core_setCore, if_pos rfl, find_put]

/-- A change of a core that leaves its rings leaves each of them. -/
theorem State.ring_modCore {f : Core → Core} (hf : ∀ c, (f c).rings = c.rings) (s : State) (n rn : Nat) :
    (s.modCore n f).ring n rn = s.ring n rn := by
  rw [ring, modCore, core_setCore, if_pos rfl, hf, ← ring]

/-- A ring whose producer has committed a slot with a seal, a stamp and its record (R99, R101). -/
def Ring.commit (r : Ring) (sl stamp : Nat) (x : Option SlotRec) : Ring :=
  { r with tail := (r.tail + 1) % 65536, prodPos := (r.prodPos + 1) % r.slots, seals := SMap.put r.prodPos sl r.seals,
           stamps := SMap.put r.prodPos stamp r.stamps,
           recs := match x with
             | some x => SMap.put r.prodPos x r.recs
             | none => SMap.del r.prodPos r.recs }

/-- A ring whose consumer has released its head slot (R102). -/
def Ring.release (r : Ring) : Ring :=
  { r with head := (r.head + 1) % 65536, consPos := (r.consPos + 1) % r.slots, kept := r.kept - 1,
           hd := if decide (0 < r.kept) then r.hd else .unseen, busy := decide (0 < r.kept) && r.busy, ord := r.ord + 1,
           seals := SMap.del r.consPos r.seals, stamps := SMap.del r.consPos r.stamps, recs := SMap.del r.consPos r.recs,
           fetched := if decide (0 < r.kept) then r.fetched else [],
           twice := if decide (0 < r.kept) then r.twice else [] }

theorem State.commitSlot_eq {s : State} {n rn : Nat} {r : Ring} (h : s.ring n rn = some r) (x : Option SlotRec) :
    s.commitSlot n rn x = (s.setRing n rn (r.commit (s.slotSeal n r r.prodPos) (s.core n).commits x)).modCore n fun c =>
      { c with commits := c.commits + 1 } := by
  rw [commitSlot, h]
  rfl

theorem State.releaseSlot_eq {s : State} {n rn : Nat} {r : Ring} (h : s.ring n rn = some r) :
    s.releaseSlot n rn = s.setRing n rn r.release := by
  rw [releaseSlot, h]
  rfl

/-- The seal of the slot that was committed is the one recorded (R101). -/
theorem Ring.get_seals_commit (r : Ring) (sl stamp : Nat) (x : Option SlotRec) :
    SMap.get 0 (r.commit sl stamp x).seals r.prodPos = sl := get_put 0 r.prodPos sl r.seals

/-- Settles O36: each operation writes one ring, whose counts are those of the statement. -/
theorem ringCounts : Obligations.RingCounts := by
  intro s n rn r x hring htail hhead
  rw [State.commitSlot_eq hring, State.releaseSlot_eq hring]
  have hcommit := (State.ring_modCore (f := fun c => { c with commits := c.commits + 1 }) (fun _ => rfl)
    (s.setRing n rn (r.commit (s.slotSeal n r r.prodPos) (s.core n).commits x)) n rn).trans (State.ring_setRing ..)
  refine ⟨⟨_, hcommit, rfl, rfl, rfl, rfl, Ring.get_seals_commit .., fun hheld => ?_⟩,
    ⟨r.release, State.ring_setRing .., rfl, rfl, rfl, rfl, fun hheld => ?_⟩, ?_, ?_⟩
  · simp only [Ring.held, Ring.commit] at hheld ⊢
    omega
  · simp only [Ring.held, Ring.release] at hheld ⊢
    omega
  · rw [State.modCore_mem, State.setRing_mem]
  · rw [State.setRing_mem]

end Sys2Proof.Machine
end

section
/-! O41: the sending rate of a queue pair (R318). -/

namespace Sys2Proof.Machine

/-- The queue pair that was written, and the others. -/
theorem State.qp_setQp (s : State) (p r : HostPort) (q u : QpNo) (x : Qp) :
    (s.setQp p.val q.val x).qp r.val u.val = if (r, u) = (p, q) then x else s.qp r.val u.val := by
  have hkey : (r, u) = (p, q) ↔ r.val * 1024 + u.val = p.val * 1024 + q.val := by
    refine ⟨fun h => by cases h; rfl, fun h => ?_⟩
    have hport : r = p := Fin.ext (by omega)
    have hpair : u = q := Fin.ext (by omega)
    rw [hport, hpair]
  rw [qp, setQp, get_putD, ite_congr (propext hkey.symm) (fun _ => rfl) (fun _ => rfl), ← qp]

/-- What a change of the rate of one queue pair does to every queue pair. -/
def RateChange (p : HostPort) (q : QpNo) (f : Nat → Nat) (s t : State) : Prop :=
  t.events = s.events ∧ ∀ (r : HostPort) (u : QpNo),
    t.qp r.val u.val = if (r, u) = (p, q) then { s.qp p.val q.val with rate := f (s.qp p.val q.val).rate }
      else s.qp r.val u.val

theorem RateChange.id (p : HostPort) (q : QpNo) (s : State) : RateChange p q (fun v => v) s s := by
  refine ⟨rfl, fun r u => ?_⟩
  split
  next h => cases h; rfl
  · rfl

theorem RateChange.setQp {s t : State} (p : HostPort) (q : QpNo) (f : Nat → Nat) (he : t.events = s.events)
    (hq : t.qps = s.qps) :
    RateChange p q f s (t.setQp p.val q.val { s.qp p.val q.val with rate := f (s.qp p.val q.val).rate }) := by
  refine ⟨he, fun r u => ?_⟩
  rw [State.qp_setQp]
  congr 1
  rw [State.qp, hq, ← State.qp]

/-- A CNP halves the rate, down to 1 Gbit/s, or finds no queue pair to act on (R318). -/
theorem State.doCnp_rate (s : State) (p : HostPort) (q : QpNo) :
    RateChange p q (fun v => max 1000000000 (v / 2)) s (s.doCnp p.val q.val) ∨ s.doCnp p.val q.val = s := by
  unfold doCnp
  split
  · exact Or.inl (RateChange.setQp p q _ rfl rfl)
  · exact Or.inr rfl

/-- Recovery raises the rate by 4 Gbit/s, up to line rate, or finds no queue pair to act on (R318). -/
theorem State.doCnpRecovery_rate (s : State) (p : HostPort) (q : QpNo) :
    RateChange p q (fun v => min lineRate (v + 4000000000)) s (s.doCnpRecovery p.val q.val) ∨
      s.doCnpRecovery p.val q.val = s := by
  unfold doCnpRecovery
  split
  · exact Or.inr rfl
  · exact Or.inl (RateChange.setQp p q _ rfl rfl)

/-- A change that keeps the range keeps every rate in it, and changes no other queue pair. -/
theorem RateChange.in_range {p : HostPort} {q : QpNo} {f : Nat → Nat} {s t : State} (h : RateChange p q f s t)
    (hf : ∀ v, 1000000000 ≤ v ∧ v ≤ lineRate → 1000000000 ≤ f v ∧ f v ≤ lineRate) (r : HostPort) (u : QpNo) :
    (1000000000 ≤ (s.qp r.val u.val).rate ∧ (s.qp r.val u.val).rate ≤ lineRate →
      1000000000 ≤ (t.qp r.val u.val).rate ∧ (t.qp r.val u.val).rate ≤ lineRate) ∧
    ((r, u) ≠ (p, q) → t.qp r.val u.val = s.qp r.val u.val) := by
  rw [h.2 r u]
  refine ⟨fun hrange => ?_, fun hne => if_neg hne⟩
  split
  next heq => cases heq; exact hf _ hrange
  · exact hrange

/-- Settles O41: either row changes one rate, by a map that keeps the range. -/
theorem ratesStayInRange : Obligations.RatesStayInRange := by
  intro p r q u s t hcalm hexec
  have hchange : ∃ f, RateChange p q f s t ∧
      ∀ v, 1000000000 ≤ v ∧ v ≤ lineRate → 1000000000 ≤ f v ∧ f v ≤ lineRate := by
    rcases hexec with hexec | hexec
    · have ht : t = (s.doCnp p.val q.val).settle := (Host.Outcome.next.inj hexec).symm
      rcases s.doCnp_rate p q with h | h
      · rw [State.settle_calm _ (h.1.trans hcalm)] at ht
        exact ⟨_, ht ▸ h, fun v hv => by unfold lineRate at *; omega⟩
      · rw [h, State.settle_calm _ hcalm] at ht
        exact ⟨_, ht ▸ RateChange.id p q s, fun v hv => hv⟩
    · have ht : t = (s.doCnpRecovery p.val q.val).settle := (Host.Outcome.next.inj hexec).symm
      rcases s.doCnpRecovery_rate p q with h | h
      · rw [State.settle_calm _ (h.1.trans hcalm)] at ht
        exact ⟨_, ht ▸ h, fun v hv => by unfold lineRate at *; omega⟩
      · rw [h, State.settle_calm _ hcalm] at ht
        exact ⟨_, ht ▸ RateChange.id p q s, fun v hv => hv⟩
  obtain ⟨f, h, hf⟩ := hchange
  exact h.in_range hf r u

end Sys2Proof.Machine
end

section
/-! O11: a k-step of the array (R24, R28). -/

namespace Sys2Proof.Machine

/-- The operands of row i and column j in a k-step (R24): those of A's row with those of B's column, zero beyond N. -/
def Prod.cellOperands (q : Prod) (a b : Bytes) (nt st i j : Nat) : List (FVal × FVal) :=
  (List.range q.p).map fun e =>
    (elemA q.fa q.ta q.kcA q.slotA a i (q.p * st + e),
      if q.wid * nt + j < q.nn then elemB q.fb q.tb q.nn q.kk q.kcB q.slotB b (q.p * st + e) (q.wid * nt + j)
      else .fin false 0 0)

/-- A k-step updates the accumulators row by row, each with the operands of its cell. -/
theorem Prod.stepAcc_eq (q : Prod) (a b : Bytes) (nt st : Nat) (acc : List W32) :
    q.stepAcc a b nt st acc = List.zipWith cellUpdate acc
      ((List.range 32).flatMap fun i => (List.range q.wid).map (q.cellOperands a b nt st i)) := by
  unfold stepAcc
  dsimp only
  rw [List.map_zip_eq_zipWith, List.flatMap_map]
  simp only [List.map_map, Function.comp_def, List.zip_map']
  rfl

theorem length_flatMap_range {α : Type} (f : Nat → Nat → α) (m n : Nat) :
    ((List.range m).flatMap fun i => (List.range n).map (f i)).length = m * n := by
  induction m with
  | zero => rw [Nat.zero_mul]; rfl
  | succ m ih =>
    rw [List.range_succ, List.flatMap_append, List.length_append, ih, List.flatMap_cons, List.flatMap_nil, List.append_nil,
      List.length_map, List.length_range, Nat.succ_mul]

/-- Row i, place j of a table that is listed row by row. -/
theorem getElem?_flatMap_range {α : Type} (f : Nat → Nat → α) {m n i j : Nat} (hi : i < m) (hj : j < n) :
    ((List.range m).flatMap fun i => (List.range n).map (f i))[i * n + j]? = some (f i j) := by
  induction m with
  | zero => exact absurd hi (Nat.not_lt_zero i)
  | succ m ih =>
    have hlen := length_flatMap_range f m n
    rw [List.range_succ, List.flatMap_append, List.flatMap_cons, List.flatMap_nil, List.append_nil]
    by_cases him : i < m
    · have hplace : i * n + j < m * n := by
        have := Nat.mul_le_mul_right n him
        rw [Nat.succ_mul] at this
        omega
      rw [List.getElem?_append_left (by rwa [hlen]), ih him]
    · obtain rfl : i = m := by omega
      rw [List.getElem?_append_right (by rw [hlen]; omega), hlen, Nat.add_sub_cancel_left, List.getElem?_map,
        List.getElem?_range hj]
      rfl

/-- Settles O11: a k-step pairs each accumulator with the operands of its own row and column. -/
theorem stepAccShape : Obligations.StepAccShape := by
  intro q a b nt st acc hacc
  rw [Prod.stepAcc_eq]
  refine ⟨by rw [List.length_zipWith, length_flatMap_range, hacc, Nat.min_self], fun i j hi hj => ?_⟩
  rw [List.getElem?_zipWith, getElem?_flatMap_range _ hi hj]
  cases acc[i * q.wid + j]? <;> rfl

end Sys2Proof.Machine
end

section
/-! O14: the iteration vectors of a command (R131). -/

namespace Sys2Proof.Machine

/-! With the innermost level first, an iteration vector is its number in mixed radix. -/

theorem iterAtRev_zero (cs : List Nat) : iterAtRev cs 0 = cs.map fun _ => 0 := by
  induction cs with
  | nil => rfl
  | cons c cs ih => rw [iterAtRev, Nat.zero_mod, Nat.zero_div, ih, List.map_cons]

/-- The next vector is that of the next number, until the last. -/
theorem nextIterRev_iterAtRev {cs : List Nat} (hcs : ∀ c ∈ cs, 0 < c) {i : Nat} (hi : i < cs.prod) :
    nextIterRev cs (iterAtRev cs i) = if i + 1 < cs.prod then some (iterAtRev cs (i + 1)) else none := by
  induction cs generalizing i with
  | nil => exact (if_neg (by rw [List.prod_nil] at hi ⊢; omega)).symm
  | cons c cs ih =>
    obtain ⟨hc, hcs⟩ := List.forall_mem_cons.mp hcs
    rw [List.prod_cons] at hi ⊢
    have hdiv : i / c < cs.prod := Nat.div_lt_of_lt_mul hi
    have hsplit := Nat.div_add_mod i c
    have hmod := Nat.mod_lt i hc
    rw [iterAtRev, iterAtRev, nextIterRev, ih hcs hdiv]
    by_cases hlow : i % c + 1 < c
    · have hnext : i + 1 = (i % c + 1) + c * (i / c) := by omega
      have hlt : i + 1 < c * cs.prod := by
        have := Nat.mul_le_mul_left c hdiv
        rw [Nat.succ_eq_add_one, Nat.mul_succ] at this
        omega
      rw [if_pos hlow, if_pos hlt, hnext, Nat.add_mul_mod_self_left, Nat.mod_eq_of_lt hlow,
        Nat.add_mul_div_left _ _ hc, Nat.div_eq_of_lt hlow, Nat.zero_add]
    · have hnext : i + 1 = c * (i / c + 1) := by rw [Nat.mul_succ]; omega
      rw [if_neg hlow, hnext, Nat.mul_mod_right, Nat.mul_div_cancel_left _ hc]
      by_cases hmore : i / c + 1 < cs.prod
      · rw [if_pos hmore, if_pos (Nat.mul_lt_mul_of_pos_left hmore hc)]
      · rw [if_neg hmore, if_neg (by rwa [Nat.mul_lt_mul_left hc])]

/-- Every vector within the counts has a number. -/
theorem exists_iterAtRev {cs v : List Nat} (hlen : v.length = cs.length)
    (hlt : ∀ (l : Nat) (hv : l < v.length) (hc : l < cs.length), v[l] < cs[l]) :
    ∃ i, i < cs.prod ∧ iterAtRev cs i = v := by
  induction cs generalizing v with
  | nil =>
    rw [List.length_eq_zero_iff.mp hlen]
    exact ⟨0, by decide, rfl⟩
  | cons c cs ih =>
    cases v with
    | nil => exact absurd hlen (by simp only [List.length_nil, List.length_cons]; omega)
    | cons x v =>
      have hx : x < c := hlt 0 (Nat.succ_pos _) (Nat.succ_pos _)
      have hc : 0 < c := Nat.lt_of_le_of_lt (Nat.zero_le x) hx
      obtain ⟨i, hi, rfl⟩ := ih (Nat.succ.inj hlen) fun l hv hc =>
        hlt (l + 1) (Nat.succ_lt_succ hv) (Nat.succ_lt_succ hc)
      refine ⟨x + c * i, ?_, ?_⟩
      · have := Nat.mul_le_mul_left c hi
        rw [Nat.succ_eq_add_one, Nat.mul_succ] at this
        rw [List.prod_cons]
        omega
      · rw [iterAtRev, Nat.add_mul_mod_self_left, Nat.mod_eq_of_lt hx, Nat.add_mul_div_left _ _ hc, Nat.div_eq_of_lt hx,
          Nat.zero_add]

/-- A product of positive counts is positive. -/
theorem prod_pos_of_forall_pos {cs : List Nat} (hcs : ∀ c ∈ cs, 0 < c) : 0 < cs.prod := by
  induction cs with
  | nil => decide
  | cons c cs ih =>
    rw [List.prod_cons]
    exact Nat.mul_pos (hcs c List.mem_cons_self) (ih fun d hd => hcs d (List.mem_cons_of_mem c hd))

theorem iterCount_eq_prod (counts : List Nat) : iterCount counts = counts.reverse.prod := by
  rw [List.prod_reverse, List.prod_eq_foldl, iterCount]

theorem iterCount_pos {counts : List Nat} (hcounts : ∀ c ∈ counts, 0 < c) : 0 < iterCount counts := by
  rw [iterCount_eq_prod, List.prod_reverse]
  exact prod_pos_of_forall_pos hcounts

/-- The next vector of a command is that of the next number, until the last (R131). -/
theorem nextIter_iterAt {counts : List Nat} (hcounts : ∀ c ∈ counts, 0 < c) {i : Nat} (hi : i < iterCount counts) :
    nextIter counts (iterAt counts i) = if i + 1 < iterCount counts then some (iterAt counts (i + 1)) else none := by
  rw [iterCount_eq_prod] at hi ⊢
  rw [nextIter, iterAt, List.reverse_reverse,
    nextIterRev_iterAtRev (fun c hc => hcounts c (List.mem_reverse.mp hc)) hi]
  split <;> rfl

/-- Settles O14. -/
theorem iterationOrder : Obligations.IterationOrder := by
  intro counts hcounts
  have hpos := iterCount_pos hcounts
  refine ⟨?_, fun i hi => ?_, ?_, fun v hlen hv => ?_⟩
  · rw [iterAt, iterAtRev_zero, List.map_reverse, List.reverse_reverse]
  · rw [nextIter_iterAt hcounts (by omega), if_pos hi]
  · rw [nextIter_iterAt hcounts (by omega), if_neg (by omega)]
  · have hrev : v.reverse.length = counts.reverse.length := by rw [List.length_reverse, List.length_reverse, hlen]
    obtain ⟨i, hi, hiter⟩ := exists_iterAtRev hrev fun l hl hl' => by
      rw [List.length_reverse] at hl'
      have := hv (counts.length - 1 - l) (by omega)
      rw [List.getD_eq_getElem?_getD, List.getD_eq_getElem?_getD, List.getElem?_eq_getElem (by omega),
        List.getElem?_eq_getElem (by omega), Option.getD_some, Option.getD_some] at this
      simp only [List.getElem_reverse, hlen]
      exact this
    refine ⟨i, by rwa [iterCount_eq_prod], ?_⟩
    rw [iterAt, hiter, List.reverse_reverse]

end Sys2Proof.Machine
end

section
/-! O13: seals of blocks, formed and checked (R177, R178). -/

namespace Sys2Proof.Machine

theorem length_natLe (len v : Nat) : (natLe len v).length = len := by
  induction len generalizing v with
  | zero => rfl
  | succ len ih => rw [natLe, List.length_cons, ih]

/-- A piece of k bytes in front is cut off whole. -/
theorem chunksAux_append {k n : Nat} {bs rest : Bytes} (hk : 0 < k) (hbs : bs.length = k) :
    chunksAux k (n + 1) (bs ++ rest) = bs :: chunksAux k n rest := by
  have hne : bs ++ rest ≠ [] := List.append_ne_nil_of_left_ne_nil (List.ne_nil_of_length_pos (hbs ▸ hk)) rest
  rw [chunksAux]
  · rw [List.take_left' hbs, List.drop_left' hbs]
  · exact hne

/-- The bytes of words are cut into those words again (R10). -/
theorem chunksAux_unwords32 {ws : List W32} {n : Nat} (hn : ws.length ≤ n) :
    chunksAux 4 n (unwords32 ws) = ws.map fun w => natLe 4 w.toNat := by
  induction ws generalizing n with
  | nil => cases n <;> rfl
  | cons w t ih =>
    obtain ⟨m, rfl⟩ : ∃ m, n = m + 1 := ⟨n - 1, by rw [List.length_cons] at hn; omega⟩
    rw [unwords32, List.flatMap_cons, chunksAux_append (by decide) (length_natLe ..), ← unwords32,
      ih (Nat.le_of_succ_le_succ hn), List.map_cons]

theorem length_unwords32 (ws : List W32) : (unwords32 ws).length = 4 * ws.length := by
  induction ws with
  | nil => rfl
  | cons w ws ih =>
    rw [unwords32, List.flatMap_cons, List.length_append, length_natLe, ← unwords32, ih, List.length_cons]
    omega

/-- Words are read back from their bytes (R10). -/
theorem words32_unwords32 (ws : List W32) : words32 (unwords32 ws) = ws := by
  have hword (w : W32) : BitVec.ofNat 32 (leNat (natLe 4 w.toNat)) = w := by
    rw [leNat_natLe_eq_mod, Nat.mod_eq_of_lt (show w.toNat < 256 ^ 4 from w.isLt), BitVec.ofNat_toNat, BitVec.setWidth_eq]
  rw [words32, chunks, if_neg (by decide), chunksAux_unwords32 (by rw [length_unwords32]; omega), List.map_map]
  exact List.map_id'' hword ws

/-- CHECK_SEAL lists a block with a seal exactly when that is the seal of its bytes and not the one recorded for it. -/
theorem mem_sealDiffs {data : Bytes} {seals : List W32} {i v : Nat} :
    (i, v) ∈ sealDiffs data (unwords32 seals) ↔
      ∃ b w, (blocksOf data)[i]? = some b ∧ seals[i]? = some w ∧ v = (crc32c b).toNat ∧ crc32c b ≠ w := by
  rw [sealDiffs, words32_unwords32, List.mem_filterMap]
  constructor
  · rintro ⟨⟨⟨b, w⟩, j⟩, hmem, hsome⟩
    obtain ⟨hb, hw⟩ := List.getElem?_zip_eq_some.mp (List.mem_zipIdx_iff_getElem?.mp hmem)
    dsimp only at hsome
    split at hsome
    · exact absurd hsome (by simp)
    next hne =>
      cases hsome
      exact ⟨b, w, hb, hw, rfl, hne⟩
  · rintro ⟨b, w, hb, hw, rfl, hne⟩
    exact ⟨((b, w), i), List.mem_zipIdx_iff_getElem?.mpr (List.getElem?_zip_eq_some.mpr ⟨hb, hw⟩), if_neg hne⟩

/-- Settles O13: a difference names a block and its recorded seal; where each recorded seal is that of its block, none can. -/
theorem sealsAgree : Obligations.SealsAgree := by
  refine ⟨fun data => List.eq_nil_iff_forall_not_mem.mpr ?_, fun _ _ _ _ _ => mem_sealDiffs⟩
  rintro ⟨i, v⟩ hmem
  obtain ⟨b, w, hb, hw, -, hne⟩ := mem_sealDiffs.mp hmem
  rw [List.getElem?_map, hb] at hw
  exact hne (Option.some.inj hw)

end Sys2Proof.Machine
end

section
/-! O8: the end of a vector iteration (R131, R133). -/

namespace Sys2Proof.Machine

/-- The command at which a context runs is the command that it holds. -/
theorem State.cmd_of_running {s : State} {n h : Nat} {k : CmdRun} (hk : s.running n h = some k) :
    (s.ctx n h).cmd = some k := by
  rw [running] at hk
  split at hk
  · exact (Option.filter_eq_some_iff.mp hk).1
  · exact absurd hk (by simp)

/-- No slot may be taken for a kernel whose inputs have all been read. -/
theorem Kernel.find?_mayTake {q : Kernel} {k : CmdRun} (hread : q.read k = true) (s : State) (n : Nat) :
    q.ins.find? (s.mayTake n k q.ins) = none := by
  rw [List.find?_eq_none]
  intro e he
  have hfull : k.full e.1 e.2.1 = true := List.all_eq_true.mp hread e he
  simp [State.mayTake, hfull]

/-- Reading goes no further once every input has been read. -/
theorem State.pullAll_read {s : State} {n h : Nat} {q : Kernel} {k : CmdRun} (hk : s.running n h = some k)
    (hread : q.read k = true) (fuel : Nat) : s.pullAll n h q fuel = s := by
  cases fuel with
  | zero => rfl
  | succ fuel => rw [pullAll, hk]; dsimp only; rw [Kernel.find?_mayTake hread]

theorem length_sliceZ (bs : Bytes) (off len : Nat) : (sliceZ bs off len).length = len := by
  simp only [sliceZ, slice, List.length_append, List.length_take, List.length_replicate]
  omega

/-- An output that has been committed whole is not pushed again. -/
theorem State.push_pushed {s : State} {n h r : Nat} {k : CmdRun} {out : Bytes} (hk : (s.ctx n h).cmd = some k)
    (hpushed : k.pushed r out.length = true) (whole : Bool) (fuel : Nat) : s.push n h r out whole fuel = s := by
  have hrest : out.length - SMap.get 0 k.outDone r = 0 := Nat.sub_eq_zero_of_le (of_decide_eq_true hpushed)
  cases fuel with
  | zero => rfl
  | succ fuel =>
    rw [push, hk]
    dsimp only
    split
    · rfl
    · rw [hrest, if_pos (by simp)]

/-- A fold whose every step leaves the state leaves it. -/
theorem foldl_fixed_of_mem {α β : Type} {f : β → α → β} {l : List α} {b : β} (h : ∀ e ∈ l, f b e = b) :
    l.foldl f b = b := by
  induction l with
  | nil => rfl
  | cons a t ih =>
    rw [List.foldl_cons, h a (List.mem_cons_self ..)]
    exact ih fun e he => h e (List.mem_cons_of_mem a he)

/-- A kernel whose outputs have all been committed ends its iteration (R133). -/
theorem State.vecOut_pushed {s : State} {n h : Nat} {q : Kernel} {k : CmdRun} (hk : (s.ctx n h).cmd = some k)
    (hread : q.read k = true) (hpushed : ∀ e ∈ q.outs, k.pushed e.1 e.2 = true) :
    s.vecOut n h q =
      ((q.ins.foldl (fun (s : State) e => if e.2.2 then s.dropKept n (cRole k.word e.1) 16 else s) s).modCmd n h fun z =>
        { z with note := z.note ++ q.note (q.input k),
                 failed := z.failed + (q.note (q.input k)).length }).endIter n h k := by
  have hpush : q.outs.foldl (fun (s : State) e => s.push n h e.1 (sliceZ (q.bytes k e.1) 0 e.2) true (e.2 + 1)) s = s :=
    foldl_fixed_of_mem fun e he => push_pushed hk (by rw [length_sliceZ]; exact hpushed e he) true _
  have hall : (q.outs.all fun e => k.pushed e.1 e.2) = true := List.all_eq_true.mpr hpushed
  simp only [vecOut, hk, hread, if_true, hpush, hall, Bool.and_self]

/-- Settles O8: nothing is left to read or to push, so the step goes on to the end of the iteration. -/
theorem vectorIterationEnds : Obligations.VectorIterationEnds := by
  intro n h s k kern hk hread hpushed
  simp only [State.vecStep, State.pullAll_read hk hread, hk]
  exact State.vecOut_pushed (State.cmd_of_running hk) hread hpushed

end Sys2Proof.Machine
end

section
/-! O34: the address decode of LPDDR5X, its check bits and error classes (R258, R260). -/

namespace Sys2Proof.Machine

/-! Lists without repeats. -/

/-- In a list without repeats an element is found at its own place. -/
theorem findIdx?_getElem {l : List Nat} (hl : l.Nodup) {i : Nat} (hi : i < l.length) :
    l.findIdx? (· == l[i]) = some i := by
  refine List.findIdx?_eq_some_iff_getElem.mpr ⟨hi, beq_self_eq_true _, fun j hj heq => ?_⟩
  exact List.pairwise_iff_getElem.mp hl j i _ hi hj (beq_iff_eq.mp heq)

theorem getD_getElem? {l : List Nat} {i : Nat} (hi : i < l.length) : (l[i]?).getD 0 = l[i] := by
  rw [List.getElem?_eq_getElem hi, Option.getD_some]

theorem State.goodChannels_nodup (s : State) (p : Nat) : (s.goodChannels p).Nodup := List.nodup_range.filter _

theorem State.layer_nodup (s : State) (j : Nat) : (s.layer j).Nodup := List.nodup_range.filter _

theorem State.mem_layer {s : State} {j p : Nat} : p ∈ s.layer j ↔ p < 16 ∧ j < (s.goodChannels p).length := by
  rw [layer, List.mem_filter, List.mem_range, decide_eq_true_iff]

/-- A package of a layer stands in every layer before it. -/
theorem State.length_layer_succ_le (s : State) (j : Nat) : (s.layer (j + 1)).length ≤ (s.layer j).length := by
  refine (s.layer_nodup (j + 1)).length_le_of_subset fun p hp => ?_
  obtain ⟨hp16, hgood⟩ := mem_layer.mp hp
  exact mem_layer.mpr ⟨hp16, by omega⟩

theorem State.length_layer_le (s : State) {i j : Nat} (hij : i ≤ j) : (s.layer j).length ≤ (s.layer i).length := by
  induction hij with
  | refl => exact Nat.le_refl _
  | step _ ih => exact Nat.le_trans (s.length_layer_succ_le _) ih

/-! One layer: 4 KiB pieces over its packages, 256 B pieces over the channels of a package (R258). -/

/-- Package, channel and channel address of a place within layer j. -/
def State.layerPlace (s : State) (j a : Nat) : Nat × Nat × Nat :=
  let l := s.layer j
  let pkg := (l[a / 4096 % l.length]?).getD 0
  let k := (j * chBytes + a / 4096 / l.length * 4096 + a % 4096) / 256
  let good := s.goodChannels pkg
  (pkg, (good[k % good.length]?).getD 0, k / good.length * 256 + a % 256)

/-- A place within a layer decodes to a good channel of a package of the layer, within the channel, and encodes to itself. -/
theorem State.layerPlace_spec (s : State) {j a : Nat} (ha : a < (s.layer j).length * chBytes) :
    (s.layerPlace j a).1 < 16 ∧ (s.layerPlace j a).2.1 ∈ s.goodChannels (s.layerPlace j a).1 ∧
    (s.layerPlace j a).2.2 < chBytes ∧
    s.lpEncode (s.layerPlace j a).1 (s.layerPlace j a).2.1 (s.layerPlace j a).2.2 = some (s.layerBase j + a) := by
  have hl : 0 < (s.layer j).length := Nat.pos_of_ne_zero fun h0 => by rw [h0] at ha; omega
  have hpkg : a / 4096 % (s.layer j).length < (s.layer j).length := Nat.mod_lt _ hl
  have hrow : a / 4096 / (s.layer j).length < 0x1E0000 := by
    refine Nat.div_lt_of_lt_mul ?_
    unfold chBytes at ha
    omega
  have hpiece := Nat.div_add_mod' (a / 4096) (s.layer j).length
  simp only [layerPlace, lpEncode, getD_getElem? hpkg]
  obtain ⟨hp16, hgood⟩ := mem_layer.mp (List.getElem_mem hpkg)
  have hfound := findIdx?_getElem (s.layer_nodup j) hpkg
  generalize (s.layer j)[a / 4096 % (s.layer j).length] = p at hp16 hgood hfound ⊢
  generalize a / 4096 / (s.layer j).length = row at hrow hpiece ⊢
  generalize hinn : j * chBytes + row * 4096 + a % 4096 = inn
  unfold chBytes at hinn
  have hg : 0 < (s.goodChannels p).length := by omega
  have hchan : inn / 256 % (s.goodChannels p).length < (s.goodChannels p).length := Nat.mod_lt _ hg
  have hplace := Nat.div_add_mod' (inn / 256) (s.goodChannels p).length
  have haddr : inn / 256 / (s.goodChannels p).length < 0x1E00000 := by
    refine Nat.div_lt_of_lt_mul ?_
    omega
  rw [getD_getElem? hchan, findIdx?_getElem (s.goodChannels_nodup p) hchan]
  generalize inn / 256 / (s.goodChannels p).length = q at haddr hplace ⊢
  have hback : ((q * 256 + a % 256) / 256 * (s.goodChannels p).length + inn / 256 % (s.goodChannels p).length) * 256
      + (q * 256 + a % 256) % 256 = inn := by
    have hlow : (q * 256 + a % 256) % 256 = inn % 256 := by omega
    rw [show (q * 256 + a % 256) / 256 = q by omega, hplace, hlow, Nat.div_add_mod']
  refine ⟨hp16, List.getElem_mem hchan, ?_, ?_⟩
  · unfold chBytes
    omega
  · dsimp only
    rw [hback, show inn / chBytes = j by unfold chBytes; omega, hfound, Option.map_some,
      show inn % chBytes / 4096 = row by unfold chBytes; omega, hpiece]
    congr 1
    omega

/-! The layers one after another. -/

theorem State.layerBase_succ (s : State) (j : Nat) :
    s.layerBase (j + 1) = s.layerBase j + (s.layer j).length * chBytes := by
  simp [layerBase, List.range_succ]

theorem State.lpUsable_eq (s : State) : s.lpUsable = s.layerBase 8 := rfl

/-- Past an empty layer nothing is usable. -/
theorem State.layerBase_of_empty {s : State} {j n : Nat} (hj : (s.layer j).length = 0) :
    s.layerBase (j + n) = s.layerBase j := by
  induction n with
  | zero => rfl
  | succ n ih =>
    have hn := s.length_layer_le (Nat.le_add_right j n)
    rw [← Nat.add_assoc, layerBase_succ, ih, show (s.layer (j + n)).length = 0 by omega, Nat.zero_mul, Nat.add_zero]

/-- From layer j on, the decode finds the layer of a usable address, and the place within it. -/
theorem State.lpDecodeFrom_eq (s : State) {fuel j a : Nat} (ha : s.layerBase j + a < s.layerBase (j + fuel)) :
    ∃ i b, s.lpDecodeFrom fuel j a = s.layerPlace i b ∧ b < (s.layer i).length * chBytes ∧
      s.layerBase i + b = s.layerBase j + a := by
  induction fuel generalizing j a with
  | zero => exact absurd ha (by rw [Nat.add_zero]; omega)
  | succ fuel ih =>
    rw [lpDecodeFrom]
    dsimp only
    by_cases hbeyond : (s.layer j).length * chBytes ≤ a
    · have hne : (s.layer j).length ≠ 0 := fun h0 => by rw [layerBase_of_empty h0] at ha; omega
      have hbase := s.layerBase_succ j
      rw [if_pos hbeyond, if_neg hne]
      obtain ⟨i, b, hdec, hb, hsum⟩ := ih (j := j + 1) (a := a - (s.layer j).length * chBytes)
        (by rw [Nat.add_right_comm, Nat.add_assoc]; omega)
      exact ⟨i, b, hdec, hb, by omega⟩
    · rw [if_neg hbeyond]
      exact ⟨j, a, rfl, by omega, rfl⟩

/-- The decode of a usable address is that of its place within its layer. -/
theorem State.lpDecode_spec (s : State) {a : Nat} (ha : a < s.lpUsable) :
    (s.lpDecode a).1 < 16 ∧ (s.lpDecode a).2.1 ∈ s.goodChannels (s.lpDecode a).1 ∧ (s.lpDecode a).2.2 < chBytes ∧
    s.lpEncode (s.lpDecode a).1 (s.lpDecode a).2.1 (s.lpDecode a).2.2 = some a := by
  have hbase : s.layerBase 0 = 0 := rfl
  obtain ⟨i, b, hdec, hb, hsum⟩ := s.lpDecodeFrom_eq (fuel := 8) (j := 0) (a := a) (by rw [hbase, Nat.zero_add]; exact ha)
  rw [lpDecode, hdec]
  rw [hbase, Nat.zero_add] at hsum
  exact hsum ▸ s.layerPlace_spec hb

/-! Check bits and error classes (R260). -/

/-- The check bits of the words of a channel lie two bytes apart, above its data and below its last 32 MiB. -/
theorem checkAddr_spec {ca : Nat} (hca : ca < chBytes) (hword : ca % 32 = 0) :
    chBytes ≤ checkAddr ca ∧ checkAddr ca + 2 ≤ checkTail ∧
      ∀ cb, checkAddr cb = checkAddr ca → cb % 32 = 0 → cb = ca := by
  unfold checkAddr checkTail chBytes at *
  refine ⟨by omega, by omega, fun cb heq hcb => by omega⟩

theorem errClass_eq_zero {v : Nat} : errClass v = 0 ↔ v = 0 := by
  unfold errClass
  split
  next h => simp [h]
  next h => split <;> simp [h]

theorem errClass_eq_one {v : Nat} : errClass v = 1 ↔ ∃ i, v = 2 ^ i := by
  unfold errClass
  split
  next h => subst h; simpa using fun i => Nat.ne_of_lt (Nat.two_pow_pos i)
  split
  next hpow => simpa using ⟨_, hpow.symm⟩
  next hpow =>
    refine ⟨fun h => absurd h (by decide), fun ⟨i, hi⟩ => absurd ?_ hpow⟩
    rw [hi, Nat.log2_two_pow]

theorem errClass_le (v : Nat) : errClass v ≤ 2 := by
  unfold errClass
  split
  · decide
  split <;> decide

/-- A word with one flipped bit is corrected, written back and delivered (R73). -/
theorem State.readWord_corrected {s : State} {w : Nat} (hp : s.poisoned w = false) (hflaw : s.flawOf w = 1) (tag : Nat) :
    (s.readWord w tag).2 = true ∧ SMap.get 0 (s.readWord w tag).1.flaws w = 0 ∧ (s.readWord w tag).1.mem = s.mem := by
  have hread : s.readWord w tag =
      ({ s.bump 32 (s.eccCounters w).1.1 (s.eccCounters w).1.2 1 with flaws := SMap.del w s.flaws }, true) := by
    simp [readWord, hp, hflaw]
  rw [hread]
  exact ⟨rfl, congrArg (Option.getD · 0) (find_del w s.flaws), rfl⟩

/-- Settles O34: the address decode layer by layer, the check bits, and the classes of flipped bits. -/
theorem lpddrDecodeIsExact : Obligations.LpddrDecodeIsExact :=
  ⟨fun s _ ha => s.lpDecode_spec ha, ⟨by decide, fun _ hca hword => checkAddr_spec hca hword⟩,
    fun v => ⟨errClass_eq_zero, errClass_eq_one, errClass_le v⟩,
    fun _ _ tag hp hflaw => State.readWord_corrected hp hflaw tag⟩

end Sys2Proof.Machine
end

section
/-! O25: which operation the write of a dictionary entry is, once it is accepted (R446). -/

namespace Sys2Proof.Machine

/-! Values as a row carries them (R10). -/

/-- A value is read back from the bytes that hold it. -/
theorem leNat_natLe_of_lt {len v : Nat} (h : v < 256 ^ len) : leNat (natLe len v) = v :=
  (leNat_natLe_eq_mod len v).trans (Nat.mod_eq_of_lt h)

theorem leNat_singleton (b : Byte) : leNat [b] = b.toNat := rfl

/-- The value of a register of `len` bytes is read back. -/
theorem leNat_natLe_bits {len w : Nat} (hw : w = 8 * len) (v : BitVec w) : leNat (natLe len v.toNat) = v.toNat :=
  leNat_natLe_of_lt (by rw [show 256 = 2 ^ 8 from rfl, ← Nat.pow_mul, ← hw]; exact v.isLt)

theorem setFld_36_zero {v : Nat} (h : v < 2 ^ 36) : setFld v 36 36 0 = v := by
  simp only [setFld, Nat.shiftRight_eq_div_pow, Nat.shiftLeft_eq]
  omega

theorem setFld_36_one {v : Nat} (h : v < 2 ^ 36) : setFld v 36 36 1 = 2 ^ 36 + v := by
  simp only [setFld, Nat.shiftRight_eq_div_pow, Nat.shiftLeft_eq]
  omega

/-! The chapters by the ranges of their entries. -/

theorem State.applyWrite_audit (s : State) (o : Origin) {index : Nat} (sub : Nat) (value : Bytes) (h : index < 0x2000) :
    s.applyWrite o index sub value = doneNow (s.writeAudit o index sub (leNat value)) := by
  simp (disch := omega) only [applyWrite, if_pos]

theorem State.applyWrite_xlate (s : State) (o : Origin) {index : Nat} (sub : Nat) (value : Bytes) (h : 0x3800 ≤ index)
    (h' : index < 0x4000) : s.applyWrite o index sub value = s.writeXlate index sub (leNat value) := by
  simp (disch := omega) only [applyWrite, if_neg, if_pos]

theorem State.applyWrite_part (s : State) (o : Origin) {index : Nat} (sub : Nat) (value : Bytes) (h : 0x4000 ≤ index)
    (h' : index < 0x5000) : s.applyWrite o index sub value = s.writePart index sub (leNat value) := by
  simp (disch := omega) only [applyWrite, if_neg, if_pos]

theorem State.applyWrite_fab (s : State) (o : Origin) {index : Nat} (sub : Nat) (value : Bytes) (h : 0x5000 ≤ index)
    (h' : index < 0x5800) : s.applyWrite o index sub value = doneNow (s.writeFab index sub (leNat value)) := by
  simp (disch := omega) only [applyWrite, if_neg, if_pos]

theorem State.applyWrite_host (s : State) (o : Origin) {index : Nat} (sub : Nat) (value : Bytes) (h : 0x5800 ≤ index)
    (h' : index < 0x6000) : s.applyWrite o index sub value = doneNow (s.writeHost index sub (leNat value)) := by
  simp (disch := omega) only [applyWrite, if_neg, if_pos]

theorem State.applyWrite_trust (s : State) (o : Origin) {index : Nat} (sub : Nat) (value : Bytes) (h : 0x7000 ≤ index)
    (h' : index < 0x8000) (hne : index < 0x7080 ∨ 0x7100 ≤ index) :
    s.applyWrite o index sub value = doneNow (s.writeTrust index sub value) := by
  rcases hne with hlow | hstage
  · simp (disch := omega) only [applyWrite, if_neg, if_pos]
  · simp (disch := omega) only [applyWrite, if_neg, if_pos]

theorem State.applyWrite_lauter (s : State) (o : Origin) {index : Nat} (sub : Nat) (value : Bytes) (h : 0x9200 < index)
    (h' : index < 0x9300) : s.applyWrite o index sub value = doneNow (s.writeLauter index sub (leNat value)) := by
  simp (disch := omega) only [applyWrite, if_neg, if_pos]

theorem State.applyWrite_gate (s : State) (o : Origin) {index : Nat} (sub : Nat) (value : Bytes) (h : 0x9400 ≤ index)
    (h' : index < 0x9500) : s.applyWrite o index sub value = doneNow (s.writeGate index sub (leNat value)) := by
  simp (disch := omega) only [applyWrite, if_neg, if_pos]

theorem State.applyWrite_pour (s : State) (o : Origin) {index : Nat} (sub : Nat) (value : Bytes) (h : 0x9500 ≤ index)
    (h' : index < 0x9700) : s.applyWrite o index sub value = doneNow (s.writePour index sub (leNat value)) := by
  simp (disch := omega) only [applyWrite, if_neg, if_pos]

/-! The entries of the statement, each by its chapter's rule. -/

theorem State.applyWrite_gateStep (s : State) (o : Origin) (p : PartNo) (value : Bytes) :
    s.applyWrite o (0x9400 + p.val) 1 value = doneNow (s.writeGateStep p.val (leNat value)) := by
  rw [applyWrite_gate _ _ _ _ (by omega) (by omega), writeGate, Nat.add_sub_cancel_left]
  rfl

theorem State.applyWrite_pourStep (s : State) (o : Origin) (p : PartNo) (value : Bytes) :
    s.applyWrite o (0x9500 + p.val) 0 value = doneNow (s.writePourStep p.val (leNat value)) := by
  rw [applyWrite_pour _ _ _ _ (by omega) (by omega)]
  simp (disch := omega) only [writePour, if_neg, Nat.add_sub_cancel_left]

theorem State.applyWrite_invalidate (s : State) (o : Origin) (p : PartNo) (cl : Nat) (value : Bytes) :
    s.applyWrite o (0x3900 + p.val) cl value = s.writeInvalidate p.val cl (leNat value) := by
  rw [applyWrite_xlate _ _ _ _ (by omega) (by omega)]
  simp (disch := omega) only [writeXlate, if_neg, if_pos, Nat.add_sub_cancel_left]

theorem State.applyWrite_resume (s : State) (o : Origin) (p : PartNo) (cl : Nat) (value : Bytes) :
    s.applyWrite o (0x3A00 + p.val) cl value = doneNow (s.writeResume p.val cl (leNat value)) := by
  rw [applyWrite_xlate _ _ _ _ (by omega) (by omega)]
  simp (disch := omega) only [writeXlate, if_neg, if_pos, Nat.add_sub_cancel_left]

theorem State.applyWrite_winCtl (s : State) (o : Origin) (value : Bytes) :
    s.applyWrite o 0x3C00 0 value = s.writeWinCtl (leNat value) := rfl

theorem State.applyWrite_portEnable (s : State) (o : Origin) (g : Nat) (value : Bytes) :
    s.applyWrite o 0x5010 g value =
      doneNow ((s.writePortEnable g (leNat value)).1.p6Check, (s.writePortEnable g (leNat value)).2) := rfl

theorem State.applyWrite_route (s : State) (o : Origin) (dev : DeviceId) (value : Bytes) :
    s.applyWrite o (0x5100 + dev.val / 256) (dev.val % 256) value = doneNow (s.writeRoute dev.val (leNat value)) := by
  rw [applyWrite_fab _ _ _ _ (by omega) (by omega)]
  simp (disch := omega) only [writeFab, if_neg, if_pos, Nat.add_sub_cancel_left, Nat.div_add_mod]

theorem State.applyWrite_qp (s : State) (o : Origin) (p : HostPort) (q : QpNo) (value : Bytes) :
    s.applyWrite o (0x5810 + 4 * p.val + q.val / 256) (q.val % 256) value =
      doneNow (s.writeQp p.val q.val (leNat value)) := by
  have hport : (0x5810 + 4 * p.val + q.val / 256 - 0x5810) / 4 = p.val := by omega
  have hpair : (0x5810 + 4 * p.val + q.val / 256 - 0x5810) % 4 * 256 + q.val % 256 = q.val := by omega
  rw [applyWrite_host _ _ _ _ (by omega) (by omega)]
  simp (disch := omega) only [writeHost, if_neg, if_pos, hport, hpair]

theorem State.applyWrite_partCtl (s : State) (o : Origin) (p : PartNo) (value : Bytes) :
    s.applyWrite o (0x4000 + p.val) 2 value = s.writePartCtl p.val (leNat value) := by
  rw [applyWrite_part _ _ _ _ (by omega) (by omega)]
  simp (disch := omega) only [writePart, if_neg, if_pos, Nat.add_sub_cancel_left]

theorem State.applyWrite_sliceMs (s : State) (o : Origin) (p : PartNo) (cl : Nat) (value : Bytes) :
    s.applyWrite o (0x4100 + p.val) cl value = doneNow (s.writeSliceMs p.val cl (leNat value)) := by
  rw [applyWrite_part _ _ _ _ (by omega) (by omega)]
  simp (disch := omega) only [writePart, if_neg, if_pos, Nat.add_sub_cancel_left]

theorem State.applyWrite_segOwner (s : State) (o : Origin) (d : Die) (g : Nat) (value : Bytes) :
    s.applyWrite o (0x4300 + d.val) g value = doneNow (s.writeSegOwner d.val g (leNat value)) := by
  rw [applyWrite_part _ _ _ _ (by omega) (by omega)]
  simp (disch := omega) only [writePart, if_neg, Nat.add_sub_cancel_left]

theorem State.applyWrite_stage (s : State) (o : Origin) {chunk : Nat} (h : chunk < 12288) (value : Bytes) :
    s.applyWrite o (0x7100 + chunk / 256) (chunk % 256) value = doneNow (s.writeStage chunk value) := by
  rw [applyWrite_trust _ _ _ _ (by omega) (by omega) (by omega)]
  simp (disch := omega) only [writeTrust, if_neg, if_pos, Nat.add_sub_cancel_left, Nat.div_add_mod]

theorem State.applyWrite_stickyClear (s : State) (o : Origin) (value : Bytes) :
    s.applyWrite o 0x1100 0x11 value = (s.clearSticky o (leNat value), .done .ok) := by
  rw [applyWrite_audit _ _ _ _ (by decide), writeAudit, doneNow]
  all_goals decide

theorem State.applyWrite_pourTable (s : State) (o : Origin) (value : Bytes) :
    s.applyWrite o 0x9000 0 value = doneNow (s.writePour 0x9000 0 (leNat value)) := rfl

theorem State.applyWrite_planCommit (s : State) (o : Origin) (value : Bytes) :
    s.applyWrite o 0x9210 0 value = doneNow (s.writePlanCommit (leNat value)) := rfl

theorem State.applyWrite_generation (s : State) (o : Origin) (value : Bytes) :
    s.applyWrite o 0x9210 2 value = doneNow (s.writeGeneration (leNat value)) := rfl

theorem State.applyWrite_kilnRequest (s : State) (o : Origin) (value : Bytes) :
    s.applyWrite o 0x6800 3 value = doneNow (s.writeKilnRequest (leNat value)) := rfl

theorem State.applyWrite_refCtl (s : State) (o : Origin) (value : Bytes) :
    s.applyWrite o 0x2000 2 value = s.writeRefCtl (leNat value) := rfl

theorem State.applyWrite_opTarget (s : State) (o : Origin) (d : Nat) (value : Bytes) :
    s.applyWrite o 0x2010 d value = doneNow (s.writeOpTarget d (leNat value)) := rfl

theorem State.applyWrite_fwCtl (s : State) (o : Origin) (value : Bytes) :
    s.applyWrite o 0x7000 1 value = doneNow (s.writeFwCtl (leNat value)) := rfl

theorem State.applyWrite_nonce (s : State) (o : Origin) (value : Bytes) :
    s.applyWrite o 0x7011 0 value = doneNow (s.writeNonce (leNat value)) := rfl

theorem State.applyWrite_principal (s : State) (o : Origin) (k : Nat) (value : Bytes) :
    s.applyWrite o 0x7020 k value = doneNow (s.writePrincipal k (leNat value)) := rfl

theorem ownWord_lt (kind client p : Nat) : ownWord kind client p < 256 ^ 2 := by
  simp only [ownWord, Nat.shiftLeft_eq]
  omega

/-- Settles O25: the index chooses the chapter's rule and the entry's own, and the bytes give the row's value back. -/
theorem dictRowEffects : Obligations.DictRowEffects := by
  intro s o
  refine ⟨fun p v => ?_, fun p v => ?_, fun v => ?_, fun v => ?_, fun v => ?_, fun p cl v => ?_,
    fun p cl v hv => ⟨?_, ?_⟩, fun w => ⟨?_, ?_⟩, fun g v => ?_, fun dev v => ?_, fun p q v => ?_, fun p => ⟨?_, ?_⟩,
    fun d g p => ⟨?_, ?_⟩, fun p cl v => ?_, fun v => ?_, fun n => ?_, fun d v => ?_, fun chunk data hchunk => ?_,
    fun n => ?_, fun nonce => ?_, fun k v => ?_, fun mask => ?_, fun v => s.applyWrite_annotate o v⟩
  · rw [State.applyWrite_gateStep, leNat_natLe_bits rfl]
  · rw [State.applyWrite_pourStep, leNat_natLe_bits rfl]
  · rw [State.applyWrite_pourTable, leNat_natLe_bits rfl]
  · rw [State.applyWrite_planCommit, leNat_natLe_bits rfl]
  · rw [State.applyWrite_generation, leNat_natLe_bits rfl]
  · rw [State.applyWrite_invalidate, leNat_natLe_bits rfl]
  · rw [State.applyWrite_resume, setFld_36_zero hv, leNat_natLe_bits rfl]
  · rw [State.applyWrite_resume, setFld_36_one hv, leNat_natLe_of_lt (by omega)]
  · rw [State.applyWrite_winCtl, leNat_natLe_of_lt (by omega)]
  · rw [State.applyWrite_winCtl, leNat_natLe_of_lt (by omega)]
  · rw [State.applyWrite_portEnable, leNat_singleton]
  · rw [State.applyWrite_route, leNat_natLe_bits rfl]
  · rw [State.applyWrite_qp, leNat_natLe_bits rfl]
  · rw [State.applyWrite_partCtl]; rfl
  · rw [State.applyWrite_partCtl]; rfl
  · rw [State.applyWrite_segOwner, leNat_natLe_of_lt (ownWord_lt ..)]
  · rw [State.applyWrite_segOwner]; rfl
  · rw [State.applyWrite_sliceMs, leNat_natLe_bits rfl]
  · rw [State.applyWrite_kilnRequest, leNat_natLe_bits rfl]
  · rw [State.applyWrite_refCtl, leNat_singleton]
  · rw [State.applyWrite_opTarget, leNat_singleton]
  · rw [State.applyWrite_stage _ _ hchunk]
  · rw [State.applyWrite_fwCtl, leNat_singleton]
  · rw [State.applyWrite_nonce, leNat_natLe_bits rfl]
  · rw [State.applyWrite_principal, leNat_natLe_bits rfl]
  · rw [State.applyWrite_stickyClear, leNat_natLe_bits rfl]

end Sys2Proof.Machine
end

section
namespace Sys2Proof.Machine

/-- t holds the queue of s, and its byte memory is canonical if that of s is. -/
def Keeps (s t : State) : Prop :=
  t.pending = s.pending ∧ (Memory.wf s.mem = true → Memory.wf t.mem = true)

theorem Keeps.refl (s : State) : Keeps s s := ⟨rfl, id⟩

/-- An update of other fields keeps the queue and memory. -/
theorem Keeps.upd {s t : State}
    {x0} {x2} {x3} {x4} {x5} {x6} {x7} {x8} {x9} {x10} {x11} {x12} {x13} {x14} {x15} {x16} {x17} {x18} {x19} {x20}
    {x21} {x22} {x23} {x24} {x25} {x26} {x27} {x28} {x29} {x30} {x31} {x32} {x33} {x34} {x35} {x36} {x37} {x38}
    {x39} {x40} {x41} {x42} {x43} {x44} {x45} {x46}
    (h : Keeps s t) : Keeps s
      ⟨x0, t.mem, x2, x3, x4, x5, x6, x7, x8, x9, x10, x11, x12, x13, x14, x15, x16, x17, x18, x19, x20, x21, x22,
      x23, x24, x25, x26, x27, x28, x29, x30, x31, x32, x33, x34, x35, x36, x37, x38, x39, x40, x41, x42, x43, x44,
      x45, x46, t.pending⟩ := h

/-- An update that keeps the form of memory. -/
theorem Keeps.updMem {s t : State} {m : SMap (BitVec 8)}
    {x0} {x2} {x3} {x4} {x5} {x6} {x7} {x8} {x9} {x10} {x11} {x12} {x13} {x14} {x15} {x16} {x17} {x18} {x19} {x20}
    {x21} {x22} {x23} {x24} {x25} {x26} {x27} {x28} {x29} {x30} {x31} {x32} {x33} {x34} {x35} {x36} {x37} {x38}
    {x39} {x40} {x41} {x42} {x43} {x44} {x45} {x46}
    (h : Keeps s t) (hm : Memory.wf t.mem = true → Memory.wf m = true) : Keeps s
      ⟨x0, m, x2, x3, x4, x5, x6, x7, x8, x9, x10, x11, x12, x13, x14, x15, x16, x17, x18, x19, x20, x21, x22, x23,
      x24, x25, x26, x27, x28, x29, x30, x31, x32, x33, x34, x35, x36, x37, x38, x39, x40, x41, x42, x43, x44, x45,
      x46, t.pending⟩ :=
  ⟨h.1, fun hs => hm (h.2 hs)⟩

theorem Keeps.ite {s t u : State} {c : Prop} [Decidable c] (ht : Keeps s t) (hu : Keeps s u) :
    Keeps s (if c then t else u) := by
  split
  · exact ht
  · exact hu

theorem Keeps.foldl {s t : State} {α : Type} {l : List α} {f : State → α → State} (h : Keeps s t)
    (hf : ∀ u a, Keeps s u → Keeps s (f u a)) : Keeps s (l.foldl f t) := foldl_ind hf h

theorem Keeps.foldl_fst {s : State} {α β : Type} {l : List α} {r : State × β} {f : State × β → α → State × β}
    (h : Keeps s r.1) (hf : ∀ q a, Keeps s q.1 → Keeps s (f q a).1) : Keeps s (l.foldl f r).1 :=
  foldl_ind (P := fun q : State × β => Keeps s q.1) hf h

theorem Keeps.of_fst {s u : State} {β : Type} {r : State × β} {x : β} (h : Keeps s r.1) (e : r = (u, x)) : Keeps s u := by
  rw [e] at h
  exact h

theorem Keeps.of_snd {s u : State} {β : Type} {r : β × State} {x : β} (h : Keeps s r.2) (e : r = (x, u)) : Keeps s u := by
  rw [e] at h
  exact h

theorem Keeps.fst {s u : State} {β : Type} {x : β} (h : Keeps s u) : Keeps s (u, x).1 := h

theorem Keeps.snd {s u : State} {β : Type} {x : β} (h : Keeps s u) : Keeps s (x, u).2 := h

theorem Keeps.ite_fst {s : State} {β : Type} {r q : State × β} {c : Prop} [Decidable c] (hr : Keeps s r.1)
    (hq : Keeps s q.1) : Keeps s (if c then r else q).1 := by
  split
  · exact hr
  · exact hq

theorem Keeps.ite_snd {s : State} {β : Type} {r q : β × State} {c : Prop} [Decidable c] (hr : Keeps s r.2)
    (hq : Keeps s q.2) : Keeps s (if c then r else q).2 := by
  split
  · exact hr
  · exact hq

end Sys2Proof.Machine
end

section
/-! O54, O55: the operations of Machine/Ops keep the queue and the canonical form of memory. -/

namespace Sys2Proof.Machine

theorem Keeps.setReg {s s' : State} {index sub v : Nat} (hs : Keeps s s') : Keeps s (s'.setReg index sub v) := hs.upd

theorem Keeps.bump {s s' : State} {w index sub k : Nat} (hs : Keeps s s') : Keeps s (s'.bump w index sub k) := hs.setReg

theorem Keeps.bumpWrap {s s' : State} {w index sub k : Nat} (hs : Keeps s s') : Keeps s (s'.bumpWrap w index sub k) :=
  hs.setReg

theorem Keeps.draw {s s' : State} (hs : Keeps s s') : Keeps s s'.draw.2 := hs.upd.snd

theorem Keeps.emit {s s' : State} {o : Output} (hs : Keeps s s') : Keeps s (s'.emit o) := hs.upd

theorem Keeps.setCore {s s' : State} {n : Nat} {c : Core} (hs : Keeps s s') : Keeps s (s'.setCore n c) := hs.upd

theorem Keeps.modCore {s s' : State} {n : Nat} {f : Core → Core} (hs : Keeps s s') : Keeps s (s'.modCore n f) :=
  hs.setCore

theorem Keeps.setCtx {s s' : State} {n h : Nat} {x : Ctx} (hs : Keeps s s') : Keeps s (s'.setCtx n h x) := hs.modCore

theorem Keeps.modCtx {s s' : State} {n h : Nat} {f : Ctx → Ctx} (hs : Keeps s s') : Keeps s (s'.modCtx n h f) := hs.setCtx

theorem Keeps.vacateCtx {s s' : State} {n h : Nat} (hs : Keeps s s') : Keeps s (s'.vacateCtx n h) := hs.modCore

theorem Keeps.setStream {s s' : State} {n k : Nat} {x : Stream} (hs : Keeps s s') : Keeps s (s'.setStream n k x) :=
  hs.modCore

theorem Keeps.setRing {s s' : State} {n r : Nat} {x : Ring} (hs : Keeps s s') : Keeps s (s'.setRing n r x) := hs.modCore

theorem Keeps.setBarrier {s s' : State} {d b : Nat} {x : Barrier} (hs : Keeps s s') : Keeps s (s'.setBarrier d b x) :=
  hs.upd

theorem Keeps.arriveAt {s s' : State} {d b : Nat} (hs : Keeps s s') : Keeps s (s'.arriveAt d b) := hs.setBarrier

theorem Keeps.bumpGen {s s' : State} {g : Nat} (hs : Keeps s s') : Keeps s (s'.bumpGen g) := hs.upd

theorem Keeps.bumpGens {s s' : State} {a len : Nat} (hs : Keeps s s') : Keeps s (s'.bumpGens a len) :=
  .foldl hs (fun _ _ hu => hu.bumpGen)

theorem Keeps.store {s s' : State} {a : Nat} {bs : Bytes} {gen : Bool} (hs : Keeps s s') : Keeps s (s'.store a bs gen)
    := by
  unfold State.store
  exact .ite (.bumpGens (.updMem hs wf_putBytes)) (.updMem hs wf_putBytes)

theorem Keeps.mirror {s s' : State} {slot w : Nat} (hs : Keeps s s') : Keeps s (s'.mirror slot w) := .ite hs.store hs

theorem Keeps.sendCaddy {s s' : State} {t : Tuple} {m : Bytes} (hs : Keeps s s') : Keeps s (s'.sendCaddy t m) := hs.upd

theorem Keeps.notifyAll {s s' : State} (hs : Keeps s s') : Keeps s s'.notifyAll := hs.upd

theorem Keeps.setSticky {s s' : State} {st : Status} {seq : Nat} (hs : Keeps s s') : Keeps s (s'.setSticky st seq) :=
  .ite hs (.ite hs hs.setReg.setReg.notifyAll)

theorem Keeps.record {s s' : State} {r : AuditRec} (hs : Keeps s s') : Keeps s (s'.record r) :=
  hs.setReg.setReg.mirror.setSticky

theorem Keeps.condition {s s' : State} {st : Status} {origin : Origin} {detail tag : Nat} (hs : Keeps s s') :
    Keeps s (s'.condition st origin detail tag) := hs.record

theorem Keeps.beside {s s' : State} {l : List Status} {origin : Origin} {detail : Nat} (hs : Keeps s s') :
    Keeps s (s'.beside l origin detail) := .foldl hs (fun _ _ hu => hu.condition)

theorem Keeps.ownChange {s s' : State} {origin : Origin} {index sub v tag : Nat} (hs : Keeps s s') :
    Keeps s (s'.ownChange origin index sub v tag) := .ite hs hs.setReg.record

theorem Keeps.kdChange {s s' : State} {index sub v tag : Nat} (hs : Keeps s s') : Keeps s (s'.kdChange index sub v tag) :=
  hs.ownChange

theorem Keeps.watchDrop {s s' : State} {i tag : Nat} (hs : Keeps s s') : Keeps s (s'.watchDrop i tag) :=
  hs.kdChange.kdChange

theorem Keeps.watchForget {s s' : State} {kind d pos tag : Nat} (hs : Keeps s s') :
    Keeps s (s'.watchForget kind d pos tag) := by
  unfold State.watchForget
  split
  · exact hs.watchDrop
  · exact hs

theorem Keeps.secondFault {s s' : State} {kind d pos : Nat} {cause : Status} {tag : Nat} (hs : Keeps s s') :
    Keeps s (s'.secondFault kind d pos cause tag) := by
  unfold State.secondFault
  extract_lets s1
  have hs1 : Keeps s s1 := hs.watchForget
  split
  · split
    · extract_lets s2
      have hs2 : Keeps s s2 := hs1.modCore
      exact hs2.upd
    · exact hs1
  · exact hs1.setReg

theorem Keeps.watchEvent {s s' : State} {kind d pos : Nat} {cause : Status} {tag : Nat} (hs : Keeps s s') :
    Keeps s (s'.watchEvent kind d pos cause tag) := by
  unfold State.watchEvent
  extract_lets
  split
  · exact hs.upd
  · split
    · exact hs.condition
    · split
      · exact hs.secondFault
      · split
        · exact hs.secondFault
        · exact hs.kdChange.kdChange

theorem Keeps.eccEvent {s s' : State} {w tag : Nat} (hs : Keeps s s') : Keeps s (s'.eccEvent w tag) := by
  unfold State.eccEvent
  split
  · exact hs.upd.watchEvent
  · exact hs.watchEvent
  · exact hs

theorem Keeps.setPoison {s s' : State} {w : Nat} (hs : Keeps s s') : Keeps s (s'.setPoison w) := hs.upd

theorem Keeps.retireChannel {s s' : State} {p c : Nat} {fence : Bool} {tag : Nat} (hs : Keeps s s') :
    Keeps s (s'.retireChannel p c fence tag) := .condition (.ite hs.kdChange.setReg hs.kdChange)

theorem Keeps.channelEvent {s s' : State} {p c tag : Nat} (hs : Keeps s s') : Keeps s (s'.channelEvent p c tag) :=
  .ite hs.upd.retireChannel hs.upd

theorem Keeps.foundBad {s s' : State} {w tag : Nat} (hs : Keeps s s') : Keeps s (s'.foundBad w tag) := by
  unfold State.foundBad
  extract_lets _ _ s1
  have hs1 : Keeps s s1 := hs.bump.setPoison
  split
  · exact hs1.channelEvent
  · exact hs1.eccEvent

theorem Keeps.readWord {s s' : State} {w tag : Nat} (hs : Keeps s s') : Keeps s (s'.readWord w tag).1 := by
  unfold State.readWord
  extract_lets
  split
  · exact hs
  · split
    · exact hs
    · exact hs.bump.upd.fst
    · exact hs.foundBad.fst

theorem Keeps.readWords {s s' : State} {tag : Nat} {a : List Nat} (hs : Keeps s s') : Keeps s (s'.readWords tag a).1 := by
  induction a generalizing s' tag with
  | nil => exact hs
  | cons x a ih =>
    unfold State.readWords
    exact .ite_fst (ih hs.readWord) hs.readWord

theorem Keeps.linkOutcome {s s' : State} {p c fails corrected tag : Nat} (hs : Keeps s s') :
    Keeps s (s'.linkOutcome p c fails corrected tag).1 := .ite_fst hs.bump.bump.channelEvent.fst hs.bump.bump.fst

theorem Keeps.linkRead {s s' : State} {a len tag : Nat} (hs : Keeps s s') : Keeps s (s'.linkRead a len tag).1 :=
  .ite_fst hs (.foldl_fst hs (fun _ _ hu => by
    split
    · exact hu
    · exact hu.upd.linkOutcome))

theorem Keeps.readArray {s s' : State} {a len tag : Nat} (hs : Keeps s s') : Keeps s (s'.readArray a len tag).1 :=
  .ite_fst hs.readWords.fst hs.readWords.fst

theorem Keeps.readMem {s s' : State} {a len tag : Nat} (hs : Keeps s s') : Keeps s (s'.readMem a len tag).1 := by
  unfold State.readMem
  split
  next e => exact .readArray (.of_fst hs.linkRead e)
  next e => exact .of_fst hs.linkRead e

theorem Keeps.writeMem {s s' : State} {a : Nat} {bs : Bytes} {gen : Bool} {tag : Nat} (hs : Keeps s s') :
    Keeps s (s'.writeMem a bs gen tag).1 := by
  unfold State.writeMem
  extract_lets _ s1 s2
  have hs1 : Keeps s s1.1 := .ite_fst hs hs.linkRead
  have hs2 : Keeps s s2.1 := hs1.readWords
  exact .ite_fst (.ite_fst hs2.store.fst hs2.fst) hs1.fst

theorem Keeps.writeLocal {s s' : State} {w : Writer} {a : Nat} {bs : Bytes} {gen : Bool} {tag : Nat} (hs : Keeps s s') :
    Keeps s (s'.writeLocal w a bs gen tag).1 := by
  unfold State.writeLocal
  split
  · exact hs
  · exact .ite_fst hs hs.writeMem

theorem Keeps.readLocal {s s' : State} {a len tag : Nat} (hs : Keeps s s') : Keeps s (s'.readLocal a len tag).1 := by
  unfold State.readLocal
  split
  · exact hs
  · exact hs.readMem

end Sys2Proof.Machine
end

section
/-! O54, O55: the operations of Machine/HostOut keep the queue and the canonical form of memory. -/

namespace Sys2Proof.Machine

theorem Keeps.setQp {s s' : State} {port q : Nat} {x : Qp} (hs : Keeps s s') : Keeps s (s'.setQp port q x) := hs.upd

theorem Keeps.setQpState {s s' : State} {port q st : Nat} (hs : Keeps s s') : Keeps s (s'.setQpState port q st) :=
  hs.setReg

theorem Keeps.setHport {s s' : State} {p : Nat} {x : HPort} (hs : Keeps s s') : Keeps s (s'.setHport p x) := hs.upd

theorem Keeps.sendRoce {s s' : State} {p q : Nat} {m : RoceMsg} (hs : Keeps s s') : Keeps s (s'.sendRoce p q m) :=
  .ite hs (.ite hs.setHport hs.emit)

theorem Keeps.qpPump {s s' : State} {port q : Nat} (hs : Keeps s s') : Keeps s (s'.qpPump port q) :=
  .foldl hs.setQp (fun _ _ hu => hu.sendRoce)

theorem Keeps.qpSend {s s' : State} {port q : Nat} {read : Bool} {va rkey len : Nat} {data : Bytes} {why : Purpose} (hs :
    Keeps s s') :
    Keeps s (s'.qpSend port q read va rkey len data why) :=
  hs.setQp.qpPump

theorem Keeps.postWrite {s s' : State} {a : Nat} {data : Bytes} {why : Purpose} (hs : Keeps s s') :
    Keeps s (s'.postWrite a data why) := by
  unfold State.postWrite
  split
  · exact hs.qpSend
  · exact hs

theorem Keeps.setPost {s s' : State} {p c : Nat} {x : Post} (hs : Keeps s s') : Keeps s (s'.setPost p c x) := hs.upd

theorem Keeps.cqWrite {s s' : State} {p c rec : Nat} (hs : Keeps s s') : Keeps s (s'.cqWrite p c rec) :=
  hs.setPost.postWrite

theorem Keeps.cqPump {s s' : State} {p c a : Nat} (hs : Keeps s s') : Keeps s (s'.cqPump p c a) := by
  induction a generalizing s' p c with
  | zero => exact hs
  | succ a ih =>
    unfold State.cqPump
    extract_lets
    split
    · exact .ite (ih hs.setPost.postWrite) hs
    · exact .ite (ih hs.setPost.cqWrite) hs
    · exact hs

theorem Keeps.pumpClient {s s' : State} {p c : Nat} (hs : Keeps s s') : Keeps s (s'.pumpClient p c) := hs.cqPump

theorem Keeps.flushMerge {s s' : State} (hs : Keeps s s') : Keeps s s'.flushMerge := by
  unfold State.flushMerge
  extract_lets _ s1
  have hs1 : Keeps s s1 := hs.upd
  split
  · exact hs
  · exact hs1.record

theorem Keeps.dbgNote {s s' : State} {op arg : Nat} {st : Status} {old new tag : Nat} (hs : Keeps s s') :
    Keeps s (s'.dbgNote op arg st old new tag) := hs.flushMerge.record

theorem Keeps.dbgMerge {s s' : State} {op arg step : Nat} {st : Status} (hs : Keeps s s') :
    Keeps s (s'.dbgMerge op arg step st) := by
  unfold State.dbgMerge
  extract_lets
  split
  · exact .ite hs.upd hs.flushMerge.upd
  · exact hs.upd

theorem Keeps.dbgReply {s s' : State} {seq : Nat} {st : Status} {data : Nat} (hs : Keeps s s') :
    Keeps s (s'.dbgReply seq st data) := hs.upd

theorem Keeps.memEnds {s s' : State} {seq : Nat} {write : Bool} {a data old : Nat} {st : Status} {got : Nat} (hs : Keeps s
    s') :
    Keeps s (s'.memEnds seq write a data old st got) :=
  .ite hs.dbgReply.dbgNote hs.dbgReply.dbgMerge

theorem Keeps.dbgHost {s s' : State} {st : Status} {data : Bytes} (hs : Keeps s s') : Keeps s (s'.dbgHost st data) := by
  unfold State.dbgHost
  split
  · exact hs.memEnds
  · exact hs

theorem Keeps.dbgAborted {s s' : State} {n h tag : Nat} (hs : Keeps s s') : Keeps s (s'.dbgAborted n h tag) := by
  unfold State.dbgAborted
  split
  · exact .ite hs.dbgReply.dbgNote hs
  · exact .ite hs.dbgReply.dbgNote hs
  · exact hs

theorem Keeps.complete {s s' : State} {r : Completion} (hs : Keeps s s') : Keeps s (s'.complete r) :=
  hs.setPost.pumpClient

theorem Keeps.postFault {s s' : State} {r : FaultRec} (hs : Keeps s s') : Keeps s (s'.postFault r) :=
  .ite hs.modCore.setPost.postWrite hs.modCore.bump

theorem Keeps.report {s s' : State} {st : Status} {n h tag subject : Nat} (hs : Keeps s s') :
    Keeps s (s'.report st n h tag subject) := .ite hs.condition hs

end Sys2Proof.Machine
end

section
/-! O54, O55: the operations of Machine/Xlate keep the queue and the canonical form of memory. -/

namespace Sys2Proof.Machine

theorem Keeps.walkFrom {s s' : State} {va a b c : Nat} (hs : Keeps s s') : Keeps s (s'.walkFrom va a b c).1 := by
  induction a generalizing s' va b c with
  | zero => exact hs
  | succ a ih =>
    unfold State.walkFrom
    extract_lets s1
    have hs1 : Keeps s s1.1 := hs.readLocal
    exact .ite_fst hs1.fst (.ite_fst hs1.fst (.ite_fst (.ite_fst hs1.fst hs1.fst) (.ite_fst hs1.fst (ih hs1))))

theorem Keeps.walk {s s' : State} {p c va : Nat} (hs : Keeps s s') : Keeps s (s'.walk p c va).1 := .ite_fst hs hs.walkFrom

theorem Keeps.translate {s s' : State} {n h va : Nat} {write : Bool} (hs : Keeps s s') :
    Keeps s (s'.translate n h va write).1 := by
  unfold State.translate
  split
  · exact hs
  · exact hs.modCore.fst

theorem Keeps.walkFill {s s' : State} {n h p c va : Nat} {write : Bool} (hs : Keeps s s') :
    Keeps s (s'.walkFill n h p c va write).1 := by
  unfold State.walkFill
  extract_lets s1
  have hs1 : Keeps s s1.1 := hs.walk
  split
  · exact hs1.fst
  · exact hs1.modCore.bump.fst

theorem Keeps.translateNow {s s' : State} {n h p c va : Nat} {write : Bool} (hs : Keeps s s') :
    Keeps s (s'.translateNow n h p c va write).1 := by
  unfold State.translateNow
  split
  next e => exact .walkFill (.of_fst hs.translate e)
  · exact hs.translate

end Sys2Proof.Machine
end

section
/-! O54, O55: the operations of Machine/Rings keep the queue and the canonical form of memory. -/

namespace Sys2Proof.Machine

theorem Keeps.writeSlot {s s' : State} {n : Nat} {r : Ring} {k off : Nat} {bs : Bytes} (hs : Keeps s s') :
    Keeps s (s'.writeSlot n r k off bs) := .foldl hs (fun _ _ hu => hu.writeMem)

theorem Keeps.readSlot {s s' : State} {n : Nat} {r : Ring} {k off len : Nat} (hs : Keeps s s') :
    Keeps s (s'.readSlot n r k off len).1 := .foldl_fst hs (fun _ _ hu => by
      split
      · exact hu.readMem
      · exact hu)

theorem Keeps.commitSlot {s s' : State} {n rn : Nat} {rec_ : Option SlotRec} (hs : Keeps s s') :
    Keeps s (s'.commitSlot n rn rec_) := by
  unfold State.commitSlot
  split
  · exact hs
  · exact hs.setRing.modCore

theorem Keeps.releaseSlot {s s' : State} {n rn : Nat} (hs : Keeps s s') : Keeps s (s'.releaseSlot n rn) := by
  unfold State.releaseSlot
  split
  · exact hs
  · exact hs.setRing

theorem Keeps.acquire {s s' : State} {n h : Nat} (hs : Keeps s s') : Keeps s (s'.acquire n h) := hs.modCore

end Sys2Proof.Machine
end

section
/-! O54, O55: the operations of Machine/Contexts keep the queue and the canonical form of memory. -/

namespace Sys2Proof.Machine

theorem Keeps.runEnds {s s' : State} {n h : Nat} {x : Ctx} {st : Status} (hs : Keeps s s') :
    Keeps s (s'.runEnds n h x st).1 := by
  unfold State.runEnds
  extract_lets _ _ s1 s2 s3
  have hs1 : Keeps s s1 := .ite hs hs.complete
  have hs2 : Keeps s s2 := .ite hs1 hs1.postFault
  have hs3 : Keeps s s3 := .ite hs2.dbgAborted hs2
  exact hs3.upd.fst

theorem Keeps.leaseFreed {s s' : State} {n : Nat} (hs : Keeps s s') : Keeps s (s'.leaseFreed n) := .ite hs.upd hs

theorem Keeps.abortStreams {s s' : State} {n h : Nat} (hs : Keeps s s') : Keeps s (s'.abortStreams n h) :=
  .foldl hs.modCore.leaseFreed (fun _ _ hu => .ite hu.postFault hu)

theorem Keeps.endRun {s s' : State} {n h : Nat} {st : Status} (hs : Keeps s s') : Keeps s (s'.endRun n h st) :=
  hs.abortStreams.runEnds.setCtx.modCore

theorem Keeps.failCommand {s s' : State} {n h : Nat} {st : Status} {subject : Nat} (hs : Keeps s s') :
    Keeps s (s'.failCommand n h st subject) := hs.report.endRun

theorem Keeps.completeCommand {s s' : State} {n h w : Nat} (hs : Keeps s s') : Keeps s (s'.completeCommand n h w) :=
  .ite hs.modCore.leaseFreed.endRun hs.modCore.leaseFreed.modCtx

theorem Keeps.postBadWord {s s' : State} {n h va : Nat} {k : Option (Nat × Nat × Nat)} (hs : Keeps s s') :
    Keeps s (s'.postBadWord n h va k) := hs.postFault

theorem Keeps.stopStream {s s' : State} {n k : Nat} {st : Status} {va : Nat} (hs : Keeps s s') :
    Keeps s (s'.stopStream n k st va) := by
  unfold State.stopStream
  split
  · exact hs
  · extract_lets _ _ s1
    have hs1 : Keeps s s1 := .leaseFreed (.modCore (.ite hs.postBadWord hs))
    exact .ite hs1.modCore.report hs1.failCommand

theorem Keeps.endStream {s s' : State} {n k : Nat} (hs : Keeps s s') : Keeps s (s'.endStream n k) := by
  unfold State.endStream
  split
  · exact hs
  · exact hs.modCore.leaseFreed

theorem Keeps.saveCtx {s s' : State} {n h : Nat} {kiln : Bool} (hs : Keeps s s') : Keeps s (s'.saveCtx n h kiln).1 := by
  unfold State.saveCtx
  extract_lets _ _ _ _ _ _ _ s1 s2 _ s3
  have hs1 : Keeps s s1 := .foldl hs (fun _ _ hu => hu.readWord)
  have hs2 : Keeps s s2 := .foldl hs1 (fun _ _ hu => hu.foundBad.report.postBadWord)
  have hs3 : Keeps s s3 := hs2.upd
  exact hs3.modCore.fst

theorem Keeps.dropSaved {s s' : State} {n h p c : Nat} (hs : Keeps s s') : Keeps s (s'.dropSaved n h p c) := hs.upd

theorem Keeps.takeVerdict {s s' : State} {n h : Nat} (hs : Keeps s s') : Keeps s (s'.takeVerdict n h) := by
  unfold State.takeVerdict
  extract_lets
  split
  · split
    · exact hs.setCtx
    · exact hs.failCommand
    · exact hs
  · exact hs

theorem wf_restored {base : Nat} {l : List (Nat × BitVec 8)} {m : SMap (BitVec 8)} (h : Memory.wf m = true) :
    Memory.wf (l.foldl (fun m (e : Nat × BitVec 8) => SMap.putD 0#8 (base + e.1) e.2 m) m) = true :=
  foldl_ind (P := fun m => Memory.wf m = true) (fun _ _ hm => wf_putD hm) h

theorem Keeps.restoreCtx {s s' : State} {v : Saved} (hs : Keeps s s') : Keeps s (s'.restoreCtx v) := by
  unfold State.restoreCtx
  extract_lets _ _ _ s1 s2 _ s3 s4 s5
  have hs1 : Keeps s s1 := hs.dropSaved
  have hs2 : Keeps s s2 := .updMem hs1 fun h => wf_restored (wf_filter _ h)
  have hs4 : Keeps s s4 := hs2.modCore.setCtx
  have hs5 : Keeps s s5 := hs4.upd
  exact .takeVerdict (.foldl hs5 fun _ _ hu => hu.stopStream)

end Sys2Proof.Machine
end

section
/-! O54, O55: the operations of Machine/Fabric keep the queue and the canonical form of memory. -/

namespace Sys2Proof.Machine

theorem Keeps.setPort {s s' : State} {g : Nat} {x : Port} (hs : Keeps s s') : Keeps s (s'.setPort g x) := hs.upd

theorem Keeps.setLx {s s' : State} {x : Nat} {l : LinkDie} (hs : Keeps s s') : Keeps s (s'.setLx x l) := hs.upd

theorem Keeps.setMx {s s' : State} {m : Nat} {x : Mx} (hs : Keeps s s') : Keeps s (s'.setMx m x) := hs.upd

theorem Keeps.sendFlit {s s' : State} {g : Nat} {f : Option Sent} (hs : Keeps s s') : Keeps s (s'.sendFlit g f) :=
  hs.setPort.emit

theorem Keeps.freeBufs {s s' : State} {t : Txn} (hs : Keeps s s') : Keeps s (s'.freeBufs t) := .ite hs hs.setPort

theorem Keeps.launch {s s' : State} {g : Nat} {e : Nat × Txn} (hs : Keeps s s') : Keeps s (s'.launch g e) :=
  .freeBufs (.foldl hs.setPort (fun _ _ hu => hu.sendFlit))

theorem Keeps.pumpPort {s s' : State} {g a : Nat} (hs : Keeps s s') : Keeps s (s'.pumpPort g a) := by
  induction a generalizing s' g with
  | zero => exact hs
  | succ a ih =>
    unfold State.pumpPort
    split
    · split
      · exact ih hs.launch
      · exact hs
    · exact hs

theorem Keeps.enqueue {s s' : State} {g : Nat} {date : Bool} {t : Txn} (hs : Keeps s s') :
    Keeps s (s'.enqueue g date t) := hs.setPort.pumpPort

theorem Keeps.issue {s s' : State} {t : Txn} {asker : Asker} (hs : Keeps s s') : Keeps s (s'.issue t asker).1 := by
  unfold State.issue
  split
  · exact hs
  · split
    · exact hs
    · extract_lets
      split
      · exact hs
      · exact hs.setLx.enqueue.fst

theorem Keeps.dropEpoch {s s' : State} {dev : Nat} (hs : Keeps s s') : Keeps s (s'.dropEpoch dev) := hs.upd

theorem Keeps.respond {s s' : State} {q : Txn} {st : Status} {data : Bytes} {incarnation : Nat} (hs : Keeps s s') :
    Keeps s (s'.respond q st data incarnation) := by
  unfold State.respond
  extract_lets
  split
  · exact hs.enqueue
  · exact hs

end Sys2Proof.Machine
end

section
/-! O54, O55: the operations of Machine/Streams keep the queue and the canonical form of memory. -/

namespace Sys2Proof.Machine

theorem Keeps.joinWalks {s s' : State} {n k : Nat} {y : Stream} {va : Nat} {write : Bool} (hs : Keeps s s') :
    Keeps s (s'.joinWalks n k y va write) := hs.setStream.upd

theorem Keeps.suspend {s s' : State} {n k va cause level : Nat} (hs : Keeps s s') :
    Keeps s (s'.suspend n k va cause level) := by
  unfold State.suspend
  extract_lets
  split
  · exact hs
  · extract_lets _ _ _ _ _ _ s1
    have hs1 : Keeps s s1 := hs.setStream.bump.report.postFault
    exact .ite hs1.modCore.leaseFreed.postFault hs1

theorem Keeps.noteFirst {s s' : State} {n k : Nat} (hs : Keeps s s') : Keeps s (s'.noteFirst n k) := by
  unfold State.noteFirst
  split
  · exact .ite hs hs.setStream
  · exact hs

theorem Keeps.resolve {s s' : State} {n : Nat} {y : Stream} {va : Nat} {write : Bool} (hs : Keeps s s') :
    Keeps s (s'.resolve n y va write).1 := by
  unfold State.resolve
  split
  · exact hs
  · exact hs.translate

theorem Keeps.locate {s s' : State} {n k : Nat} {y : Stream} {va len : Nat} {write tag : Bool} (hs : Keeps s s') :
    Keeps s (s'.locate n k y va len write tag).1 := by
  unfold State.locate
  split
  · exact hs.stopStream.fst
  · split
    · exact hs
    · split
      next e => exact .fst (.joinWalks (.of_fst hs.resolve e))
      next e => exact .fst (.suspend (.of_fst hs.resolve e))
      next e => exact .fst (.stopStream (.of_fst hs.resolve e))
      next u _ _ e =>
        have hu : Keeps s u := .of_fst hs.resolve e
        exact .ite_fst hu.stopStream.fst hu

theorem Keeps.addReq {s s' : State} {n k : Nat} {q : Req} (hs : Keeps s s') : Keeps s (s'.addReq n k q) := by
  unfold State.addReq
  split
  · exact hs.setStream
  · exact hs

theorem Keeps.issueRemote {s s' : State} {n k op : Nat} {q : Req} {data : Bytes} (hs : Keeps s s') :
    Keeps s (s'.issueRemote n k op q data).1 := by
  unfold State.issueRemote
  extract_lets
  split
  next e => exact .fst (.addReq (.of_fst hs.issue e))
  next e => exact .of_fst hs.issue e
  next e => exact .fst (.stopStream (.of_fst hs.issue e))

theorem Keeps.readFor {s s' : State} {n k va len off : Nat} {want : Option (Nat × Nat)} {tag : Bool} (hs : Keeps s s') :
    Keeps s (s'.readFor n k va len off want tag).1 := by
  unfold State.readFor
  split
  · exact hs
  · split
    next e => exact .of_fst hs.locate e
    next u _ e =>
      have hu : Keeps s u := .of_fst hs.locate e
      extract_lets _ _ _ s1
      have hs1 : Keeps s s1 := .ite hu hu.noteFirst
      split
      · split
        · exact hu.stopStream.fst
        · split
          · exact hu
          · split
            · exact .ite_fst hs1.qpSend.addReq.fst hu.stopStream.fst
            · exact hs1.addReq.fst
            · exact hs1.addReq.fst
      · exact hs1.issueRemote

theorem Keeps.issueRead {s s' : State} {n k va len off : Nat} (hs : Keeps s s') :
    Keeps s (s'.issueRead n k va len off).1 := by
  unfold State.issueRead
  split
  · exact hs
  · exact .ite_fst hs.readFor hs.readFor

theorem Keeps.issueWrite {s s' : State} {n k va off : Nat} {bs : Bytes} (hs : Keeps s s') :
    Keeps s (s'.issueWrite n k va off bs).1 := by
  unfold State.issueWrite
  extract_lets
  split
  · exact hs
  · extract_lets
    split
    next e => exact .of_fst hs.locate e
    next u _ e =>
      have hu : Keeps s u := .of_fst hs.locate e
      split
      · dsimp only
        split
        · exact hu.setStream.fst
        · split
          · exact hu
          · split
            · exact hu.stopStream.fst
            · split
              · exact hu
              · split
                · exact .ite_fst hu.qpSend.addReq.fst hu.stopStream.fst
                · refine .fst ?_
                  split
                  · exact hu.arriveAt.setStream
                  · exact hu.arriveAt
                · split
                  next v ev =>
                    have hv : Keeps s v := .of_fst hu.writeLocal ev
                    refine .fst ?_
                    split
                    · exact hv.setMx.addReq
                    · exact hv.addReq
                  next ev => exact .fst (.stopStream (.of_fst hu.writeLocal ev))
      · extract_lets _ _ _ _ s1
        have hs1 : Keeps s s1.1 := hu.issueRemote
        split
        · exact hu.setStream.fst
        · split
          · exact hu
          · split
            · refine .fst ?_
              split
              · exact hs1.setStream
              · exact hs1
            · exact hs1

theorem Keeps.issueAccum {s s' : State} {n k va off acc : Nat} {bs : Bytes} (hs : Keeps s s') :
    Keeps s (s'.issueAccum n k va off acc bs).1 := by
  unfold State.issueAccum
  extract_lets
  split
  · exact hs
  · split
    · exact hs.stopStream.fst
    · split
      next e => exact .of_fst hs.locate e
      next u _ e =>
        have hu : Keeps s u := .of_fst hs.locate e
        extract_lets
        split
        · exact hu.stopStream.fst
        · exact hu.stopStream.fst
        · extract_lets _ _ s1
          have hs1 : Keeps s s1 := hu.setMx.addReq
          refine .fst ?_
          split
          · exact hs1.setStream
          · exact hs1

theorem Keeps.progress {s s' : State} {n k done : Nat} (hs : Keeps s s') : Keeps s (s'.progress n k done) := by
  unfold State.progress
  split
  · exact hs.setStream
  · exact hs

theorem Keeps.slotRead {s s' : State} {n : Nat} {y : Stream} {off len : Nat} (hs : Keeps s s') :
    Keeps s (s'.slotRead n y off len).1 := by
  unfold State.slotRead
  split
  · exact hs.readSlot
  · exact hs

theorem Keeps.writePiece {s s' : State} {n k va len off acc : Nat} (hs : Keeps s s') :
    Keeps s (s'.writePiece n k va len off acc).1 := by
  unfold State.writePiece
  split
  · exact hs
  · split
    next u _ e =>
      have hu : Keeps s u := .of_fst hs.slotRead e
      exact .ite_fst hu.issueWrite hu.issueAccum
    next e => exact .fst (.stopStream (.of_fst hs.slotRead e))

theorem Keeps.movePiece {s s' : State} {n k va len off : Nat} {a : Option Nat} (hs : Keeps s s') :
    Keeps s (s'.movePiece n k va len off a).1 := by
  unfold State.movePiece
  split
  · exact hs.issueRead
  · exact hs.writePiece

theorem Keeps.runMove {s s' : State} {n k va total off0 : Nat} {acc : Option Nat} {a b : Nat} (hs : Keeps s s') :
    Keeps s (s'.runMove n k va total off0 acc a b).1 := by
  induction a generalizing s' n k va total off0 acc b with
  | zero => exact hs
  | succ a ih =>
    unfold State.runMove
    extract_lets
    split
    · exact hs
    · split
      next u e =>
        have hu : Keeps s u := .of_fst hs.movePiece e
        exact ih hu.progress
      · exact hs.movePiece

theorem Keeps.runRows {s s' : State} {n k ab ai rows len irs : Nat} {acc : Option Nat} {a : Nat} (hs : Keeps s s') :
    Keeps s (s'.runRows n k ab ai rows len irs acc a).1 := by
  induction a generalizing s' n k ab ai rows len irs acc with
  | zero => exact hs
  | succ a ih =>
    unfold State.runRows
    split
    · exact hs
    · extract_lets
      split
      extract_lets
      split
      · exact hs
      · split
        · split
          · exact hs
          · split
            next e => exact .of_fst hs.issueRead e
            · exact hs.issueRead
        · extract_lets
          split
          next u e =>
            have hu : Keeps s u := .of_fst hs.movePiece e
            exact ih hu.progress
          · exact hs.movePiece

theorem Keeps.passRead {s s' : State} {n : Nat} {y : Stream} {cache : List (Nat × Bytes)} {va len : Nat} (hs : Keeps s s') :
    Keeps s (s'.passRead n y cache va len).1 := by
  unfold State.passRead
  extract_lets
  split
  next e => exact .of_fst hs.translateNow e
  next e => exact .of_fst hs.translateNow e
  next e => exact .of_fst hs.translateNow e
  next u _ _ e =>
    have hu : Keeps s u := .of_fst hs.translateNow e
    extract_lets
    split
    · exact hu
    · split
      · exact hu
      · exact hu
      · split
        · exact hu
        · split
          · exact hu
          · split
            next ev => exact .of_fst hu.readMem ev
            next ev => exact .of_fst hu.readMem ev

theorem Keeps.overPieces {s s' : State} {f : State → Nat → Nat → Nat → State × Pass} {va total off a b : Nat}
    (hs : Keeps s s') (hf : ∀ u x1 x2 x3, Keeps s u → Keeps s (f u x1 x2 x3).1) :
    Keeps s (Machine.overPieces f va total off a b s').1 := by
  induction a generalizing s' off b with
  | zero => exact hs
  | succ a ih =>
    unfold Machine.overPieces
    extract_lets
    split
    · exact hs
    · split
      next e => exact ih (.of_fst (hf _ _ _ _ hs) e)
      · exact hf _ _ _ _ hs

theorem Keeps.noteResolved {s s' : State} {n k va : Nat} {write : Bool} (hs : Keeps s s') :
    Keeps s (s'.noteResolved n k va write) := by
  unfold State.noteResolved
  split
  · exact hs
  · split
    next e => exact .setStream (.of_fst hs.translate e)
    next e => exact .of_fst hs.translate e

theorem Keeps.passIndex {s s' : State} {n k : Nat} {y : Stream} {cache : List (Nat × Bytes)} {va : Nat} (hs : Keeps s s') :
    Keeps s (s'.passIndex n k y cache va).1 := by
  unfold State.passIndex
  split
  next u _ _ e =>
    have hu : Keeps s u := .of_fst hs.passRead e
    exact .fst (.ite hu.noteResolved hu)
  next e => exact .of_fst hs.passRead e

theorem Keeps.passRows {s s' : State} {n k : Nat} {y : Stream} {cache : List (Nat × Bytes)}
    {f : State → Nat → Nat → Nat → State × Pass} {r : SRegs} {ab ai rows len irs a b : Nat} (hs : Keeps s s')
    (hf : ∀ u x1 x2 x3, Keeps s u → Keeps s (f u x1 x2 x3).1) :
    Keeps s (s'.passRows n k y cache f r ab ai rows len irs a b).1 := by
  induction a generalizing s' b with
  | zero => exact hs
  | succ a ih =>
    unfold State.passRows
    split
    · exact hs
    · split
      next u _ e =>
        have hu : Keeps s u := .of_fst hs.passIndex e
        split
        next ev => exact ih (.of_fst (.overPieces hu hf) ev)
        · exact .overPieces hu hf
      next e => exact .of_fst hs.passIndex e

theorem Keeps.passSlot {s s' : State} {n k : Nat} {y : Stream} {cache : List (Nat × Bytes)}
    {f : Nat → State → Nat → Nat → Nat → State × Pass} {a : Nat} {b : SRegs} (hs : Keeps s s')
    (hf : ∀ x0 u x2 x3 x4, Keeps s u → Keeps s (f x0 u x2 x3 x4).1) :
    Keeps s (s'.passSlot n k y cache f a b).1 := by
  induction a generalizing s' b with
  | zero => exact hs
  | succ a ih =>
    unfold State.passSlot
    split
    · exact hs
    next  =>
      extract_lets move rows
      have hmove : ∀ ar post total acc, Keeps s (move ar post total acc).1 := by
        intro ar post total acc
        unfold move
        split
        next e => exact ih (.of_fst (.overPieces hs (hf acc)) e)
        · exact .overPieces hs (hf acc)
      have hrows : ∀ ab ai irl irs m acc, Keeps s (rows ab ai irl irs m acc).1 := by
        intro ab ai irl irs m acc
        unfold rows
        extract_lets
        split
        next e => exact ih (.of_fst (.passRows hs (hf acc)) e)
        · exact .passRows hs (hf acc)
      split
      · exact hs
      · exact hs
      · exact hs
      · exact hmove _ _ _ _
      · exact hmove _ _ _ _
      · exact hrows _ _ _ _ _ _
      · exact hrows _ _ _ _ _ _
      · split
        · exact ih hs
        · exact hs
      · exact ih hs

theorem Keeps.askFor {s s' : State} {n k va len mark : Nat} {tag : Bool} (hs : Keeps s s') :
    Keeps s (s'.askFor n k va len mark tag).1 := by
  unfold State.askFor
  split
  · exact hs
  · split
    · exact hs
    · split
      next e => exact .of_fst hs.readFor e
      · exact hs.readFor

theorem Keeps.noteAccSeal {s s' : State} {n k off acc : Nat} {bs : Bytes} (hs : Keeps s s') :
    Keeps s (s'.noteAccSeal n k off acc bs) := by
  unfold State.noteAccSeal
  split
  · exact hs.setStream
  · exact hs

theorem Keeps.visitTranslate {s s' : State} {n k : Nat} {y : Stream} {acc va len off : Nat} (hs : Keeps s s') :
    Keeps s (s'.visitTranslate n k y acc va len off).1 := by
  unfold State.visitTranslate
  extract_lets
  split
  next e => exact .of_fst hs.translateNow e
  next e => exact .of_fst hs.translateNow e
  next u _ _ _ e =>
    have hu : Keeps s u := .of_fst hs.translateNow e
    extract_lets s1
    have hs1 : Keeps s s1 := hu.noteResolved
    split
    · exact hs1
    · split
      next ev => exact .fst (.noteAccSeal (.of_fst hs1.slotRead ev))
      next ev => exact .of_fst hs1.slotRead ev

theorem Keeps.translateOnly {s s' : State} {n k : Nat} (hs : Keeps s s') : Keeps s (s'.translateOnly n k).1 := by
  unfold State.translateOnly
  split
  · exact hs
  · split
    next u _ _ _ e =>
      have hu : Keeps s u := .of_fst (.passSlot hs (fun _ _ _ _ _ hu => hu.visitTranslate)) e
      exact hu.suspend.fst
    next u _ _ e =>
      have hu : Keeps s u := .of_fst (.passSlot hs (fun _ _ _ _ _ hu => hu.visitTranslate)) e
      exact hu.stopStream.fst
    next e => exact .askFor (.of_fst (.passSlot hs (fun _ _ _ _ _ hu => hu.visitTranslate)) e)
    next e => exact .of_fst (.passSlot hs (fun _ _ _ _ _ hu => hu.visitTranslate)) e
    next u e =>
      have hu : Keeps s u := .of_fst (.passSlot hs (fun _ _ _ _ _ hu => hu.visitTranslate)) e
      split
      · split
        next v _ ev =>
          have hv : Keeps s v := .of_fst hu.readSlot ev
          exact .ite_fst hv.setStream.fst hv.stopStream.fst
        next ev => exact .fst (.stopStream (.of_fst hu.readSlot ev))
      · exact hu.stopStream.fst

theorem Keeps.sealCheck {s s' : State} {n : Nat} {y : Stream} {w : SealTry} {rec_ : SlotRec} {base : Nat} {got : Bytes}
    {a : Nat} (hs : Keeps s s') :
    Keeps s (s'.sealCheck n y w rec_ base got a).1 := by
  induction a generalizing s' n y w rec_ base got with
  | zero => exact hs
  | succ a ih =>
    unfold State.sealCheck
    extract_lets
    split
    · exact hs
    · extract_lets
      split
      next u _ _ e =>
        have hu : Keeps s u := .of_fst (.ite_fst hs.passRead hs) e
        split
        next v _ _ ev =>
          have hv : Keeps s v := .of_fst hu.passRead ev
          exact .ite_fst hv (.ite_fst hv.bump.fst (ih hv))
        next ev => exact .of_fst hu.passRead ev
      next e => exact .of_fst (.ite_fst hs.passRead hs) e

theorem Keeps.refetchPiece {s s' : State} {n : Nat} {y : Stream} {w : SealTry} {rec_ : SlotRec} {va len : Nat} (hs :
    Keeps s s') :
    Keeps s (s'.refetchPiece n y w rec_ va len).1 := by
  unfold State.refetchPiece
  extract_lets
  split
  · split
    next u _ _ e =>
      have hu : Keeps s u := .of_fst hs.passRead e
      split
      next ev => exact .of_fst hu.sealCheck ev
      · exact hu.sealCheck
    next e => exact .of_fst hs.passRead e
  · exact hs.passRead.fst

theorem Keeps.visitRefetch {s s' : State} {n rn : Nat} {y : Stream} {_acc va len off : Nat} (hs : Keeps s s') :
    Keeps s (s'.visitRefetch n rn y _acc va len off).1 := by
  unfold State.visitRefetch
  split
  · exact hs
  · extract_lets
    split
    next u _ _ _ _ e =>
      have hu : Keeps s u := .of_fst hs.refetchPiece e
      split
      · exact hu
      · exact .fst (.ite hu.setRing.writeSlot hu.setRing)

theorem Keeps.goOnRefetch {s s' : State} {n rn : Nat} (hs : Keeps s s') : Keeps s (s'.goOnRefetch n rn) := by
  unfold State.goOnRefetch
  split
  · exact hs
  · split
    · extract_lets
      split
      · exact hs
      · split
        next u _ _ _ e =>
          have hu : Keeps s u := .of_fst (.passSlot hs.setRing (fun _ _ _ _ _ hu => hu.visitRefetch)) e
          extract_lets s1
          have hs1 : Keeps s s1 := hu.suspend
          split
          · exact hs1.setRing
          · exact hs1
        next u _ _ e =>
          have hu : Keeps s u := .of_fst (.passSlot hs.setRing (fun _ _ _ _ _ hu => hu.visitRefetch)) e
          exact hu.stopStream
        next u _ _ e =>
          have hu : Keeps s u := .of_fst (.passSlot hs.setRing (fun _ _ _ _ _ hu => hu.visitRefetch)) e
          exact hu.askFor
        next e => exact .of_fst (.passSlot hs.setRing (fun _ _ _ _ _ hu => hu.visitRefetch)) e
        next u e =>
          have hu : Keeps s u := .of_fst (.passSlot hs.setRing (fun _ _ _ _ _ hu => hu.visitRefetch)) e
          split
          · exact hu
          · exact .setRing (.ite hu hu.bump)
    · exact hs

theorem Keeps.refetch {s s' : State} {n rn : Nat} (hs : Keeps s s') : Keeps s (s'.refetch n rn) := by
  unfold State.refetch
  extract_lets s1
  have hs1 : Keeps s s1 := hs.bump
  split
  · exact hs
  · split
    · exact hs1.setRing.goOnRefetch
    · exact hs

end Sys2Proof.Machine
end

section
/-! O54, O55: the operations of Machine/Grist keep the queue and the canonical form of memory. -/

namespace Sys2Proof.Machine

theorem Keeps.stall {s s' : State} {n index : Nat} (hs : Keeps s s') : Keeps s (s'.stall n index) := hs.bumpWrap

theorem Keeps.notReady {s s' : State} {n k : Nat} (hs : Keeps s s') : Keeps s (s'.notReady n k) := by
  unfold State.notReady
  split
  · split
    · exact hs.stall
    · exact hs.stall
    · exact hs.stall
    · exact hs
  · exact hs

theorem Keeps.waitStall {s s' : State} {n k : Nat} {w : Went} (hs : Keeps s s') : Keeps s (s'.waitStall n k w) := by
  unfold State.waitStall
  split
  · split
    · exact hs.stall
    · exact hs.stall
    · exact .ite hs.stall hs.stall
    · exact hs
  · exact hs

theorem Keeps.setRegs {s s' : State} {n k : Nat} {y : Stream} {r : SRegs} (hs : Keeps s s') :
    Keeps s (s'.setRegs n k y r) := hs.setStream

theorem Keeps.doPlain {s s' : State} {n k : Nat} {is_ : Grist → Bool} (hs : Keeps s s') :
    Keeps s (s'.doPlain n k is_) := by
  unfold State.doPlain
  split
  · exact .ite hs.setRegs hs
  · exact hs.notReady

theorem Keeps.beginSlot {s s' : State} {n k : Nat} (hs : Keeps s s') : Keeps s (s'.beginSlot n k) := by
  unfold State.beginSlot
  split
  · exact .ite hs hs.setStream
  · exact hs

theorem Keeps.finishMove {s s' : State} {n k : Nat} {f : SRegs → SRegs} (hs : Keeps s s') :
    Keeps s (s'.finishMove n k f) := by
  unfold State.finishMove
  split
  · exact hs.setStream
  · exact hs

theorem Keeps.doLoad {s s' : State} {n k : Nat} (hs : Keeps s s') : Keeps s (s'.doLoad n k) := by
  unfold State.doLoad
  split
  · extract_lets _ s1
    have hs1 : Keeps s s1.1 := hs.beginSlot.runMove
    exact .ite hs.stopStream (.ite hs.stall (.ite hs1.finishMove hs1.waitStall))
  · exact hs
  · exact hs.notReady

theorem Keeps.doGather {s s' : State} {n k : Nat} (hs : Keeps s s') : Keeps s (s'.doGather n k) := by
  unfold State.doGather
  split
  · extract_lets _ s1
    have hs1 : Keeps s s1.1 := hs.beginSlot.runRows
    exact .ite hs.stopStream (.ite hs.stopStream (.ite hs.stall (.ite hs1.finishMove hs1.waitStall)))
  · exact hs
  · exact hs.notReady

theorem Keeps.beforeAccum {s s' : State} {n k : Nat} {y : Stream} {acc : Nat} (hs : Keeps s s') :
    Keeps s (s'.beforeAccum n k y acc).1 := .ite_fst hs hs.translateOnly

theorem Keeps.doStore {s s' : State} {n k : Nat} (hs : Keeps s s') : Keeps s (s'.doStore n k) := by
  unfold State.doStore
  split
  · extract_lets
    split
    · exact hs.stopStream
    · split
      · exact hs.finishMove
      · split
        · exact hs.stopStream
        · split
          next u e =>
            have hu : Keeps s u := .of_fst hs.beforeAccum e
            exact .ite hu.runMove.finishMove hu.runMove.waitStall
          next e => exact .waitStall (.of_fst hs.beforeAccum e)
  · exact hs
  · exact hs.notReady

theorem Keeps.doScatter {s s' : State} {n k : Nat} (hs : Keeps s s') : Keeps s (s'.doScatter n k) := by
  unfold State.doScatter
  split
  · extract_lets
    split
    · exact hs.stopStream
    · split
      · exact hs.finishMove
      · split
        · exact hs.stopStream
        · split
          next u e =>
            have hu : Keeps s u := .of_fst hs.beforeAccum e
            exact .ite hu.runRows.finishMove hu.runRows.waitStall
          next e => exact .waitStall (.of_fst hs.beforeAccum e)
  · exact hs
  · exact hs.notReady

theorem Keeps.zeroPad {s s' : State} {n rn cur : Nat} (hs : Keeps s s') : Keeps s (s'.zeroPad n rn cur) := by
  unfold State.zeroPad
  split
  · exact hs.writeSlot
  · exact hs

theorem Keeps.doEmit {s s' : State} {n k : Nat} (hs : Keeps s s') : Keeps s (s'.doEmit n k) := by
  unfold State.doEmit
  split
  · extract_lets _ _ s1
    have hs1 : Keeps s s1 := .commitSlot (.ite hs.zeroPad hs)
    exact .ite hs (.ite hs.stall (.ite hs.stopStream hs1.setStream))
  · exact hs
  · exact hs.notReady

theorem Keeps.markBusy {s s' : State} {n rn : Nat} (hs : Keeps s s') : Keeps s (s'.markBusy n rn) := by
  unfold State.markBusy
  split
  · exact hs.setRing
  · exact hs

theorem Keeps.doTake {s s' : State} {n k : Nat} (hs : Keeps s s') : Keeps s (s'.doTake n k) := by
  unfold State.doTake
  split
  · extract_lets
    split
    · exact hs.stopStream
    · split
      · exact .ite hs.markBusy.setStream (.ite hs.stall hs)
      · exact hs.stopStream
  · exact hs
  · exact hs.notReady

theorem Keeps.doFree {s s' : State} {n k : Nat} (hs : Keeps s s') : Keeps s (s'.doFree n k) := by
  unfold State.doFree
  split
  · split
    · exact hs
    · split
      · exact hs.stopStream
      · split
        · exact hs.stopStream
        · split
          next u _ e =>
            have hu : Keeps s u := .of_fst hs.readSlot e
            extract_lets s1
            have hs1 : Keeps s s1 := hu.releaseSlot.setStream
            exact .ite (.ite hs1.endStream hs1) hu.watchEvent.stopStream
          next e => exact .stopStream (.of_fst hs.readSlot e)
  · exact hs
  · exact hs.notReady

theorem Keeps.doWait {s s' : State} {n k : Nat} (hs : Keeps s s') : Keeps s (s'.doWait n k) := by
  unfold State.doWait
  split
  · extract_lets
    split
    · exact .ite hs.stall hs.setRegs
    · split
      · exact hs.stopStream
      · exact .ite hs.setRegs hs.setStream.stall
  · exact hs
  · exact hs.notReady

theorem Keeps.doArrive {s s' : State} {n k : Nat} (hs : Keeps s s') : Keeps s (s'.doArrive n k) := by
  unfold State.doArrive
  split
  · extract_lets
    split
    · exact hs
    · split
      · exact hs.stopStream
      · exact .ite hs.setRegs hs.arriveAt.setStream
  · exact hs
  · exact hs.notReady

theorem Keeps.doEnd {s s' : State} {n k : Nat} (hs : Keeps s s') : Keeps s (s'.doEnd n k) := by
  unfold State.doEnd
  split
  · exact .ite hs (.ite hs.stopStream (.ite hs.setStream hs.endStream))
  · exact hs
  · exact hs.notReady

theorem Keeps.fillSlot {s s' : State} {n : Nat} {y : Stream} {off : Nat} {bs : Bytes} (hs : Keeps s s') :
    Keeps s (s'.fillSlot n y off bs) := by
  unfold State.fillSlot
  split
  · exact hs.writeSlot
  · exact hs

theorem Keeps.reqData {s s' : State} {q : Req} {tag : Nat} (hs : Keeps s s') : Keeps s (s'.reqData q tag).1 :=
  .ite_fst hs.readMem hs

theorem Keeps.fetchedFor {s s' : State} {n rn va : Nat} {bs : Bytes} (hs : Keeps s s') :
    Keeps s (s'.fetchedFor n rn va bs) := by
  unfold State.fetchedFor
  split
  · exact .ite hs.setRing.goOnRefetch hs
  · exact hs

theorem Keeps.fillArrives {s s' : State} {n k : Nat} {y : Stream} {q : Req} {bs : Bytes} (hs : Keeps s s') :
    Keeps s (s'.fillArrives n k y q bs) := by
  unfold State.fillArrives
  extract_lets _ _ _ store
  have hstore : ∀ u x1 x2 x3, Keeps s u → Keeps s (store u x1 x2 x3) := fun _ _ _ _ hu => .ite hu.setStream
      hu.fillSlot.setStream
  split
  · exact hstore _ _ _ _ hs
  · split
    · exact hstore _ _ _ _ hs
    · split
      next u _ _ _ e =>
        have hu : Keeps s u := .of_fst hs.sealCheck e
        exact hstore _ _ _ _ (.ite hu.bump hu)
      next e => exact .askFor (.setStream (.of_fst hs.sealCheck e))
      next e => exact .of_fst hs.sealCheck e
      next e => exact .suspend (.setStream (.of_fst hs.sealCheck e))
      next e => exact .stopStream (.setStream (.of_fst hs.sealCheck e))

theorem Keeps.doRequestComplete {s s' : State} {n k : Nat} (hs : Keeps s s') : Keeps s (s'.doRequestComplete n k) := by
  unfold State.doRequestComplete
  split
  · exact hs
  · split
    · exact hs
    · extract_lets
      split
      · exact hs.setStream
      · split
        · exact hs.setStream.stopStream
        · split
          · exact hs.setStream
          · split
            next u _ e =>
              have hu : Keeps s u := .of_fst hs.reqData e
              exact .ite hu.setStream.fetchedFor (.ite hu.setStream (.ite hu.setStream hu.fillArrives))
            next e => exact .stopStream (.setStream (.of_fst hs.reqData e))

theorem Keeps.doMemoryRead {s s' : State} {n k fails corrected : Nat} (hs : Keeps s s') :
    Keeps s (s'.doMemoryRead n k fails corrected) := by
  unfold State.doMemoryRead
  split
  · exact hs
  · split
    · exact hs
    · extract_lets
      split
      next e => exact .setStream (.of_fst hs.linkOutcome e)
      next u e =>
        have hu : Keeps s u := .of_fst hs.linkOutcome e
        split
        next v _ ev =>
          have hv : Keeps s v := .of_fst hu.readArray ev
          exact .ite hv.setStream hv.setStream
        next ev => exact .setStream (.of_fst hu.readArray ev)

theorem Keeps.doIncrement {s s' : State} {m : Nat} (hs : Keeps s s') : Keeps s (s'.doIncrement m) := by
  unfold State.doIncrement
  extract_lets
  split
  · exact hs
  · extract_lets s1
    have hs1 : Keeps s s1 := hs.setMx.bumpGen
    split
    · split
      · exact hs1.setStream
      · exact hs1
    · exact hs1

theorem Keeps.doProbe {s s' : State} {n rn : Nat} (hs : Keeps s s') : Keeps s (s'.doProbe n rn) := by
  unfold State.doProbe
  split
  · split
    · exact hs
    · split
      · exact .ite hs hs.setRing
      · exact hs
  · exact hs

theorem Keeps.doProbeResponse {s s' : State} {n rn : Nat} (hs : Keeps s s') : Keeps s (s'.doProbeResponse n rn) := by
  unfold State.doProbeResponse
  split
  · split
    · split
      · exact .ite hs.doRequestComplete hs.goOnRefetch
      · exact hs
    · exact .ite hs.setRing hs.refetch
    · exact hs
  · exact hs

theorem Keeps.doWalk {s s' : State} {n k : Nat} (hs : Keeps s s') : Keeps s (s'.doWalk n k) := by
  unfold State.doWalk
  split
  · split
    · split
      · exact hs.stall
      · extract_lets _ s1
        have hs1 : Keeps s s1 := hs.upd
        split
        next e => exact .suspend (.of_fst hs1.walkFill e)
        next e => exact .stopStream (.of_fst hs1.walkFill e)
        next e => exact .setStream (.of_fst hs1.walkFill e)
    · exact hs
  · exact hs

theorem Keeps.wakeStream {s s' : State} {n k : Nat} (hs : Keeps s s') : Keeps s (s'.wakeStream n k) := by
  unfold State.wakeStream
  split
  · extract_lets
    split
    · exact .ite hs.setStream hs.stall
    · exact hs
  · exact hs

end Sys2Proof.Machine
end

section
/-! O54, O55: the operations of Machine/Runs keep the queue and the canonical form of memory. -/

namespace Sys2Proof.Machine

theorem Keeps.grant {s s' : State} {q : GovReq} (hs : Keeps s s') : Keeps s (s'.grant q) := by
  unfold State.grant
  extract_lets _ s1
  have hs1 : Keeps s s1 := hs.upd
  split
  · exact hs1.setReg.bump.setReg
  · split
    · exact hs1.upd
    · exact hs1

theorem Keeps.govern {s s' : State} {a : Nat} (hs : Keeps s s') : Keeps s (s'.govern a) := by
  induction a generalizing s' with
  | zero => exact hs
  | succ a ih =>
    unfold State.govern
    split
    · exact hs
    · exact .ite (ih hs.upd.grant) hs

theorem Keeps.askGovernor {s s' : State} {q : GovReq} (hs : Keeps s s') : Keeps s (s'.askGovernor q) := hs.upd.govern

theorem Keeps.requestWake {s s' : State} {n : Nat} (hs : Keeps s s') : Keeps s (s'.requestWake n) :=
  .ite hs hs.askGovernor

theorem Keeps.setGate {s s' : State} {p : Nat} {g : Gate} (hs : Keeps s s') : Keeps s (s'.setGate p g) := hs.upd

theorem Keeps.recordBars {s s' : State} {p step mash : Nat} {img : List Nat} (hs : Keeps s s') :
    Keeps s (s'.recordBars p step mash img) := .ite hs hs.setGate

theorem Keeps.startRun {s s' : State} {n h : Nat} (hs : Keeps s s') : Keeps s (s'.startRun n h).1 := by
  unfold State.startRun
  extract_lets
  split
  · exact hs
  · split
    · exact hs.setCtx.requestWake.fst
    · extract_lets
      split
      · exact hs
      · exact .fst (.requestWake (.setCtx (.ite hs.recordBars hs)))

end Sys2Proof.Machine
end

section
/-! O54, O55: the operations of Machine/Cmd keep the queue and the canonical form of memory. -/

namespace Sys2Proof.Machine

theorem Keeps.modCmd {s s' : State} {n h : Nat} {f : CmdRun → CmdRun} (hs : Keeps s s') : Keeps s (s'.modCmd n h f) :=
  hs.modCtx

theorem Keeps.refuseRead {s s' : State} {n k : Nat} {y : Stream} {va : Nat} {st : Status} (hs : Keeps s s') :
    Keeps s (s'.refuseRead n k y va st).1 := .fst (.ite hs.postBadWord hs)

theorem Keeps.readResident {s s' : State} {n k : Nat} (hs : Keeps s s') : Keeps s (s'.readResident n k).1 := by
  unfold State.readResident
  split
  · exact hs
  · extract_lets
    split
    · exact hs
    · split
      · exact hs
      · split
        next e => exact .fst (.suspend (.of_fst hs.translateNow e))
        next e => exact .refuseRead (.of_fst hs.translateNow e)
        next e => exact .of_fst hs.translateNow e
        next u _ _ e =>
          have hu : Keeps s u := .of_fst hs.translateNow e
          split
          · exact hu
          · split
            · exact hu
            · split
              next v _ ev =>
                have hv : Keeps s v := .of_fst hu.readMem ev
                exact .ite_fst hv hv.setStream.fst
              next ev => exact .refuseRead (.of_fst hu.readMem ev)

theorem Keeps.readResidents {s s' : State} {n : Nat} {a : List Nat} (hs : Keeps s s') :
    Keeps s (s'.readResidents n a).1 := by
  induction a generalizing s' n with
  | nil => exact hs
  | cons x a ih =>
    unfold State.readResidents
    split
    next e => exact .of_fst hs.readResident e
    next u e =>
      have hu : Keeps s u := .of_fst hs.readResident e
      exact ih hu

theorem Keeps.openUp {s s' : State} {n h : Nat} (hs : Keeps s s') : Keeps s (s'.openUp n h) := by
  unfold State.openUp
  extract_lets
  split
  · exact hs
  · extract_lets
    split
    · exact hs.failCommand
    · split
      next e => exact .failCommand (.modCore (.of_fst hs.modCore.modCmd.readResidents e))
      next e => exact .of_fst hs.modCore.modCmd.readResidents e

theorem Keeps.beginCmd {s s' : State} {n h : Nat} (hs : Keeps s s') : Keeps s (s'.beginCmd n h) := by
  unfold State.beginCmd
  extract_lets _ _ _ _ _ _ s1
  have hs1 : Keeps s s1 := hs.setCtx.modCore
  exact .ite hs1 (.ite hs1.failCommand (.ite hs1.failCommand (.ite hs1 hs1.openUp)))

theorem Keeps.openIter {s s' : State} {n h : Nat} {k : CmdRun} {more : State → CmdRun → List Nat → List Status} (hs :
    Keeps s s') :
    Keeps s (s'.openIter n h k more) := by
  unfold State.openIter
  dsimp only
  split
  · exact hs.modCmd
  · exact .failCommand (.foldl hs (fun _ _ hu => hu.report))

theorem Keeps.finishCmd {s s' : State} {n h : Nat} (hs : Keeps s s') : Keeps s (s'.finishCmd n h) :=
  .foldl hs.modCmd (fun _ _ hu => hu.endStream)

theorem Keeps.endIter {s s' : State} {n h : Nat} {k : CmdRun} (hs : Keeps s s') : Keeps s (s'.endIter n h k) := by
  unfold State.endIter
  extract_lets s1 _ s2
  have hs1 : Keeps s s1 := hs.modCore
  have hs2 : Keeps s s2 := hs1.modCmd
  split
  · exact hs2.modCmd
  · exact hs2.finishCmd

theorem Keeps.cmdEcc {s s' : State} {n h : Nat} {st : Status} (hs : Keeps s s') : Keeps s (s'.cmdEcc n h st) :=
  hs.postBadWord.failCommand

theorem Keeps.takeSlot {s s' : State} {n h rn : Nat} {keep : Bool} (hs : Keeps s s') :
    Keeps s (s'.takeSlot n h rn keep).1 := by
  unfold State.takeSlot
  split
  · exact hs
  · split
    next u _ e =>
      have hu : Keeps s u := .of_fst hs.readSlot e
      split
      · split
        · exact hu.setRing.fst
        · exact hu
      · exact hu.releaseSlot.fst
    next e => exact .fst (.cmdEcc (.of_fst hs.readSlot e))

theorem Keeps.pull {s s' : State} {n h r need : Nat} {keep : Bool} {a : Nat} (hs : Keeps s s') :
    Keeps s (s'.pull n h r need keep a) := by
  induction a generalizing s' n h r need keep with
  | zero => exact hs
  | succ a ih =>
    unfold State.pull
    split
    · exact hs
    · extract_lets
      split
      · exact hs
      · split
        · exact hs
        · split
          · exact hs
          · split
            next e => exact .of_fst hs.takeSlot e
            next u _ e =>
              have hu : Keeps s u := .of_fst hs.takeSlot e
              exact ih hu.modCmd

theorem Keeps.dropKept {s s' : State} {n rn a : Nat} (hs : Keeps s s') : Keeps s (s'.dropKept n rn a) := by
  induction a generalizing s' n rn with
  | zero => exact hs
  | succ a ih =>
    unfold State.dropKept
    split
    · exact .ite hs (ih hs.releaseSlot)
    · exact hs

theorem Keeps.putSlot {s s' : State} {n rn : Nat} {bs : Bytes} (hs : Keeps s s') : Keeps s (s'.putSlot n rn bs) := by
  unfold State.putSlot
  split
  · exact hs.writeSlot.commitSlot
  · exact hs

theorem Keeps.holdFor {s s' : State} {n h : Nat} {e : REnd} (hs : Keeps s s') : Keeps s (s'.holdFor n h e) := by
  unfold State.holdFor
  split
  · split
    · exact .ite hs.modCtx hs
    · exact hs
  · exact hs

theorem Keeps.emptyStall {s s' : State} {n h rn : Nat} (hs : Keeps s s') : Keeps s (s'.emptyStall n h rn) := by
  unfold State.emptyStall
  extract_lets s1
  have hs1 : Keeps s s1 := hs.stall
  split
  · exact .ite hs1.stall hs1.holdFor
  · exact hs1

theorem Keeps.drainStall {s s' : State} {n h rn : Nat} (hs : Keeps s s') : Keeps s (s'.drainStall n h rn) := by
  unfold State.drainStall
  extract_lets s1
  have hs1 : Keeps s s1 := hs.stall
  split
  · exact hs1.holdFor
  · exact hs1

theorem Keeps.push {s s' : State} {n h r : Nat} {out : Bytes} {whole : Bool} {a : Nat} (hs : Keeps s s') :
    Keeps s (s'.push n h r out whole a) := by
  induction a generalizing s' n h r out whole with
  | zero => exact hs
  | succ a ih =>
    unfold State.push
    split
    · exact hs
    · extract_lets
      split
      · exact hs
      · exact .ite hs (.ite hs (ih hs.putSlot.modCmd))

theorem Keeps.rewind {s s' : State} {n h rn base : Nat} (hs : Keeps s s') : Keeps s (s'.rewind n h rn base) := by
  unfold State.rewind
  split
  · exact hs
  · extract_lets s1
    have hs1 : Keeps s s1 := hs.setRing
    split
    · split
      · exact hs1.setStream
      · exact hs1
    · exact hs1

theorem Keeps.releaseSlots {s s' : State} {n rn a : Nat} (hs : Keeps s s') : Keeps s (s'.releaseSlots n rn a) := by
  induction a generalizing s' n rn with
  | zero => exact hs
  | succ a ih =>
    unfold State.releaseSlots
    exact ih hs.releaseSlot

theorem Keeps.dropRows {s s' : State} {n h : Nat} {q : Kernel} (hs : Keeps s s') : Keeps s (s'.dropRows n h q) := by
  unfold State.dropRows
  refine .foldl hs fun _ _ hu => ?_
  split
  · exact hu
  · extract_lets
    split
    · exact hu
    · exact hu.releaseSlots

theorem Keeps.vecOut {s s' : State} {n h : Nat} {q : Kernel} (hs : Keeps s s') : Keeps s (s'.vecOut n h q) := by
  unfold State.vecOut
  split
  · exact hs
  · extract_lets _ _ s1
    have hs1 : Keeps s s1 := .foldl hs (fun _ _ hu => hu.push)
    split
    · exact hs1
    · extract_lets s2
      have hs2 : Keeps s s2 := .foldl hs1 (fun _ _ hu => .ite hu.dropKept hu)
      split
      · exact hs2.modCmd.endIter
      · split
        · exact hs1.drainStall
        · split
          · exact hs1.emptyStall
          · exact hs1

theorem Keeps.pullAll {s s' : State} {n h : Nat} {q : Kernel} {a : Nat} (hs : Keeps s s') :
    Keeps s (s'.pullAll n h q a) := by
  induction a generalizing s' n h q with
  | zero => exact hs
  | succ a ih =>
    unfold State.pullAll
    split
    · exact hs
    · split
      · exact hs
      · exact ih hs.pull.dropRows

theorem Keeps.vecStep {s s' : State} {n h : Nat} {kern : State → CmdRun → List Nat → Kernel} {k : CmdRun} (hs : Keeps s
    s') :
    Keeps s (s'.vecStep n h kern k) := by
  unfold State.vecStep
  extract_lets _ s1
  have hs1 : Keeps s s1 := hs.pullAll
  split
  · exact hs1
  · exact hs1.vecOut

theorem Keeps.invoke {s s' : State} {n h op : Nat} {more : State → CmdRun → List Nat → List Status} {step : State →
    CmdRun → State} (hs : Keeps s s') (hstep : ∀ u x1, Keeps s u → Keeps s (step u x1)) :
    Keeps s (s'.invoke n h op more step) := by
  unfold State.invoke
  extract_lets _ _ s1
  have hs1 : Keeps s s1 := .ite hs.beginCmd hs
  split
  · exact hs1
  · extract_lets s2
    have hs2 : Keeps s s2 := .ite hs1 hs1.openIter
    split
    · exact hs1
    · split
      · exact hs2
      · exact .ite (hstep _ _ hs2) hs2

theorem Keeps.vector {s s' : State} {n h op : Nat} {kern : State → CmdRun → List Nat → Kernel} {more : State → CmdRun →
    List Nat → List Status} (hs : Keeps s s') :
    Keeps s (s'.vector n h op kern more) :=
  .invoke hs (fun _ _ hu => hu.vecStep)

end Sys2Proof.Machine
end

section
/-! O54, O55: the operations of Machine/Array keep the queue and the canonical form of memory. -/

namespace Sys2Proof.Machine

theorem Keeps.turnTiles {s s' : State} {n : Nat} {q : Prod} {a b : Bytes} {nt st : Nat} (hs : Keeps s s') :
    Keeps s (s'.turnTiles n q a b nt st) := .ite hs (.ite (.modCore (.ite hs.modCore hs)) (.ite hs.modCore hs))

theorem Keeps.putBytesIn {s s' : State} {n : Nat} {r : Ring} {rel off : Nat} {bs : Bytes} (hs : Keeps s s') :
    Keeps s (s'.putBytesIn n r rel off bs).1 := .foldl_fst hs (fun _ _ hu => .ite_fst hu hu.writeMem)

theorem Keeps.putResult {s s' : State} {n h : Nat} {q : Prod} {a : Nat} {bs : Bytes} (hs : Keeps s s') :
    Keeps s (s'.putResult n h q a bs).1 :=
  .foldl_fst hs (fun _ _ hu => by
    split
    · split
      · exact hu
      · exact hu.putBytesIn.modCmd
    · exact hu)

theorem Keeps.commitDone {s s' : State} {n h : Nat} {q : Prod} {a : Nat} (hs : Keeps s s') :
    Keeps s (s'.commitDone n h q a) := by
  induction a generalizing s' n h q with
  | zero => exact hs
  | succ a ih =>
    unfold State.commitDone
    split
    · exact hs
    · extract_lets
      split
      · exact hs
      · exact .ite hs (ih (.modCmd (.commitSlot (.foldl hs (fun _ _ hu => hu.putBytesIn)))))

theorem Keeps.drainPass {s s' : State} {n h : Nat} {q : Prod} {ops : List Nat} {mask : Bytes} {a : Nat} {b : ArrayRun} (hs
    : Keeps s s') :
    Keeps s (s'.drainPass n h q ops mask a b).1 := by
  induction a generalizing s' n h q ops mask b with
  | zero => exact hs
  | succ a ih =>
    unfold State.drainPass
    split
    · exact hs
    · extract_lets _ s1 s2
      have hs1 : Keeps s s1.1 := .foldl_fst hs (fun _ _ hu => .ite_fst hu hu.putResult)
      have hs2 : Keeps s s2 := hs1.modCmd.commitDone
      split
      · exact hs
      · exact .ite_fst hs (.ite_fst hs (.ite_fst hs1.fst (ih hs2)))

theorem Keeps.setArray {s s' : State} {n : Nat} {a : Option ArrayRun} (hs : Keeps s s') : Keeps s (s'.setArray n a) :=
  hs.modCore

theorem Keeps.passDone {s s' : State} {n h : Nat} {q : Prod} {a : ArrayRun} (hs : Keeps s s') :
    Keeps s (s'.passDone n h q a) := by
  unfold State.passDone
  extract_lets
  split
  · exact hs
  · extract_lets _ _ s1 s2 s3 s4 s5 s6 s7
    have hs1 : Keeps s s1 := .ite hs hs.rewind
    have hs2 : Keeps s s2 := .ite hs1 hs1.rewind
    have hs3 : Keeps s s3 := .ite hs2.dropKept hs2
    have hs4 : Keeps s s4 := hs3.modCmd
    have hs5 : Keeps s s5 := hs4.setArray
    have hs6 : Keeps s s6 := .ite hs5.dropKept hs5
    have hs7 : Keeps s s7 := .ite hs6.dropKept hs6
    split
    · split
      · exact hs7.endIter
      · exact hs7
    · exact hs5

theorem Keeps.passEnd {s s' : State} {n h : Nat} {q : Prod} {a : ArrayRun} (hs : Keeps s s') :
    Keeps s (s'.passEnd n h q a) := by
  unfold State.passEnd
  extract_lets s1
  have hs1 : Keeps s s1 := hs.pull.pull
  split
  · exact hs1
  · extract_lets
    split
    · exact hs1.emptyStall
    · split
      · exact hs1.emptyStall
      · split
        next u _ e =>
          have hu : Keeps s u := .of_fst hs1.drainPass e
          exact .ite hu.passDone hu.setArray.drainStall
        next e => exact .cmdEcc (.of_fst hs1.drainPass e)

theorem Keeps.passBegin {s s' : State} {n h : Nat} {q : Prod} (hs : Keeps s s') : Keeps s (s'.passBegin n h q) := by
  unfold State.passBegin
  split
  · exact hs
  · extract_lets _ _ s1
    have hs1 : Keeps s s1 := hs.pull
    split
    · exact hs1
    · exact .ite hs1.emptyStall hs1.setArray

theorem Keeps.product {s s' : State} {n h op : Nat} (hs : Keeps s s') : Keeps s (s'.product n h op) :=
  .invoke hs (fun _ _ hu => by
    split
    · exact hu.passBegin
    · exact .ite hu hu.passEnd)

theorem Keeps.doKStep {s s' : State} {n : Nat} (hs : Keeps s s') : Keeps s (s'.doKStep n) := by
  unfold State.doKStep
  split
  · exact hs
  · extract_lets
    split
    · exact hs
    · extract_lets _ s1
      have hs1 : Keeps s s1 := hs.pull.pull
      split
      · exact hs.drainStall
      · split
        · exact hs.passEnd
        · split
          · exact hs1
          · extract_lets _ _ _ s2
            have hs2 : Keeps s s2 := hs1.turnTiles.setArray
            exact .ite hs1.emptyStall (.ite hs1.emptyStall (.ite hs2.passEnd hs2))

theorem Keeps.doArrayContinue {s s' : State} {n : Nat} (hs : Keeps s s') : Keeps s (s'.doArrayContinue n) := by
  unfold State.doArrayContinue
  split
  · exact hs
  · split
    · exact hs
    · exact .ite hs.passEnd hs

end Sys2Proof.Machine
end

section
/-! O54, O55: the operations of Machine/Vector keep the queue and the canonical form of memory. -/

namespace Sys2Proof.Machine

theorem Keeps.pullNoted {s s' : State} {n h r need a : Nat} (hs : Keeps s s') : Keeps s (s'.pullNoted n h r need a) := by
  induction a generalizing s' n h r need with
  | zero => exact hs
  | succ a ih =>
    unfold State.pullNoted
    split
    · exact hs
    · split
      · exact hs
      · exact .ite hs (ih hs.modCmd.pull)

theorem Keeps.scatterRecords {s s' : State} {n h size total a : Nat} (hs : Keeps s s') :
    Keeps s (s'.scatterRecords n h size total a) := by
  induction a generalizing s' n h size total with
  | zero => exact hs
  | succ a ih =>
    unfold State.scatterRecords
    split
    · exact hs
    · extract_lets s1
      have hs1 : Keeps s s1 := by
        unfold s1
        split
        · split
          · exact hs.modCmd
          · exact hs.emptyStall
        · exact hs
      split
      · exact hs
      · split
        · exact hs1
        · split
          · exact hs1
          · extract_lets _ _ _ s2
            have hs2 : Keeps s s2 := hs1.pullNoted
            split
            · exact hs2
            · exact .ite hs2.emptyStall (.ite hs2.failCommand (ih hs2.modCmd))

theorem Keeps.scatterStep {s s' : State} {n h : Nat} {k : CmdRun} (hs : Keeps s s') : Keeps s (s'.scatterStep n h k) := by
  unfold State.scatterStep
  extract_lets _ _ _ _ _ _ s1
  have hs1 : Keeps s s1 := hs.pull.scatterRecords
  split
  · exact hs1
  · extract_lets _ _ s2
    have hs2 : Keeps s s2 := hs1.push
    split
    · exact hs1
    · split
      · exact hs1.emptyStall
      · split
        · exact hs2
        · exact .ite hs2.dropKept.modCmd.endIter hs2.drainStall

theorem Keeps.sealHold {s s' : State} {n h : Nat} (hs : Keeps s s') : Keeps s (s'.sealHold n h) := by
  unfold State.sealHold
  extract_lets
  split
  · exact hs
  · exact .ite hs.modCore.setCtx hs

theorem Keeps.doElemwise {s s' : State} {n h : Nat} (hs : Keeps s s') : Keeps s (s'.doElemwise n h) := hs.vector

theorem Keeps.doRownormFwd {s s' : State} {n h : Nat} (hs : Keeps s s') : Keeps s (s'.doRownormFwd n h) := hs.vector

theorem Keeps.doRownormBwd {s s' : State} {n h : Nat} (hs : Keeps s s') : Keeps s (s'.doRownormBwd n h) := hs.vector

theorem Keeps.doSoftmaxFwd {s s' : State} {n h : Nat} (hs : Keeps s s') : Keeps s (s'.doSoftmaxFwd n h) := hs.vector

theorem Keeps.doSoftmaxBwd {s s' : State} {n h : Nat} (hs : Keeps s s') : Keeps s (s'.doSoftmaxBwd n h) := hs.vector

theorem Keeps.doRope {s s' : State} {n h : Nat} (hs : Keeps s s') : Keeps s (s'.doRope n h) := hs.vector

theorem Keeps.doMaskpack {s s' : State} {n h : Nat} (hs : Keeps s s') : Keeps s (s'.doMaskpack n h) := hs.vector

theorem Keeps.doRngMask {s s' : State} {n h : Nat} (hs : Keeps s s') : Keeps s (s'.doRngMask n h) := hs.vector

theorem Keeps.doCastMx {s s' : State} {n h : Nat} (hs : Keeps s s') : Keeps s (s'.doCastMx n h) := hs.vector

theorem Keeps.doGatherRows {s s' : State} {n h : Nat} (hs : Keeps s s') : Keeps s (s'.doGatherRows n h) := hs.vector

theorem Keeps.doScatterAdd {s s' : State} {n h : Nat} (hs : Keeps s s') : Keeps s (s'.doScatterAdd n h) :=
  .invoke hs (fun _ _ hu => hu.scatterStep)

theorem Keeps.doOptUpdate {s s' : State} {n h : Nat} (hs : Keeps s s') : Keeps s (s'.doOptUpdate n h) := hs.vector

theorem Keeps.doSeal {s s' : State} {n h : Nat} (hs : Keeps s s') : Keeps s (s'.doSeal n h) := hs.vector

theorem Keeps.doCheckSeal {s s' : State} {n h : Nat} (hs : Keeps s s') : Keeps s (s'.doCheckSeal n h) :=
  hs.vector.sealHold

theorem Keeps.doCheckpoint {s s' : State} {n h : Nat} (hs : Keeps s s') : Keeps s (s'.doCheckpoint n h) := hs.vector

end Sys2Proof.Machine
end

section
/-! O54, O55: the operations of Machine/Attention keep the queue and the canonical form of memory. -/

namespace Sys2Proof.Machine

theorem Keeps.attnStep {s s' : State} {n h : Nat} {kern : Core → CmdRun → List Nat → Kernel} {k : CmdRun} (hs : Keeps s
    s') :
    Keeps s (s'.attnStep n h kern k) := by
  unfold State.attnStep
  extract_lets _ _ s1
  have hs1 : Keeps s s1 := .foldl hs (fun _ _ hu => hu.pull)
  split
  · exact hs1
  · split
    · exact .ite hs1.emptyStall (.ite hs1.emptyStall hs1.modCmd.rewind)
    · dsimp only
      split
      · exact .ite hs1.vecOut.modCore hs1.vecOut
      · exact hs1.vecOut

theorem Keeps.doAttnFwd {s s' : State} {n h : Nat} (hs : Keeps s s') : Keeps s (s'.doAttnFwd n h) :=
  .invoke hs (fun _ _ hu => hu.attnStep)

theorem Keeps.doAttnBwd {s s' : State} {n h : Nat} (hs : Keeps s s') : Keeps s (s'.doAttnBwd n h) :=
  .invoke hs (fun _ _ hu => hu.attnStep)

end Sys2Proof.Machine
end

section
/-! O54, O55: the operations of Machine/Intake keep the queue and the canonical form of memory. -/

namespace Sys2Proof.Machine

theorem Keeps.setIntake {s s' : State} {d r : Nat} {x : Intake} (hs : Keeps s s') : Keeps s (s'.setIntake d r x) := hs.upd

theorem Keeps.voidPacket {s s' : State} {d r : Nat} {st : Status} (hs : Keeps s s') : Keeps s (s'.voidPacket d r st) :=
  .ite hs.bump.setIntake (.complete (.ite hs.bump.setIntake.condition hs.bump.setIntake))

theorem Keeps.intakeBytes {s s' : State} {d r off : Nat} {bs : Bytes} (hs : Keeps s s') :
    Keeps s (s'.intakeBytes d r off bs) :=
  .ite hs (.ite hs.voidPacket (.ite hs.voidPacket (.ite hs.setIntake hs.setIntake)))

theorem Keeps.intakeVoid {s s' : State} {d r : Nat} (hs : Keeps s s') : Keeps s (s'.intakeVoid d r) :=
  .setIntake (.ite hs hs.voidPacket)

theorem Keeps.intakeCommit {s s' : State} {d r len : Nat} (hs : Keeps s s') : Keeps s (s'.intakeCommit d r len) :=
  .ite hs.intakeVoid (.ite hs.setIntake hs.setIntake.upd)

theorem Keeps.doorbell {s s' : State} {d r v : Nat} (hs : Keeps s s') : Keeps s (s'.doorbell d r v) :=
  .ite hs.intakeCommit hs.intakeVoid

theorem Keeps.stir {s s' : State} {p : Nat} (hs : Keeps s s') : Keeps s (s'.stir p) := hs.upd

theorem Keeps.intakePop {s s' : State} {d r : Nat} (hs : Keeps s s') : Keeps s (s'.intakePop d r) := hs.setIntake.stir

theorem Keeps.reply {s s' : State} {d r tag n h : Nat} {st : Status} (hs : Keeps s s') :
    Keeps s (s'.reply d r tag n h st) := hs.intakePop.complete

theorem Keeps.rqCondition {s s' : State} {d r n : Nat} {st : Status} (hs : Keeps s s') :
    Keeps s (s'.rqCondition d r n st) := .ite hs.condition hs

theorem Keeps.refuse {s s' : State} {d r : Nat} {bs : Bytes} {st : Status} (hs : Keeps s s') :
    Keeps s (s'.refuse d r bs st) := hs.rqCondition.reply

theorem Keeps.sparge {s s' : State} {d r : Nat} {bs : Bytes} {sts : List Status} (hs : Keeps s s') :
    Keeps s (s'.sparge d r bs sts) := .reply (.bump (.foldl hs (fun _ _ hu => hu.rqCondition)))

theorem Keeps.heads {s s' : State} {d r : Nat} (hs : Keeps s s') : Keeps s (s'.heads d r).1 := by
  unfold State.heads
  extract_lets _ _ s1
  have hs1 : Keeps s s1 := hs.setIntake
  split
  · exact hs
  · split
    · exact hs1
    · split <;> exact hs1

theorem Keeps.reader {s s' : State} {d r ty : Nat} {f : State → Bytes → State} (hs : Keeps s s') (hf : ∀ u x1, Keeps s
    u → Keeps s (f u x1)) :
    Keeps s (s'.reader d r ty f) := by
  unfold State.reader
  split
  next e => exact .of_fst hs.heads e
  next e => exact .sparge (.of_fst hs.heads e)
  next u _ e =>
    have hu : Keeps s u := .of_fst hs.heads e
    exact .ite (hf _ _ hu) hu

theorem Keeps.setPart {s s' : State} {p : Nat} {x : Part} (hs : Keeps s s') : Keeps s (s'.setPart p x) := hs.upd

theorem Keeps.setCtxOf {s s' : State} {n h p c : Nat} {x : Ctx} (hs : Keeps s s') : Keeps s (s'.setCtxOf n h p c x) := by
  unfold State.setCtxOf
  split
  · exact hs.upd
  · exact hs.setCtx

theorem Keeps.unloadCtx {s s' : State} {n h p c : Nat} (hs : Keeps s s') : Keeps s (s'.unloadCtx n h p c) := by
  unfold State.unloadCtx
  split
  · exact hs.dropSaved
  · exact hs.vacateCtx

theorem Keeps.abortSaved {s s' : State} {v : Saved} (hs : Keeps s s') : Keeps s (s'.abortSaved v) :=
  .upd (.runEnds (.foldl hs (fun _ _ hu => .ite hu.postFault hu)))

theorem Keeps.doAbort {s s' : State} {d r : Nat} (hs : Keeps s s') : Keeps s (s'.doAbort d r) := by
  unfold State.doAbort
  refine .reader hs fun _ _ hu => ?_
  extract_lets _ _ _ _ _ s1
  have hs1 : Keeps s s1 := by
    unfold s1
    split
    · exact hu.abortSaved
    · exact hu.endRun
  split
  · exact hu.refuse
  · split
    · exact hs1.reply
    · exact hu.refuse

theorem Keeps.doUnload {s s' : State} {d r : Nat} (hs : Keeps s s') : Keeps s (s'.doUnload d r) := by
  unfold State.doUnload
  refine .reader hs fun _ _ hu => ?_
  extract_lets
  split
  · exact hu.refuse
  · split
    · exact hu.reply
    · exact hu.unloadCtx.reply
    · exact hu.unloadCtx.reply
    · exact hu.refuse

theorem Keeps.doStart {s s' : State} {d r : Nat} (hs : Keeps s s') : Keeps s (s'.doStart d r) := by
  unfold State.doStart
  refine .reader hs fun _ _ hu => ?_
  extract_lets
  split
  · exact hu.refuse
  · split
    · exact hu
    · split
      · exact hu.refuse
      · split
        · exact hu
        · split
          next e => exact .reply (.of_fst hu.startRun e)
          next e => exact .refuse (.of_fst hu.startRun e)

theorem Keeps.doPatch {s s' : State} {d r : Nat} (hs : Keeps s s') : Keeps s (s'.doPatch d r) := by
  unfold State.doPatch
  refine .reader hs fun _ _ hu => ?_
  extract_lets _ _ _ _ _ _ _ s1
  have hs1 : Keeps s s1 := hu.setCtxOf
  split
  · exact hu.refuse
  · split
    · exact hu.refuse
    · split
      · exact hu.refuse
      · split
        · exact hs1.reply
        · split
          · split
            next e => exact .reply (.of_fst hs1.startRun e)
            next e => exact .refuse (.of_fst hs1.startRun e)
          · exact hs1.setIntake.stir

end Sys2Proof.Machine
end

section
/-! O54, O55: the operations of Machine/Dma keep the queue and the canonical form of memory. -/

namespace Sys2Proof.Machine

theorem Keeps.vaWalk {s s' : State} {p c va : Nat} {write : Bool} (hs : Keeps s s') :
    Keeps s (s'.vaWalk p c va write).1 := by
  unfold State.vaWalk
  split
  next e => exact .of_fst hs.walk e
  next e => exact .of_fst hs.walk e
  next u _ _ e =>
    have hu : Keeps s u := .of_fst hs.walk e
    exact .ite_fst hu (.ite_fst hu hu)

theorem Keeps.vaRead {s s' : State} {p c va len : Nat} {who : Asker} {why : Purpose} (hs : Keeps s s') :
    Keeps s (s'.vaRead p c va len who why).1 := by
  unfold State.vaRead
  split
  next e => exact .of_fst hs.vaWalk e
  next u _ e =>
    have hu : Keeps s u := .of_fst hs.vaWalk e
    extract_lets
    split
    · split
      next ev => exact .of_fst hu.issue ev
      next ev => exact .of_fst hu.issue ev
      next ev => exact .of_fst hu.issue ev
    · split
      · exact hu
      · split
        · exact .ite_fst hu.qpSend.fst hu
        · split
          · exact hu
          · split
            next ev => exact .of_fst hu.readMem ev
            next ev => exact .of_fst hu.readMem ev

theorem Keeps.vaWrite {s s' : State} {p c va : Nat} {bs : Bytes} {who : Asker} {why : Purpose} (hs : Keeps s s') :
    Keeps s (s'.vaWrite p c va bs who why).1 := by
  unfold State.vaWrite
  split
  next e => exact .of_fst hs.vaWalk e
  next u _ e =>
    have hu : Keeps s u := .of_fst hs.vaWalk e
    extract_lets
    split
    · split
      next ev => exact .of_fst hu.issue ev
      next ev => exact .of_fst hu.issue ev
      next ev => exact .of_fst hu.issue ev
    · split
      · exact hu
      · split
        · exact .ite_fst hu.postWrite.fst hu
        · split
          · exact hu
          · split
            next ev => exact .of_fst hu.writeMem ev
            next ev => exact .of_fst hu.writeMem ev

end Sys2Proof.Machine
end

section
/-! O54, O55: the operations of Machine/Load keep the queue and the canonical form of memory. -/

namespace Sys2Proof.Machine

theorem Keeps.setLoad {s s' : State} {n h : Nat} {l : LoadReq} (hs : Keeps s s') : Keeps s (s'.setLoad n h l) := hs.modCtx

theorem Keeps.dmaFail {s s' : State} {n h off : Nat} {l : LoadReq} {st : Status} (hs : Keeps s s') :
    Keeps s (s'.dmaFail n h off l st) := .ite hs.postBadWord hs

theorem Keeps.dmaPiece {s s' : State} {n h : Nat} {l : LoadReq} {off len : Nat} (hs : Keeps s s') :
    Keeps s (s'.dmaPiece n h l off len).1 := by
  unfold State.dmaPiece
  extract_lets
  split
  next e => exact .of_fst hs.vaRead e
  next e => exact .of_fst hs.vaRead e
  next e => exact .of_fst hs.vaRead e
  next e => exact .fst (.dmaFail (.of_fst hs.vaRead e))

theorem Keeps.dmaPieces {s s' : State} {n h : Nat} {l : LoadReq} {a : List (Nat × Nat)} (hs : Keeps s s') :
    Keeps s (s'.dmaPieces n h l a).1 := by
  induction a generalizing s' n h l with
  | nil => exact hs
  | cons x a ih =>
    unfold State.dmaPieces
    split
    next u _ e =>
      have hu : Keeps s u := .of_fst hs.dmaPiece e
      exact .ite_fst hu (ih hu)
    next e => exact .of_fst hs.dmaPiece e

theorem Keeps.dmaStart {s s' : State} {n h off len : Nat} (hs : Keeps s s') : Keeps s (s'.dmaStart n h off len) := by
  unfold State.dmaStart
  split
  · exact hs.dmaPieces.setLoad
  · exact hs

theorem Keeps.dmaGot {s s' : State} {n h off : Nat} {st : Status} {data : Bytes} (hs : Keeps s s') :
    Keeps s (s'.dmaGot n h off st data) := by
  unfold State.dmaGot
  split
  · exact .ite hs.dmaFail.setLoad hs
  · exact hs

theorem Keeps.loadFails {s s' : State} {n h : Nat} {l : LoadReq} {sts : List Status} (hs : Keeps s s') :
    Keeps s (s'.loadFails n h l sts) := .reply (.vacateCtx (.foldl hs (fun _ _ hu => hu.report)))

theorem Keeps.doLoadRequest {s s' : State} {d r : Nat} (hs : Keeps s s') : Keeps s (s'.doLoadRequest d r) := by
  unfold State.doLoadRequest
  refine .reader hs fun _ _ hu => ?_
  extract_lets _ _ _ _ _ _ _ s1
  have hs1 : Keeps s s1 := hu.setIntake
  split
  · exact hu
  · split
    · exact .ite hu hs1.setCtx.dmaStart
    · exact .reply (.foldl hu (fun _ _ hu => hu.rqCondition))

theorem Keeps.doHeader {s s' : State} {n h : Nat} (hs : Keeps s s') : Keeps s (s'.doHeader n h) := by
  unfold State.doHeader
  split
  · exact hs
  · extract_lets
    split
    · exact hs
    · split
      · exact hs.dmaPieces.setLoad
      · split
        · exact hs.loadFails
        · split
          · exact hs.modCtx.setLoad.dmaStart
          · exact hs.loadFails

theorem Keeps.arm {s s' : State} {p r : Nat} (hs : Keeps s s') : Keeps s (s'.arm p r) := by
  unfold State.arm
  extract_lets
  split
  · exact hs
  · split
    · exact hs.setBarrier
    · exact hs

theorem Keeps.loadDone {s s' : State} {n h : Nat} {l : LoadReq} {img : List Nat} (hs : Keeps s s') :
    Keeps s (s'.loadDone n h l img) := by
  unfold State.loadDone
  extract_lets _ _ s1 s2 s3 _ s4 s5
  have hs1 : Keeps s s1 := .foldl hs.modCore (fun _ _ hu => hu.arm)
  have hs2 : Keeps s s2 := hs1.setCtx
  have hs3 : Keeps s s3.1 := .ite_fst hs2.startRun hs2
  have hs4 : Keeps s s4.1 := .ite_fst hs3.modCtx.fst hs3
  have hs5 : Keeps s s5 := .ite hs4.report hs4
  exact hs5.reply

theorem Keeps.doImage {s s' : State} {n h : Nat} (hs : Keeps s s') : Keeps s (s'.doImage n h) := by
  unfold State.doImage
  extract_lets
  split
  · exact hs
  · extract_lets
    split
    · exact hs
    · extract_lets
      split
      · exact hs.dmaPieces.setLoad
      · split
        · exact hs.loadFails
        · split
          · exact hs.loadFails
          · split
            · exact .ite hs.loadFails hs.loadDone
            · exact hs.loadFails

end Sys2Proof.Machine
end

section
/-! O54, O55: the operations of Machine/Control keep the queue and the canonical form of memory. -/

namespace Sys2Proof.Machine

theorem Keeps.syncDone {s s' : State} {n h : Nat} (hs : Keeps s s') : Keeps s (s'.syncDone n h) :=
  hs.modCtx.acquire.modCmd

theorem Keeps.syncStep {s s' : State} {n h : Nat} {k : CmdRun} (hs : Keeps s s') : Keeps s (s'.syncStep n h k) := by
  unfold State.syncStep
  extract_lets _ _ s1
  have hs1 : Keeps s s1 := .ite hs.arriveAt hs
  split
  · exact hs.failCommand
  · exact .ite hs1.modCmd (.ite hs1.syncDone hs1.modCtx.modCore.stall)

theorem Keeps.doBarrier {s s' : State} {n h : Nat} (hs : Keeps s s') : Keeps s (s'.doBarrier n h) :=
  .ite hs.stall (.invoke hs (fun _ _ hu => hu.syncStep))

theorem Keeps.doWaitCmd {s s' : State} {n h : Nat} (hs : Keeps s s') : Keeps s (s'.doWaitCmd n h) :=
  .ite hs.stall (.invoke hs (fun _ _ hu => hu.syncStep))

theorem Keeps.wakeCtx {s s' : State} {n h : Nat} (hs : Keeps s s') : Keeps s (s'.wakeCtx n h) := by
  unfold State.wakeCtx
  extract_lets
  split
  · exact hs
  · exact .ite (.ite hs.syncDone hs.stall) hs

theorem Keeps.doBarrierHolds {s s' : State} {n : Nat} {a : Waiter} (hs : Keeps s s') :
    Keeps s (s'.doBarrierHolds n a) := by
  unfold State.doBarrierHolds
  split
  · exact hs.wakeStream
  · exact hs.wakeCtx

theorem Keeps.fillLease {s s' : State} {n h : Nat} {k : CmdRun} (hs : Keeps s s') : Keeps s (s'.fillLease n h k).1 := by
  unfold State.fillLease
  extract_lets
  split
  · exact hs
  · split
    · exact hs
    · exact hs.modCmd.fst

theorem Keeps.fillStep {s s' : State} {n h : Nat} {k : CmdRun} (hs : Keeps s s') : Keeps s (s'.fillStep n h k) := by
  unfold State.fillStep
  extract_lets
  split
  next e => exact .failCommand (.of_fst hs.fillLease e)
  next u e =>
    have hu : Keeps s u := .of_fst hs.fillLease e
    extract_lets r
    have hr : Keeps s r.1 := by
      refine .ite_fst hu.writeMem ?_
      split
      next e1 => exact .writeMem (.of_fst hu.readMem e1)
      next e1 => exact .of_fst hu.readMem e1
    generalize r = w at hr ⊢
    split
    · exact .endIter hr
    · exact .cmdEcc hr
    · exact .failCommand hr

theorem Keeps.doFill {s s' : State} {n h : Nat} (hs : Keeps s s') : Keeps s (s'.doFill n h) :=
  .invoke hs (fun _ _ hu => hu.fillStep)

theorem Keeps.doCopy {s s' : State} {n h : Nat} (hs : Keeps s s') : Keeps s (s'.doCopy n h) :=
  .invoke hs (fun _ _ hu => hu.fillStep)

theorem Keeps.doPatchCmd {s s' : State} {n h : Nat} (hs : Keeps s s') : Keeps s (s'.doPatchCmd n h) :=
  .invoke hs (fun _ _ hu => hu.modCtx.modCmd)

theorem Keeps.noteForward {s s' : State} {n h : Nat} {k : CmdRun} (hs : Keeps s s') : Keeps s (s'.noteForward n h k) :=
  .ite hs.setGate hs

theorem Keeps.overDone {s s' : State} {p n h tag : Nat} (hs : Keeps s s') : Keeps s (s'.overDone p n h tag) := by
  unfold State.overDone
  extract_lets
  split
  · exact .ite hs.setPart hs
  · exact hs

theorem Keeps.noteShadow {s s' : State} {n h : Nat} {k : CmdRun} (hs : Keeps s s') : Keeps s (s'.noteShadow n h k) :=
  .ite hs.upd.bump hs

theorem Keeps.doCommandComplete {s s' : State} {n h : Nat} (hs : Keeps s s') : Keeps s (s'.doCommandComplete n h) := by
  unfold State.doCommandComplete
  extract_lets _ s1
  have hs1 : Keeps s s1 := hs.overDone
  split
  · exact hs
  · split
    · split
      · exact hs1.noteForward.noteShadow.completeCommand
      · exact hs1.failCommand
    · exact .ite hs.modCtx hs

theorem Keeps.doGatedUpdate {s s' : State} {n h : Nat} (hs : Keeps s s') : Keeps s (s'.doGatedUpdate n h) := by
  unfold State.doGatedUpdate
  extract_lets _ s1
  have hs1 : Keeps s s1 := hs.modCore
  split
  · exact hs
  · split
    · split
      · exact hs.stall
      · exact .ite hs (.ite hs1.modCmd.modCore.openUp hs1.failCommand)
    · exact hs

theorem Keeps.doPreemption {s s' : State} {n h : Nat} (hs : Keeps s s') : Keeps s (s'.doPreemption n h) :=
  .ite (.saveCtx (.ite hs.overDone.bump hs.overDone)) hs

end Sys2Proof.Machine
end

section
/-! O54, O55: the operations of Machine/Sched keep the queue and the canonical form of memory. -/

namespace Sys2Proof.Machine

theorem Keeps.choose {s s' : State} {p : Nat} {a : List Nat} (hs : Keeps s s') : Keeps s (s'.choose p a).1 := by
  induction a generalizing s' p with
  | nil => exact hs
  | cons x a ih =>
    unfold State.choose
    exact .ite_fst (ih hs) (.ite_fst (ih hs.setPart) (.ite_fst hs (ih hs)))

theorem Keeps.resume {s s' : State} {v : Saved} (hs : Keeps s s') : Keeps s (s'.resume v) := .ite hs hs.restoreCtx

theorem Keeps.becomeResident {s s' : State} {p c : Nat} (hs : Keeps s s') : Keeps s (s'.becomeResident p c) :=
  .foldl hs.setReg.setPart (fun _ _ hu => hu.resume)

theorem Keeps.saveIdle {s s' : State} {n h : Nat} (hs : Keeps s s') : Keeps s (s'.saveIdle n h) := .ite hs.saveCtx hs

theorem Keeps.askPreempt {s s' : State} {n h : Nat} (hs : Keeps s s') : Keeps s (s'.askPreempt n h) := .ite hs.modCtx hs

theorem Keeps.beginSwitch {s s' : State} {p b : Nat} (hs : Keeps s s') : Keeps s (s'.beginSwitch p b) :=
  .foldl hs.setPart (fun _ _ hu => hu.askPreempt.saveIdle)

theorem Keeps.schedule {s s' : State} {p a : Nat} (hs : Keeps s s') : Keeps s (s'.schedule p a) := by
  induction a generalizing s' p with
  | zero => exact hs
  | succ a ih =>
    unfold State.schedule
    extract_lets
    split
    · exact hs
    · split
      · exact hs
      · split
        next u _ e =>
          have hu : Keeps s u := .of_fst hs.choose e
          exact .ite hu.beginSwitch hu.becomeResident
        next u e =>
          have hu : Keeps s u := .of_fst hs.choose e
          exact .ite (ih hu) hu

theorem Keeps.doSliceEnd {s s' : State} {p : Nat} (hs : Keeps s s') : Keeps s (s'.doSliceEnd p) := by
  unfold State.doSliceEnd
  extract_lets
  split
  · exact hs
  · split
    next e => exact .beginSwitch (.of_fst hs.choose e)
    next e => exact .of_fst hs.choose e

theorem Keeps.doSwitchComplete {s s' : State} {p : Nat} (hs : Keeps s s') : Keeps s (s'.doSwitchComplete p) := by
  unfold State.doSwitchComplete
  extract_lets _ s1
  have hs1 : Keeps s s1 := .foldl hs (fun _ _ hu => hu.askPreempt.saveIdle)
  split
  · exact hs
  · extract_lets _ _ s2 s3 s4
    have hs2 : Keeps s s2 := hs1.setPart.bump
    have hs3 : Keeps s s3 := .ite hs2.bump.bump.condition hs2
    have hs4 : Keeps s s4 := hs3.upd
    exact .ite hs1 hs4.becomeResident.stir

theorem Keeps.resumeCore {s s' : State} {n : Nat} (hs : Keeps s s') : Keeps s (s'.resumeCore n) :=
  .foldl hs (fun _ _ hu => hu.resume)

theorem Keeps.accruePart {s s' : State} {k p : Nat} (hs : Keeps s s') : Keeps s (s'.accruePart k p) :=
  .foldl hs (fun _ _ hu => .ite hu.bump (.ite hu.bump hu))

theorem Keeps.accrue {s s' : State} {k : Nat} (hs : Keeps s s') : Keeps s (s'.accrue k) :=
  .ite hs (.foldl hs (fun _ _ hu => hu.accruePart))

theorem Keeps.tick {s s' : State} (hs : Keeps s s') : Keeps s s'.tick := .ite hs.upd.accrue hs

end Sys2Proof.Machine
end

section
/-! O54, O55: the operations of Machine/Mash keep the queue and the canonical form of memory. -/

namespace Sys2Proof.Machine

theorem Keeps.setGState {s s' : State} {p v : Nat} (hs : Keeps s s') : Keeps s (s'.setGState p v) := hs.setReg

theorem Keeps.gateNote {s s' : State} {p : Nat} {st : Status} {step : Nat} (hs : Keeps s s') :
    Keeps s (s'.gateNote p st step) := hs.condition

theorem Keeps.voteLost {s s' : State} {p step : Nat} {st : Status} (hs : Keeps s s') : Keeps s (s'.voteLost p step st) :=
  .ite hs.gateNote.setGState.upd hs.gateNote

theorem Keeps.sendVote {s s' : State} {p dev q step kind : Nat} (hs : Keeps s s') :
    Keeps s (s'.sendVote p dev q step kind) := by
  unfold State.sendVote
  extract_lets
  split
  · exact hs.upd
  · split
    next e => exact .of_fst hs.issue e
    next e => exact .setGate (.of_fst hs.issue e)
    next e => exact .voteLost (.of_fst hs.issue e)

theorem Keeps.voteUp {s s' : State} {p kind : Nat} (hs : Keeps s s') : Keeps s (s'.voteUp p kind) := .ite hs.sendVote hs

theorem Keeps.voteDown {s s' : State} {p kind : Nat} (hs : Keeps s s') : Keeps s (s'.voteDown p kind) :=
  .foldl hs (fun _ _ hu => hu.sendVote)

theorem Keeps.failVotes {s s' : State} {p : Nat} (hs : Keeps s s') : Keeps s (s'.failVotes p) := hs.voteUp.voteDown

theorem Keeps.gateFail {s s' : State} {p : Nat} (hs : Keeps s s') : Keeps s (s'.gateFail p) :=
  .ite hs.setGState.failVotes hs

theorem Keeps.gateOpen {s s' : State} {p : Nat} (hs : Keeps s s') : Keeps s (s'.gateOpen p) := hs.setGState.voteDown

theorem Keeps.gateReady {s s' : State} {p : Nat} (hs : Keeps s s') : Keeps s (s'.gateReady p) :=
  .ite (.ite hs.voteUp.gateOpen hs.voteUp) hs.gateOpen

theorem Keeps.gateCheck {s s' : State} {p : Nat} (hs : Keeps s s') : Keeps s (s'.gateCheck p) :=
  .ite hs.setGState.gateReady hs

theorem Keeps.writeGateParent {s s' : State} {p v : Nat} (hs : Keeps s s') : Keeps s (s'.writeGateParent p v) :=
  .ite hs.setReg (.ite hs.setReg.setGate.gateReady hs.setReg.setGate)

theorem Keeps.writeGateChildren {s s' : State} {p v : Nat} (hs : Keeps s s') : Keeps s (s'.writeGateChildren p v) :=
  hs.setReg.gateCheck

theorem Keeps.takeVote {s s' : State} {q dev src step kind : Nat} (hs : Keeps s s') :
    Keeps s (s'.takeVote q dev src step kind) := by
  unfold State.takeVote
  split
  · split
    · split
      · dsimp only
        split
        · exact hs.gateNote
        · exact hs
        · exact .ite hs.gateNote hs.gateFail
      · dsimp only
        split
        · exact hs.gateNote
        · exact hs
        · exact .ite hs hs.setGate.gateCheck
      · dsimp only
        split
        · exact hs.gateNote
        · exact hs
        · exact .ite hs.gateOpen hs.setGate
    · split
      · dsimp only
        split
        · exact hs.gateNote
        · exact hs
        · exact .ite hs.gateNote hs.gateFail
      · dsimp only
        split
        · exact hs.gateNote
        · exact hs
        · exact .ite hs hs.setGate.gateCheck
      · dsimp only
        split
        · exact hs.gateNote
        · exact hs
        · exact .ite hs.gateOpen hs.setGate
  · extract_lets
    split
    · split <;> exact hs.setGate
    · exact hs.gateNote

theorem Keeps.deliverVote {s s' : State} {q dev src step kind : Nat} (hs : Keeps s s') :
    Keeps s (s'.deliverVote q dev src step kind).1 := .ite_fst hs hs.takeVote.fst

theorem Keeps.localVote {s s' : State} {src q step kind : Nat} (hs : Keeps s s') :
    Keeps s (s'.localVote src q step kind) := by
  unfold State.localVote
  split
  next e => exact .of_fst hs.deliverVote e
  next e => exact .voteLost (.of_fst hs.deliverVote e)

theorem Keeps.flushVotes {s s' : State} (hs : Keeps s s') : Keeps s s'.flushVotes :=
  .foldl hs (fun _ _ hu => .ite hu (.foldl hu.setGate (fun _ _ hv => hv.sendVote)))

theorem Keeps.gateVerdict {s s' : State} {p step : Nat} {pass : Bool} (hs : Keeps s s') :
    Keeps s (s'.gateVerdict p step pass) := by
  unfold State.gateVerdict
  extract_lets _ note s1
  have hnote : ∀ u, Keeps s u → Keeps s (note u) := fun _ hu => hu.gateNote
  have hs1 : Keeps s s1 := .ite hs.bump.gateCheck hs.gateFail
  exact .ite (.ite (hnote _ hs1) hs1) (.ite hs.setGate (hnote _ hs))

theorem Keeps.doGateTimeout {s s' : State} {p : Nat} (hs : Keeps s s') : Keeps s (s'.doGateTimeout p) :=
  .ite hs hs.gateFail

theorem Keeps.releaseHeld {s s' : State} {p : Nat} {r : Report} {st : Status} (hs : Keeps s s') :
    Keeps s (s'.releaseHeld p r st) := by
  unfold State.releaseHeld
  extract_lets
  split
  · extract_lets
    split
    · exact hs.setCtxOf
    · exact hs
  · split
    · exact hs
    · split
      · exact .ite hs.setCtx hs.failCommand
      · exact hs

theorem Keeps.verdictRecords {s s' : State} {p : Nat} {k : MashKey} {v : Nat} (hs : Keeps s s') :
    Keeps s (s'.verdictRecords p k v) := .foldl hs (fun _ _ hu => hu.record)

theorem Keeps.formVerdict {s s' : State} {p : Nat} {k : MashKey} {v : Nat} (hs : Keeps s s') :
    Keeps s (s'.formVerdict p k v) := by
  unfold State.formVerdict
  extract_lets _ _ _ s1 s2 _ s3 _ s4 s5
  have hs1 : Keeps s s1 := hs.bump
  have hs2 : Keeps s s2 := .ite hs1 hs1.bump.verdictRecords
  have hs3 : Keeps s s3 := .foldl hs2 (fun _ _ hu => hu.watchEvent)
  have hs4 : Keeps s s4 := hs3.setGate
  have hs5 : Keeps s s5 := hs4.gateVerdict
  exact .foldl hs5 (fun _ _ hu => hu.releaseHeld)

theorem Keeps.endThird {s s' : State} {p n h c : Nat} (hs : Keeps s s') : Keeps s (s'.endThird p n h c) := by
  unfold State.endThird
  split
  · exact .ite hs.dropSaved hs
  · exact .ite hs.abortStreams.vacateCtx.modCore hs

theorem Keeps.judge {s s' : State} {p : Nat} {k : MashKey} {clash : Bool} (hs : Keeps s s') :
    Keeps s (s'.judge p k clash) :=
  .ite hs (.ite hs.formVerdict (.ite hs (.ite hs.formVerdict (.ite hs.formVerdict hs.setGate))))

theorem Keeps.mismatchNote {s s' : State} {p n : Nat} {x : Ctx} (hs : Keeps s s') : Keeps s (s'.mismatchNote p n x) :=
  hs.condition

theorem Keeps.reportSecond {s s' : State} {n h : Nat} {x : Ctx} {k : CmdRun} (hs : Keeps s s') :
    Keeps s (s'.reportSecond n h x k) := by
  unfold State.reportSecond
  extract_lets _ _ _ _ delivered _ _ s1 s2
  have hdelivered : ∀ u, Keeps s u → Keeps s (delivered u) := fun _ hu => hu.modCmd
  have hs1 : Keeps s s1 := hdelivered _ hs.setGate
  have hs2 : Keeps s s2 := .ite hs1 hs1.mismatchNote
  split
  · exact .failCommand (hdelivered _ hs)
  · split
    · exact .ite hs.stall hs2.judge
    · extract_lets _ s3 s4
      have hs3 : Keeps s s3 := hdelivered _ hs.setGate
      have hs4 : Keeps s s4 := .ite hs3 hs3.mismatchNote
      exact .ite (.failCommand (hdelivered _ hs)) (.ite hs4.setGate.releaseHeld hs4.judge)

theorem Keeps.reportThird {s s' : State} {n h : Nat} {x : Ctx} {k : CmdRun} (hs : Keeps s s') :
    Keeps s (s'.reportThird n h x k) := by
  unfold State.reportThird
  extract_lets _ _ _ _ s1
  have hs1 : Keeps s s1 := .stir (.endThird (.ite hs hs.mismatchNote))
  split
  · exact hs1
  · split
    · exact hs1
    · exact .ite hs1.setGate.formVerdict hs1.setGate

theorem Keeps.doReport {s s' : State} {n h : Nat} (hs : Keeps s s') : Keeps s (s'.doReport n h) := by
  unfold State.doReport
  extract_lets
  split
  · exact hs
  · exact .ite (.ite hs.stall (.ite hs.reportThird hs.reportSecond)) hs

theorem Keeps.mashRunEnded {s s' : State} {n h : Nat} {x : Ctx} (hs : Keeps s s') : Keeps s (s'.mashRunEnded n h x) := by
  unfold State.mashRunEnded
  extract_lets _ _ s1
  have hs1 : Keeps s s1 := hs.endThird
  split
  · split
    · exact .ite hs1.formVerdict hs1
    · exact hs1
  · split
    · exact hs
    · split
      · exact .ite hs hs.formVerdict
      · exact .ite hs.formVerdict hs
  · exact hs

theorem Keeps.placeRun {s s' : State} {p c t h base prog : Nat} {img : List Nat} {words : List W32} {y : Ctx} (hs : Keeps
    s s') :
    Keeps s (s'.placeRun p c t h base prog img words y) :=
  .ite hs.modCore.setCtx.requestWake hs.upd

theorem Keeps.startThird {s s' : State} {p : Nat} {r : Report} (hs : Keeps s s') : Keeps s (s'.startThird p r) := by
  unfold State.startThird
  extract_lets
  split
  · exact hs
  · exact hs.placeRun

theorem Keeps.restoreBars {s s' : State} {p step mash : Nat} (hs : Keeps s s') :
    Keeps s (s'.restoreBars p step mash) := by
  unfold State.restoreBars
  split
  · exact .foldl hs (fun _ _ hu => hu.setBarrier)
  · exact hs

theorem Keeps.doArbitration {s s' : State} {p step mash : Nat} (hs : Keeps s s') :
    Keeps s (s'.doArbitration p step mash) := by
  unfold State.doArbitration
  extract_lets
  split
  · exact hs
  · extract_lets
    exact .ite hs (.ite hs.formVerdict (.stir (.foldl hs.setGate.restoreBars (fun _ _ hu => hu.startThird))))

theorem Keeps.releaseKey {s s' : State} {p : Nat} {k : MashKey} (hs : Keeps s s') : Keeps s (s'.releaseKey p k) := by
  unfold State.releaseKey
  extract_lets _ s1
  have hs1 : Keeps s s1 := .foldl hs (fun _ _ hu => by
    split
    · exact hu.endThird
    · exact hu)
  exact .ite hs (.foldl hs1 (fun _ _ hu => hu.releaseHeld))

theorem Keeps.advanceGate {s s' : State} {p v : Nat} (hs : Keeps s s') : Keeps s (s'.advanceGate p v) := by
  unfold State.advanceGate
  extract_lets _ _ _ _ _ _ _ _ _ _ s1
  have hs1 : Keeps s s1 := .foldl hs.setReg.setReg.setGState.setReg.setGate (fun _ _ hu => hu.releaseKey)
  exact .ite hs1.gateFail hs1.gateCheck

theorem Keeps.writeGateStep {s s' : State} {p v : Nat} (hs : Keeps s s') : Keeps s (s'.writeGateStep p v).1 :=
  .ite_fst hs hs.advanceGate.fst

end Sys2Proof.Machine
end

section
/-! O54, O55: the operations of Machine/Lauter keep the queue and the canonical form of memory. -/

namespace Sys2Proof.Machine

theorem Keeps.writePlanCommit {s s' : State} {n : Nat} (hs : Keeps s s') : Keeps s (s'.writePlanCommit n).1 := by
  unfold State.writePlanCommit
  extract_lets
  split
  · exact hs.upd.setReg.fst
  · exact hs

theorem Keeps.mxCounts {s s' : State} {m : Nat} (hs : Keeps s s') : Keeps s (s'.mxCounts m) := hs.setReg.setReg

theorem Keeps.modMx {s s' : State} {m : Nat} {f : Mx → Mx} (hs : Keeps s s') : Keeps s (s'.modMx m f) := hs.setMx

theorem Keeps.putBlock {s s' : State} {m b : Nat} {x : Block} (hs : Keeps s s') : Keeps s (s'.putBlock m b x) :=
  hs.modMx.mxCounts

theorem Keeps.dropBlock {s s' : State} {m b : Nat} (hs : Keeps s s') : Keeps s (s'.dropBlock m b) := hs.modMx.mxCounts

theorem Keeps.failBlock {s s' : State} {m b : Nat} {entry : Option Nat} {st : Status} (hs : Keeps s s') :
    Keeps s (s'.failBlock m b entry st) := by
  unfold State.failBlock
  extract_lets _ s1
  have hs1 : Keeps s s1 := hs.dropBlock.modMx.bump
  split
  · exact hs1.condition
  · exact .ite hs1.condition.takeVote hs1.condition

theorem Keeps.endEntry {s s' : State} {i : Nat} (hs : Keeps s s') : Keeps s (s'.endEntry i) :=
  .ite hs (.ite hs.upd.arriveAt hs.upd)

theorem Keeps.endRound {s s' : State} {m b i : Nat} (hs : Keeps s s') : Keeps s (s'.endRound m b i) :=
  hs.dropBlock.bump.modMx.endEntry

theorem Keeps.presentAgain {s s' : State} {m b : Nat} (hs : Keeps s s') : Keeps s (s'.presentAgain m b) := hs.modMx

theorem Keeps.rootWrite {s s' : State} {m b i : Nat} {r : Bool × Bytes} (hs : Keeps s s') :
    Keeps s (s'.rootWrite m b i r) := by
  unfold State.rootWrite
  extract_lets
  split
  · exact hs.presentAgain
  · split
    next e => exact .endRound (.of_fst hs.writeLocal e)
    next e => exact .failBlock (.of_fst hs.writeLocal e)

theorem Keeps.forwardAgain {s s' : State} {m b : Nat} (hs : Keeps s s') : Keeps s (s'.forwardAgain m b) :=
  hs.modMx.presentAgain

theorem Keeps.sendForward {s s' : State} {m b i : Nat} {x : Block} (hs : Keeps s s') :
    Keeps s (s'.sendForward m b i x) := by
  unfold State.sendForward
  extract_lets _ _ _ _ _ s1
  have hs1 : Keeps s s1 := hs.putBlock
  split
  · exact hs1.modMx
  · split
    next e => exact .forwardAgain (.of_fst hs1.issue e)
    next e => exact .of_fst hs1.issue e

theorem Keeps.leaveLocal {s s' : State} {m b i : Nat} (hs : Keeps s s') : Keeps s (s'.leaveLocal m b i) :=
  .ite hs.modMx.setMx hs.modMx

theorem Keeps.advanceBlock {s s' : State} {m b : Nat} (hs : Keeps s s') : Keeps s (s'.advanceBlock m b) := by
  unfold State.advanceBlock
  split
  · exact hs
  · extract_lets _ _ _ _ s1 s2 s3
    have hs1 : Keeps s s1 := hs.putBlock
    have hs2 : Keeps s s2 := .ite hs1.leaveLocal hs1
    have hs3 : Keeps s s3 := hs2.bump
    exact .ite (.ite hs3.sendForward hs3.rootWrite) hs2

theorem Keeps.forwardResult {s s' : State} {m b i : Nat} {st : Status} (hs : Keeps s s') :
    Keeps s (s'.forwardResult m b i st) := by
  unfold State.forwardResult
  split
  · exact hs
  · split
    · exact hs
    · split
      · exact hs.endRound
      · exact hs.forwardAgain
      · exact hs
      · exact hs.dropEpoch.failBlock
      · exact hs.failBlock

theorem Keeps.answerContrib {s s' : State} {m : Nat} {c : Contrib} {st : Status} (hs : Keeps s s') :
    Keeps s (s'.answerContrib m c st) := by
  unfold State.answerContrib
  split
  · exact hs.respond
  · split
    · exact hs.forwardResult
    · exact hs
  · split
    · exact hs
    · split
      · exact hs
      · exact .ite hs.setStream hs.stopStream

theorem Keeps.arrival {s s' : State} {m : Nat} {c : Contrib} (hs : Keeps s s') : Keeps s (s'.arrival m c) := by
  unfold State.arrival
  extract_lets _ _ s1
  have hs1 : Keeps s s1 := hs.bump
  split
  · exact hs.bump.answerContrib
  · split
    · exact hs.failBlock.answerContrib
    · exact hs
    · split
      · split
        · exact hs1.modMx
        · exact hs1.answerContrib
      · exact hs.putBlock.answerContrib.advanceBlock

theorem Keeps.doAccum {s s' : State} {m : Nat} (hs : Keeps s s') : Keeps s (s'.doAccum m) := by
  unfold State.doAccum
  split
  · exact hs
  · exact hs.modMx.arrival

theorem Keeps.streamAgain {s s' : State} {m : Nat} {c : Contrib} {n k va : Nat} (hs : Keeps s s') :
    Keeps s (s'.streamAgain m c n k va) := by
  unfold State.streamAgain
  split
  · exact hs
  · split
    · exact hs
    · exact .ite hs.setStream hs.arrival

theorem Keeps.engineAgain {s s' : State} {m b : Nat} (hs : Keeps s s') : Keeps s (s'.engineAgain m b) := by
  unfold State.engineAgain
  split
  · exact hs
  · exact .ite hs (.ite hs.sendForward hs.rootWrite)

theorem Keeps.doAccumRetry {s s' : State} {m : Nat} (hs : Keeps s s') : Keeps s (s'.doAccumRetry m) := by
  unfold State.doAccumRetry
  split
  · exact hs
  · extract_lets s1
    have hs1 : Keeps s s1 := hs.modMx
    split
    · exact hs1.streamAgain
    · exact hs1.engineAgain

theorem Keeps.doBlockTimeout {s s' : State} {m b : Nat} (hs : Keeps s s') : Keeps s (s'.doBlockTimeout m b) := by
  unfold State.doBlockTimeout
  split
  · exact .ite hs hs.failBlock
  · exact hs

theorem Keeps.writeGeneration {s s' : State} {v : Nat} (hs : Keeps s s') : Keeps s (s'.writeGeneration v).1 :=
  .ite_fst hs (.fst (.foldl hs.setReg.upd (fun _ _ hu => hu.mxCounts)))

theorem Keeps.admitDie {s s' : State} {d : Nat} {ie : Nat × Nat} (hs : Keeps s s') : Keeps s (s'.admitDie d ie) :=
  .foldl hs (fun _ _ hu => .ite hu hu.setMx)

theorem Keeps.doLayerDone {s s' : State} {n h : Nat} (hs : Keeps s s') : Keeps s (s'.doLayerDone n h) :=
  .invoke hs (fun _ _ hu => .endIter (.modCtx (.foldl hu (fun _ _ hv => hv.admitDie))))

theorem Keeps.cacheEpoch {s s' : State} {dev v : Nat} (hs : Keeps s s') : Keeps s (s'.cacheEpoch dev v) := hs.upd

theorem Keeps.touchEpoch {s s' : State} {dev : Nat} (hs : Keeps s s') : Keeps s (s'.touchEpoch dev) := by
  unfold State.touchEpoch
  split
  · exact hs.cacheEpoch
  · exact hs

theorem Keeps.learnEpochs {s s' : State} {n h : Nat} {k : CmdRun} (hs : Keeps s s') :
    Keeps s (s'.learnEpochs n h k).1 := by
  unfold State.learnEpochs
  extract_lets
  split
  · exact hs
  · split
    · exact hs
    · split
      · exact .fst (.foldl hs (fun _ _ hu => hu.touchEpoch))
      · split
        next e => exact .fst (.failCommand (.of_fst hs.issue e))
        next e => exact .of_fst hs.issue e

theorem Keeps.doReducePush {s s' : State} {n h : Nat} (hs : Keeps s s') : Keeps s (s'.doReducePush n h) := by
  unfold State.doReducePush
  extract_lets _ s1 go
  have hs1 : Keeps s s1 := .ite hs.beginCmd hs
  have hgo : ∀ u, Keeps s u → Keeps s (go u) := fun _ hu => hu.vector
  split
  · exact hs1
  · split
    · split
      next u e =>
        have hu : Keeps s u := .of_fst hs1.learnEpochs e
        exact hgo _ hu
      next e => exact .of_fst hs1.learnEpochs e
    · exact hgo _ hs1

theorem Keeps.epochAnswer {s s' : State} {n h dev : Nat} {st : Status} {epoch : Nat} (hs : Keeps s s') :
    Keeps s (s'.epochAnswer n h dev st epoch) := by
  unfold State.epochAnswer
  split
  · exact hs.cacheEpoch
  · split
    · exact .ite hs.failCommand hs
    · exact hs

end Sys2Proof.Machine
end

section
/-! O54, O55: the operations of Machine/Pour keep the queue and the canonical form of memory. -/

namespace Sys2Proof.Machine

theorem Keeps.setPour {s s' : State} {p : Nat} {x : Pour} (hs : Keeps s s') : Keeps s (s'.setPour p x) := hs.upd

theorem Keeps.setDevHalf {s s' : State} {i v : Nat} (hs : Keeps s s') : Keeps s (s'.setDevHalf i v) := by
  unfold State.setDevHalf
  split
  next e => exact .of_fst hs.writeLocal e
  next e => exact .condition (.of_fst hs.writeLocal e)

theorem Keeps.scanTable {s s' : State} (hs : Keeps s s') : Keeps s s'.scanTable := by
  unfold State.scanTable
  refine .foldl hs fun _ _ hu => ?_
  split
  next e => exact .of_fst hu.readWord e
  next e => exact .condition (.of_fst hu.readWord e)

theorem Keeps.takeFrame {s s' : State} {p c t : Nat} (hs : Keeps s s') : Keeps s (s'.takeFrame p c t).1 :=
  .ite_fst hs hs.upd.fst

theorem Keeps.pourNote {s s' : State} {p c i : Nat} {st : Status} (hs : Keeps s s') : Keeps s (s'.pourNote p c i st) :=
  .ite hs.condition hs

theorem Keeps.pourWrite {s s' : State} {p c va : Nat} {bs : Bytes} (hs : Keeps s s') :
    Keeps s (s'.pourWrite p c va bs).1 := by
  unfold State.pourWrite
  extract_lets
  split
  · exact hs.setPour.fst
  · split
    next e => exact .of_fst hs.vaWrite e
    next e => exact .fst (.setPour (.of_fst hs.vaWrite e))
    next e => exact .fst (.setPour (.of_fst hs.vaWrite e))
    next e => exact .of_fst hs.vaWrite e

theorem Keeps.pourFlush {s s' : State} {p : Nat} (hs : Keeps s s') : Keeps s (s'.pourFlush p) := by
  unfold State.pourFlush
  extract_lets
  split
  · exact hs
  · refine .foldl hs.setPour fun _ _ hu => ?_
    split
    next e => exact .setPour (.of_fst hu.pourWrite e)
    next e => exact .of_fst hu.pourWrite e

theorem Keeps.pourGot {s s' : State} {p id : Nat} {st : Status} {data : Bytes} (hs : Keeps s s') :
    Keeps s (s'.pourGot p id st data) := .ite hs.setPour hs

theorem Keeps.putPt {s s' : State} {p i k lg w : Nat} (hs : Keeps s s') : Keeps s (s'.putPt p i k lg w) := by
  unfold State.putPt
  extract_lets
  split
  next e => exact .of_fst hs.pourWrite e
  next e => exact .pourNote (.of_fst hs.pourWrite e)

theorem Keeps.setPage {s s' : State} {p : Nat} {g : Page} (hs : Keeps s s') : Keeps s (s'.setPage p g) := hs.setPour.putPt

theorem Keeps.zeroVa {s s' : State} {p c va : Nat} {a : List (Nat × Nat)} (hs : Keeps s s') :
    Keeps s (s'.zeroVa p c va a).1 := by
  induction a generalizing s' p c va with
  | nil => exact hs
  | cons x a ih =>
    unfold State.zeroVa
    split
    next e => exact .of_fst hs.pourWrite e
    next u e =>
      have hu : Keeps s u := .of_fst hs.pourWrite e
      exact ih hu

theorem Keeps.setCopy {s s' : State} {p : Nat} {x : Copy} (hs : Keeps s s') : Keeps s (s'.setCopy p x) := hs.setPour

theorem Keeps.dropCopy {s s' : State} {p id : Nat} (hs : Keeps s s') : Keeps s (s'.dropCopy p id) := hs.setPour

theorem Keeps.copyReads {s s' : State} {p : Nat} {x : Copy} {a : List (Nat × Nat)} (hs : Keeps s s') :
    Keeps s (s'.copyReads p x a).1 := by
  induction a generalizing s' p x with
  | nil => exact hs
  | cons x a ih =>
    unfold State.copyReads
    split
    next u _ e =>
      have hu : Keeps s u := .of_fst hs.vaRead e
      exact ih hu
    next u e =>
      have hu : Keeps s u := .of_fst hs.vaRead e
      exact ih hu
    next e => exact .of_fst hs.vaRead e
    next e => exact .of_fst hs.vaRead e

theorem Keeps.copyWrites {s s' : State} {p : Nat} {x : Copy} {data : Bytes} {a : List (Nat × Nat)} (hs : Keeps s s') :
    Keeps s (s'.copyWrites p x data a).1 := by
  induction a generalizing s' p x data with
  | nil => exact hs
  | cons x a ih =>
    unfold State.copyWrites
    extract_lets
    split
    next u _ e =>
      have hu : Keeps s u := .of_fst hs.vaWrite e
      exact ih hu
    next u e =>
      have hu : Keeps s u := .of_fst hs.vaWrite e
      exact ih hu
    next e => exact .of_fst hs.vaWrite e
    next e => exact .of_fst hs.vaWrite e

theorem Keeps.copyRun {s s' : State} {p : Nat} {x : Copy} (hs : Keeps s s') : Keeps s (s'.copyRun p x).1 := by
  unfold State.copyRun
  extract_lets _ s1 _ s2 _ s3
  have hs1 : Keeps s s1.1 := .ite_fst hs.copyReads hs
  have hs2 : Keeps s s2 := hs1
  have hs3 : Keeps s s3.1 := hs2.copyWrites
  exact .ite_fst hs2 (.ite_fst hs2 hs3.fst)

theorem Keeps.copyGot {s s' : State} {p id off : Nat} {st : Status} {data : Bytes} (hs : Keeps s s') :
    Keeps s (s'.copyGot p id off st data) := by
  unfold State.copyGot
  split
  · exact hs
  · exact .ite hs.setCopy hs

theorem Keeps.beginCopy {s s' : State} {p : Nat} {x : Copy} {a : List Nat} (hs : Keeps s s') :
    Keeps s (s'.beginCopy p x a).1 := by
  induction a generalizing s' p x with
  | nil => exact hs
  | cons x a ih =>
    unfold State.beginCopy
    split
    next e => exact .fst (.setPour (.of_fst hs.takeFrame e))
    next u e =>
      have hu : Keeps s u := .of_fst hs.takeFrame e
      exact ih hu

theorem Keeps.flushFails {s s' : State} {p : Nat} {e : Nat × Nat × Nat} {st : Status} (hs : Keeps s s') :
    Keeps s (s'.flushFails p e st) := hs.setPour.setDevHalf.bump

theorem Keeps.beginFlush {s s' : State} {p : Nat} {e : Nat × Nat × Nat} (hs : Keeps s s') : Keeps s (s'.beginFlush p e) := by
  unfold State.beginFlush
  extract_lets
  split
  next eu => exact .of_fst hs.beginCopy eu
  next eu => exact .flushFails (.of_fst hs.beginCopy eu)

theorem Keeps.beginMove {s s' : State} {p : Nat} {kind : CopyKind} {g : Page} {tiers : List Nat} (hs : Keeps s s') :
    Keeps s (s'.beginMove p kind g tiers).1 := by
  unfold State.beginMove
  extract_lets
  split
  next e => exact .fst (.setPage (.of_fst hs.beginCopy e))
  next e => exact .of_fst hs.beginCopy e

theorem Keeps.spillTier {s s' : State} {p c t a : Nat} (hs : Keeps s s') : Keeps s (s'.spillTier p c t a) := by
  induction a generalizing s' p c t with
  | zero => exact hs
  | succ a ih =>
    unfold State.spillTier
    split
    · exact hs
    · split
      · exact hs
      · split
        next u e =>
          have hu : Keeps s u := .of_fst hs.beginMove e
          exact ih hu
        next e => exact .of_fst hs.beginMove e

theorem Keeps.spills {s s' : State} {p : Nat} (hs : Keeps s s') : Keeps s (s'.spills p) :=
  .foldl hs (fun _ _ hu => .foldl hu (fun _ _ hv => .ite hv.spillTier hv))

theorem Keeps.prefetch {s s' : State} {p : Nat} {order : List Page} (hs : Keeps s s') : Keeps s (s'.prefetch p order) :=
  .foldl hs (fun _ _ hu => .ite hu.beginMove hu)

theorem Keeps.doFlushComplete {s s' : State} {p : Nat} (hs : Keeps s s') : Keeps s (s'.doFlushComplete p) := by
  unfold State.doFlushComplete
  extract_lets s1
  have hs1 : Keeps s s1 := hs.pourFlush
  split
  · exact hs1
  · split
    next u _ e =>
      have hu : Keeps s u := .of_fst hs1.copyRun e
      extract_lets s2 _ _ s3 _ s4 s5
      have hs2 : Keeps s s2 := hu.setCopy
      have hs3 : Keeps s s3 := hs2.setPour
      have hs4 : Keeps s s4 := hs3.setDevHalf.dropCopy.setPage
      have hs5 : Keeps s s5 := by
        unfold s5
        split
        next ev => exact .pourNote (.of_fst hs4.zeroVa ev)
        next ev => exact .of_fst hs4.zeroVa ev
      split
      · exact hs2.dropCopy.condition.flushFails
      · exact .ite hs2 hs5.bump.spills

theorem Keeps.doMoveComplete {s s' : State} {p : Nat} (hs : Keeps s s') : Keeps s (s'.doMoveComplete p) := by
  unfold State.doMoveComplete
  split
  · exact hs
  · split
    next u _ e =>
      have hu : Keeps s u := .of_fst hs.copyRun e
      split
      · dsimp only
        split
        · exact .ite hu.setCopy.dropCopy.condition.bump.setPage.spills hu.setCopy.dropCopy.condition.bump.setPage
        · exact .ite hu.setCopy.dropCopy.condition.bump.spills hu.setCopy.dropCopy.condition.bump
      · exact .ite (.spills (.ite hu.setCopy hu.setCopy.bump)) (.ite hu.setCopy hu.setCopy.bump)

theorem Keeps.switchMoves {s s' : State} {p : Nat} (hs : Keeps s s') : Keeps s (s'.switchMoves p) :=
  .foldl hs (fun _ _ hu => by
    split
    · exact hu.dropCopy.setPage
    · exact hu.dropCopy)

theorem Keeps.commitEntry {s s' : State} {p i : Nat} (hs : Keeps s s') : Keeps s (s'.commitEntry p i) :=
  .ite hs (.foldl hs.setDevHalf (fun _ _ hu => hu.beginFlush))

theorem Keeps.writePourStep {s s' : State} {p v : Nat} (hs : Keeps s s') : Keeps s (s'.writePourStep p v).1 := by
  unfold State.writePourStep
  extract_lets s1 _ _ _ s2
  have hs1 : Keeps s s1 := hs.setReg.setReg.scanTable.switchMoves
  have hs2 : Keeps s s2 := .foldl hs1.setPour (fun _ _ hu => hu.beginFlush)
  exact .ite_fst hs (.ite_fst hs (.fst (.foldl hs2 (fun _ _ hu => hu.commitEntry))))

theorem Keeps.activate {s s' : State} {p i : Nat} (hs : Keeps s s') : Keeps s (s'.activate p i).1 := by
  unfold State.activate
  extract_lets
  split
  · split
    next e => exact .of_fst hs.zeroVa e
    next e => exact .fst (.setDevHalf (.upd (.of_fst hs.zeroVa e)))
  · exact hs.beside.fst

theorem Keeps.freeEntry {s s' : State} {p i : Nat} {clearPt : Bool} (hs : Keeps s s') :
    Keeps s (s'.freeEntry p i clearPt) := .upd (.setDevHalf (.setPour (.ite (.foldl hs (fun _ _ hu => hu.putPt)) hs)))

theorem Keeps.pourCommand {s s' : State} {p i : Nat} (hs : Keeps s s') : Keeps s (s'.pourCommand p i) := by
  unfold State.pourCommand
  extract_lets _ _ _ go s1
  have hgo : ∀ u x1, Keeps s u → Keeps s (go u x1).1 := fun _ _ hu => hu.setDevHalf.fst
  have hs1 : Keeps s s1.1 := by
    unfold s1
    split
    · exact hs
    · exact .ite_fst hs.activate hs
    · exact .ite_fst (hgo _ _ hs) hs
    · exact .ite_fst (hgo _ _ hs) hs
    · exact .ite_fst hs.freeEntry.fst hs
    · exact hs
  exact .ite hs hs1.pourNote.setDevHalf

theorem Keeps.grants {s s' : State} {p : Nat} {a : List Nat} {b c : Nat} (hs : Keeps s s') :
    Keeps s (s'.grants p a b c).1 := by
  induction a generalizing s' p b c with
  | nil => exact hs
  | cons x a ih =>
    unfold State.grants
    exact .ite_fst (ih hs.setDevHalf.bump) (.fst (ih hs.setDevHalf))

theorem Keeps.blockAddr {s s' : State} {p i lg j : Nat} (hs : Keeps s s') : Keeps s (s'.blockAddr p i lg j).1 := by
  unfold State.blockAddr
  extract_lets
  split
  · exact hs
  · split
    · exact hs.setPour.fst
    · exact hs
    · split
      next e => exact .of_fst hs.vaRead e
      next e => exact .fst (.setPour (.of_fst hs.vaRead e))
      next e => exact .of_fst hs.vaRead e
      next e => exact .of_fst hs.vaRead e

theorem Keeps.walkSettled {s s' : State} {p : Nat} (hs : Keeps s s') : Keeps s (s'.walkSettled p).1 := by
  unfold State.walkSettled
  extract_lets
  split
  · exact hs
  · split
    · exact hs
    · exact hs.setPour.fst

theorem Keeps.walkFails {s s' : State} {p : Nat} {st : Status} (hs : Keeps s s') : Keeps s (s'.walkFails p st).1 :=
  hs.setPour.walkSettled

theorem Keeps.walkBlocks {s s' : State} {p i nb : Nat} {a : List (Nat × Nat)} (hs : Keeps s s') :
    Keeps s (s'.walkBlocks p i nb a).1 := by
  induction a generalizing s' with
  | nil => exact hs.walkSettled
  | cons x a ih =>
    unfold State.walkBlocks
    split
    · exact hs.walkSettled
    · split
      · exact hs
      · split
        next e => exact .walkFails (.of_fst hs.blockAddr e)
        next u _ e =>
          have hu : Keeps s u := .of_fst hs.blockAddr e
          extract_lets
          split
          next ev => exact .walkFails (.of_fst hu.pourWrite ev)
          next ev => exact ih (.of_fst hu.pourWrite ev)
        next e => exact .of_fst hs.blockAddr e

theorem Keeps.walkEntry {s s' : State} {p i : Nat} {a : WalkEnd} (hs : Keeps s s') : Keeps s (s'.walkEntry p i a).1 := by
  unfold State.walkEntry
  extract_lets
  split
  · exact hs.setDevHalf.condition.fst
  · exact hs.setDevHalf.fst

theorem Keeps.walkAll {s s' : State} {p : Nat} {x : Option (List (Nat × Nat))} {l : List Nat} (hs : Keeps s s') :
    Keeps s (s'.walkAll p x l).1 := by
  induction l generalizing s' x with
  | nil => exact hs
  | cons i l ih =>
    unfold State.walkAll
    split
    next e0 => exact .of_fst hs.walkBlocks e0
    next u _ _ _ e0 =>
      have hu : Keeps s u := .of_fst hs.walkBlocks e0
      exact ih hu.walkEntry

theorem Keeps.beginWalk {s s' : State} {p : Nat} (hs : Keeps s s') : Keeps s (s'.beginWalk p) := by
  unfold State.beginWalk
  extract_lets s1 s2
  have hs2 : Keeps s s2 := .foldl hs.scanTable fun _ _ hu => hu.pourCommand
  split
  next e => exact .setPour (.of_fst hs2.grants e)

theorem Keeps.releaseStep {s s' : State} {p : Nat} {recs : List (Nat × Nat)} (hs : Keeps s s') :
    Keeps s (s'.releaseStep p recs) := by
  unfold State.releaseStep
  extract_lets _ s1 _ _ s2 s3 _ s4 _ s5
  have hs1 : Keeps s s1 := hs.setPour
  have hs2 : Keeps s s2 := by
    unfold s2
    split
    next e => exact .of_fst hs1.writeLocal e
    next e => exact .condition (.of_fst hs1.writeLocal e)
  have hs3 : Keeps s s3 := hs2.spills
  have hs4 : Keeps s s4 := hs3.prefetch
  have hs5 : Keeps s s5 := hs4.arriveAt
  exact hs5.setReg.complete

theorem Keeps.settlePour {s s' : State} {p : Nat} (hs : Keeps s s') : Keeps s (s'.settlePour p) := by
  unfold State.settlePour
  extract_lets
  split
  · exact hs.setPour.pourNote
  · exact hs

theorem Keeps.goOnWalk {s s' : State} {p : Nat} {w : Walk} (hs : Keeps s s') : Keeps s (s'.goOnWalk p w) :=
  .ite hs.walkAll.releaseStep hs.walkAll.setPour

theorem Keeps.doPourRelease {s s' : State} {p : Nat} (hs : Keeps s s') : Keeps s (s'.doPourRelease p) := by
  unfold State.doPourRelease
  extract_lets s1 s2
  have hs1 : Keeps s s1 := hs.pourFlush
  have hs2 : Keeps s s2 := .ite hs1 hs1.beginWalk
  split
  · exact hs
  · split
    · exact hs2
    · exact .ite hs2 (.goOnWalk (.ite hs2.settlePour hs2))

theorem Keeps.zeroTable {s s' : State} {base : Nat} (hs : Keeps s s') : Keeps s (s'.zeroTable base) := by
  unfold State.zeroTable
  split
  · exact hs
  · extract_lets s1
    have hs1 : Keeps s s1 := by
      refine .foldl hs fun u i hu => ?_
      extract_lets
      split
      · exact hu.condition
      · exact .updMem hu wf_delIf
    exact hs1.upd

theorem Keeps.dropPour {s s' : State} {p : Nat} (hs : Keeps s s') : Keeps s (s'.dropPour p) :=
  .setPour (.ite (.foldl hs (fun _ _ hu => hu.freeEntry)) hs)

theorem Keeps.doKvAppend {s s' : State} {n h : Nat} (hs : Keeps s s') : Keeps s (s'.doKvAppend n h) := hs.vector

end Sys2Proof.Machine
end

section
/-! O54, O55: the operations of Machine/Lpddr keep the queue and the canonical form of memory. -/

namespace Sys2Proof.Machine

theorem Keeps.setPhase {s s' : State} {k : Nat} (hs : Keeps s s') : Keeps s (s'.setPhase k) := hs.setReg.setReg.upd

theorem Keeps.haltBoot {s s' : State} {st : Status} {subject : Nat} (hs : Keeps s s') :
    Keeps s (s'.haltBoot st subject) := hs.setReg.condition

theorem Keeps.scrubWord {s s' : State} {u detail w : Nat} (hs : Keeps s s') : Keeps s (s'.scrubWord u detail w) := by
  unfold State.scrubWord
  split
  · exact hs
  · split
    · exact hs
    · exact hs.readWord
    · exact hs.foundBad.condition

theorem Keeps.doSpScrub {s s' : State} {n : Nat} (hs : Keeps s s') : Keeps s (s'.doSpScrub n) :=
  .ite hs (.modCore (.foldl hs (fun _ _ hu => hu.scrubWord)))

theorem Keeps.doTunScrub {s s' : State} {d t : Nat} (hs : Keeps s s') : Keeps s (s'.doTunScrub d t) :=
  .ite hs (.upd (.foldl hs (fun _ _ hu => hu.scrubWord)))

theorem Keeps.doLpScrub {s s' : State} {p c : Nat} (hs : Keeps s s') : Keeps s (s'.doLpScrub p c) := by
  unfold State.doLpScrub
  extract_lets
  split
  · exact hs
  · exact hs.scrubWord.upd

theorem Keeps.maintElems {s s' : State} {n len : Nat} {a : List Nat} (hs : Keeps s s') :
    Keeps s (s'.maintElems n len a).1 := by
  induction a generalizing s' n len with
  | nil => exact hs
  | cons x a ih =>
    unfold State.maintElems
    split
    · exact hs
    · split
      next u _ e =>
        have hu : Keeps s u := .of_fst hs.readLocal e
        split
        next ev => exact .of_fst (ih hu) ev
        · exact ih hu
      next e => exact .of_fst hs.readLocal e

theorem Keeps.doMaintRead {s s' : State} {n : Nat} {r : MaintRead} (hs : Keeps s s') : Keeps s (s'.doMaintRead n r) := by
  unfold State.doMaintRead
  extract_lets refuse
  have hrefuse : ∀ u x1, Keeps s u → Keeps s (refuse u x1) := fun _ _ hu => hu.condition.upd
  split
  · exact hrefuse _ _ hs
  · split
    · exact hs.upd
    · split
      · exact hrefuse _ _ hs
      · split
        next e => exact .upd (.of_fst hs.maintElems e)
        next u _ _ _ e =>
          have hu : Keeps s u := .of_fst hs.maintElems e
          exact hrefuse _ _ hu

theorem Keeps.doRefreshPoll {s s' : State} {m readout : Nat} {errs : List Nat} (hs : Keeps s s') :
    Keeps s (s'.doRefreshPoll m readout errs) := .foldl (.ite hs.setReg.condition hs.setReg) (fun _ _ hu => hu.bump)

theorem Keeps.doTraining {s s' : State} {failed : List (Nat × Nat)} {ids : List Nat} (hs : Keeps s s') :
    Keeps s (s'.doTraining failed ids) := by
  unfold State.doTraining
  extract_lets _ _ s1 s2 s3
  have hs1 : Keeps s s1 := .foldl hs fun _ _ hu => .ite hu hu.retireChannel
  have hs2 : Keeps s s2 := .foldl hs1 fun _ _ hu => hu.setReg
  have hs3 : Keeps s s3 := hs2.setReg
  exact .ite hs3.upd hs

theorem Keeps.misplaced {s s' : State} {k : Nat} {st : Status} (hs : Keeps s s') : Keeps s (s'.misplaced k st) :=
  hs.condition

theorem Keeps.checkCask {s s' : State} (hs : Keeps s s') : Keeps s s'.checkCask := by
  unfold State.checkCask
  split
  · exact hs.setReg
  · split
    · exact hs.setReg
    · exact hs.setReg.misplaced

theorem Keeps.checkPour {s s' : State} (hs : Keeps s s') : Keeps s s'.checkPour := by
  unfold State.checkPour
  split
  · exact hs.upd
  · split
    · exact hs.upd
    · exact hs.upd.misplaced

theorem Keeps.checkMirror {s s' : State} (hs : Keeps s s') : Keeps s s'.checkMirror := by
  unfold State.checkMirror
  extract_lets
  split
  · exact hs.setReg
  · split
    · exact hs.setReg.misplaced
    · exact .setReg (.foldl hs (fun _ _ hu => hu.writeMem))

theorem Keeps.doZeroFill {s s' : State} (hs : Keeps s s') : Keeps s s'.doZeroFill := by
  unfold State.doZeroFill
  exact .ite (.setPhase (.checkMirror (.checkPour (.checkCask (.updMem hs (wf_filter _)))))) hs

end Sys2Proof.Machine
end

section
/-! O54, O55: the operations of Machine/Windows keep the queue and the canonical form of memory. -/

namespace Sys2Proof.Machine

theorem Keeps.writeRoot {s s' : State} {p c v : Nat} (hs : Keeps s s') : Keeps s (s'.writeRoot p c v).1 :=
  .ite_fst hs (.ite_fst hs hs.setReg.fst)

theorem Keeps.writeInvalidate {s s' : State} {p c v : Nat} (hs : Keeps s s') : Keeps s (s'.writeInvalidate p c v).1 :=
  hs.upd.fst

theorem Keeps.unhold {s s' : State} {n h : Nat} (hs : Keeps s s') : Keeps s (s'.unhold n h) := hs.modCtx

theorem Keeps.retryStream {s s' : State} {n k va : Nat} {y : Stream} (hs : Keeps s s') :
    Keeps s (s'.retryStream n k va y) := by
  unfold State.retryStream
  extract_lets
  split
  next e => exact .of_fst hs.modCore.setStream.unhold.readResident e
  next e => exact .stopStream (.of_fst hs.modCore.setStream.unhold.readResident e)

theorem Keeps.writeResume {s s' : State} {p c v : Nat} (hs : Keeps s s') : Keeps s (s'.writeResume p c v).1 := by
  unfold State.writeResume
  extract_lets
  split
  · exact hs
  · split
    · split
      · exact hs
      · exact hs.upd.fst
    · split
      · exact hs
      · split
        · exact hs
        · exact .ite_fst hs.retryStream.fst hs.unhold.stopStream.fst

theorem Keeps.setWin {s s' : State} {w v : Nat} (hs : Keeps s s') : Keeps s (s'.setWin w v) := hs.setReg

theorem Keeps.writeWin {s s' : State} {w v : Nat} (hs : Keeps s s') : Keeps s (s'.writeWin w v).1 :=
  .ite_fst hs hs.setWin.fst

theorem Keeps.openWindow {s s' : State} {w : Nat} (hs : Keeps s s') : Keeps s (s'.openWindow w).1 :=
  .ite_fst hs (.ite_fst hs (.ite_fst hs hs.setWin.fst))

theorem Keeps.closeWindow {s s' : State} {w : Nat} (hs : Keeps s s') : Keeps s (s'.closeWindow w).1 := by
  unfold State.closeWindow
  extract_lets _ s1
  have hs1 : Keeps s s1 := hs.setWin
  split
  · exact hs
  · exact hs1.upd
  · exact hs

theorem Keeps.writeWinCtl {s s' : State} {v : Nat} (hs : Keeps s s') : Keeps s (s'.writeWinCtl v).1 := by
  unfold State.writeWinCtl
  split
  · exact hs.openWindow.fst
  · exact hs.closeWindow
  · exact hs

theorem Keeps.shutWindow {s s' : State} {w : Nat} (hs : Keeps s s') : Keeps s (s'.shutWindow w) :=
  .ite hs hs.setWin.condition.upd

theorem Keeps.admitRemote {s s' : State} {src : WinSrc} {x : Option Nat} {at_ a len : Nat} {r : WinRight} (hs : Keeps s
    s') :
    Keeps s (s'.admitRemote src x at_ a len r).1 := by
  unfold State.admitRemote
  split
  · exact hs
  · exact hs.bump.fst
  · exact hs.bump.fst

end Sys2Proof.Machine
end

section
/-! O54, O55: the operations of Machine/Links keep the queue and the canonical form of memory. -/

namespace Sys2Proof.Machine

theorem Keeps.outcome {s s' : State} {x txn : Nat} {o : Outst} {st : Status} {epoch : Nat} {data : Bytes} (hs : Keeps s
    s') :
    Keeps s (s'.outcome x txn o st epoch data) := by
  unfold State.outcome
  split
  · split
    · exact hs
    · split
      · exact hs.setStream
      · exact hs
  · exact hs.forwardResult
  · exact .ite hs hs.voteLost
  · exact hs.dmaGot
  · exact hs.copyGot
  · exact hs.pourGot
  · exact hs.epochAnswer
  · exact hs

theorem Keeps.settleTxn {s s' : State} {x txn : Nat} {st : Status} {epoch : Nat} {data : Bytes} (hs : Keeps s s') :
    Keeps s (s'.settleTxn x txn st epoch data) := by
  unfold State.settleTxn
  extract_lets _ s1
  have hs1 : Keeps s s1 := hs.setLx
  split
  · exact hs
  · exact .flushVotes (.outcome (.ite hs1.dropEpoch hs1))

theorem Keeps.doAbandon {s s' : State} {x txn : Nat} (hs : Keeps s s') : Keeps s (s'.doAbandon x txn) := by
  unfold State.doAbandon
  split
  · exact hs
  · exact hs.setPort.bump.settleTxn

theorem Keeps.abandonFor {s s' : State} {dev : Nat} (hs : Keeps s s') : Keeps s (s'.abandonFor dev) :=
  .foldl hs (fun _ _ hu => hu.doAbandon)

theorem Keeps.refuseTxn {s s' : State} {t : Txn} (hs : Keeps s s') : Keeps s (s'.refuseTxn t) :=
  .ite hs (.ite hs.settleTxn hs.respond)

theorem Keeps.requeue {s s' : State} {e : Nat × Txn} (hs : Keeps s s') : Keeps s (s'.requeue e) := by
  unfold State.requeue
  extract_lets
  split
  · exact hs.refuseTxn.freeBufs
  · split
    · exact hs.enqueue
    · exact hs.refuseTxn.freeBufs

theorem Keeps.takeQueued {s s' : State} {dev : Nat} (hs : Keeps s s') : Keeps s (s'.takeQueued dev).1 := hs.upd.fst

theorem Keeps.rerouted {s s' : State} {dev : Nat} (hs : Keeps s s') : Keeps s (s'.rerouted dev) :=
  .foldl hs.upd.abandonFor.takeQueued (fun _ _ hu => hu.requeue)

theorem Keeps.failover {s s' : State} (hs : Keeps s s') : Keeps s s'.failover :=
  .foldl hs (fun _ _ hu => .ite hu.setReg.rerouted hu)

theorem Keeps.freeSpare {s s' : State} {g : Nat} (hs : Keeps s s') : Keeps s (s'.freeSpare g) := .ite hs.setPort.setReg hs

theorem Keeps.sendTraining {s s' : State} {g ty : Nat} {lanes : List Nat} (hs : Keeps s s') :
    Keeps s (s'.sendTraining g ty lanes) := hs.upd

theorem Keeps.sendMap {s s' : State} {g : Nat} (hs : Keeps s s') : Keeps s (s'.sendMap g) := hs.sendTraining

theorem Keeps.loseBufs {s s' : State} {g : Nat} (hs : Keeps s s') : Keeps s (s'.loseBufs g) := hs.upd

theorem Keeps.portDown {s s' : State} {g st : Nat} (hs : Keeps s s') : Keeps s (s'.portDown g st) := by
  unfold State.portDown
  extract_lets _ _ _ _ s1 s2 s3 s4
  have hs1 : Keeps s s1 := hs.freeSpare.setReg.setReg.setReg.setReg.setReg.setPort.loseBufs
  have hs2 : Keeps s s2 := .ite hs1.upd hs1
  have hs3 : Keeps s s3 := .ite hs2.failover hs2
  have hs4 : Keeps s s4 := .foldl hs3 (fun _ _ hu => hu.requeue)
  exact .ite hs4.sendMap hs4

theorem Keeps.enterRepair {s s' : State} {g lost : Nat} (hs : Keeps s s') : Keeps s (s'.enterRepair g lost) :=
  hs.setPort.setReg.upd.sendMap

theorem Keeps.doLight {s s' : State} {g lane : Nat} (hs : Keeps s s') : Keeps s (s'.doLight g lane) :=
  .ite hs.setPort.setReg hs

theorem Keeps.reserveSpares {s s' : State} {x : Nat} (hs : Keeps s s') : Keeps s (s'.reserveSpares x) :=
  .foldl hs (fun _ _ hu => .ite hu.setPort.setReg.sendMap hu)

theorem Keeps.fixLanes {s s' : State} {g : Nat} {peer : Nat × Bool} (hs : Keeps s s') : Keeps s (s'.fixLanes g peer) := by
  unfold State.fixLanes
  extract_lets _ _ _ _ _ _ s1 s2 _ _ s3 s4
  have hs1 : Keeps s s1 := hs.setReg.setReg
  have hs2 : Keeps s s2 := .ite hs1.freeSpare hs1
  have hs3 : Keeps s s3 := hs2.setPort
  have hs4 : Keeps s s4 := .ite hs3.setReg hs3
  exact .ite hs2.setPort hs4.sendTraining

theorem Keeps.doLock {s s' : State} {g locked : Nat} (hs : Keeps s s') : Keeps s (s'.doLock g locked) :=
  .ite hs.setPort.setReg.sendMap.reserveSpares (.ite hs.setPort.sendMap.reserveSpares hs)

theorem Keeps.doMapFrame {s s' : State} {g f : Nat} (hs : Keeps s s') : Keeps s (s'.doMapFrame g f) := by
  unfold State.doMapFrame
  extract_lets _ _ s1
  have hs1 : Keeps s s1 := hs.setPort.reserveSpares
  exact .ite hs (.ite hs.enterRepair (.ite hs (.ite hs1.fixLanes hs1)))

theorem Keeps.resend {s s' : State} {g : Nat} {fl : List Sent} (hs : Keeps s s') : Keeps s (s'.resend g fl) :=
  .foldl hs.bump (fun _ _ hu => hu.sendFlit)

theorem Keeps.goActive {s s' : State} {g : Nat} (hs : Keeps s s') : Keeps s (s'.goActive g) := by
  unfold State.goActive
  extract_lets
  split
  · exact hs
  · split
    · exact hs
    · exact .pumpPort (.failover (.ite hs.setPort.setReg.resend hs.setPort.setReg))

theorem Keeps.doConfigFrame {s s' : State} {g f : Nat} (hs : Keeps s s') : Keeps s (s'.doConfigFrame g f) := by
  unfold State.doConfigFrame
  extract_lets _ _ refuse _ _ s1
  have hrefuse : ∀ u, Keeps s u → Keeps s (refuse u) := fun _ hu => hu.portDown.condition
  have hs1 : Keeps s s1 := hs.setReg.setReg.setPort.cacheEpoch
  exact .ite hs (.ite hs.enterRepair (.ite hs (.ite (hrefuse _ hs) (.ite hs.portDown hs1.sendTraining.goActive))))

theorem Keeps.doDoneFrame {s s' : State} {g f rt : Nat} (hs : Keeps s s') : Keeps s (s'.doDoneFrame g f rt) :=
  .ite hs (.ite hs.enterRepair (.ite hs hs.setReg.setPort.goActive))

theorem Keeps.doLaneFail {s s' : State} {g lane : Nat} {lost : Bool} {marked corrected symbols : Nat} (hs : Keeps s s') :
    Keeps s (s'.doLaneFail g lane lost marked corrected symbols) := .ite hs.bump.bump.enterRepair hs.bump.bump

theorem Keeps.doDark {s s' : State} {g : Nat} (hs : Keeps s s') : Keeps s (s'.doDark g) := .ite hs.portDown hs

theorem Keeps.doPauseExpiry {s s' : State} {g : Nat} (hs : Keeps s s') : Keeps s (s'.doPauseExpiry g) :=
  .ite hs.portDown hs

theorem Keeps.doPortTimeout {s s' : State} {g : Nat} (hs : Keeps s s') : Keeps s (s'.doPortTimeout g) := by
  unfold State.doPortTimeout
  split
  · exact .ite hs hs.fixLanes
  · exact hs.portDown
  · exact hs.portDown
  · exact hs

theorem Keeps.portUp {s s' : State} {g : Nat} (hs : Keeps s s') : Keeps s (s'.portUp g) := .ite hs.setReg.sendMap hs

theorem Keeps.writePortEnable {s s' : State} {g v : Nat} (hs : Keeps s s') : Keeps s (s'.writePortEnable g v).1 := by
  unfold State.writePortEnable
  extract_lets s1
  have hs1 : Keeps s s1 := hs.setReg.portUp
  split
  · exact hs.setReg.portDown.fst
  · exact hs.setReg.portUp.fst
  · exact .fst (.ite hs1.enterRepair hs1)

theorem Keeps.goBack {s s' : State} {g : Nat} (hs : Keeps s s') : Keeps s (s'.goBack g) :=
  .ite hs (.ite hs.portDown hs.setPort.resend)

theorem Keeps.doRetryTimer {s s' : State} {g : Nat} (hs : Keeps s s') : Keeps s (s'.doRetryTimer g) := .ite hs.goBack hs

theorem Keeps.takeAck {s s' : State} {g f : Nat} (hs : Keeps s s') : Keeps s (s'.takeAck g f) :=
  .ite hs.setPort.goBack hs.setPort

theorem Keeps.noteGap {s s' : State} {g : Nat} (hs : Keeps s s') : Keeps s (s'.noteGap g) := .ite hs hs.setPort

theorem Keeps.deliver {s s' : State} {x : Nat} {t : Txn} (hs : Keeps s s') : Keeps s (s'.deliver x t) := by
  unfold State.deliver
  extract_lets
  split
  · exact .ite hs.setLx hs.bump.freeBufs
  · split
    · exact hs.respond.freeBufs
    · split
      · split
        · exact hs.modMx
        · exact hs.respond.freeBufs
      · exact hs.setLx

theorem Keeps.transit {s s' : State} {g : Nat} {t : Txn} (hs : Keeps s s') : Keeps s (s'.transit g t) := by
  unfold State.transit
  extract_lets drop
  have hdrop : ∀ u, Keeps s u → Keeps s (drop u) := fun _ hu => .freeBufs (.ite hu hu.respond)
  split
  · exact hdrop _ hs.bump
  · split
    · exact hdrop _ hs
    · split
      · exact hs.enqueue
      · exact hdrop _ hs

theorem Keeps.gotTxn {s s' : State} {g vc bufs : Nat} {bs : Bytes} (hs : Keeps s s') :
    Keeps s (s'.gotTxn g vc bufs bs) := by
  unfold State.gotTxn
  extract_lets _ _ s1
  have hs1 : Keeps s s1 := hs.bump.freeBufs
  exact .ite hs.bump.freeBufs (.ite (.ite hs1 hs1.respond) (.ite hs.deliver hs.transit))

theorem Keeps.takePayload {s s' : State} {g f : Nat} (hs : Keeps s s') : Keeps s (s'.takePayload g f) :=
  .ite hs.setPort.gotTxn hs.setPort

theorem Keeps.doFlit {s s' : State} {g f : Nat} {marked : Bool} (hs : Keeps s s') : Keeps s (s'.doFlit g f marked) := by
  unfold State.doFlit
  extract_lets _ s1 s2 s3 _ s4
  have hs1 : Keeps s s1 := hs.bump
  have hs2 : Keeps s s2 := hs.takeAck
  have hs3 : Keeps s s3 := .ite (.ite hs1.noteGap hs1) (.ite hs.enterRepair (.ite (.ite hs2.takePayload hs2.noteGap)
      hs2))
  have hs4 : Keeps s s4 := hs3.pumpPort
  exact .ite hs (.ite (.ite hs4.sendFlit hs4) hs3)

theorem Keeps.onTxn {s s' : State} {x op : Nat} {f : State → Txn → State} (hs : Keeps s s') (hf : ∀ u x1, Keeps s u →
    Keeps s (f u x1)) :
    Keeps s (s'.onTxn x op f) := by
  unfold State.onTxn
  extract_lets
  split
  · exact hs
  · exact .ite (hf _ _ hs.setLx.freeBufs) hs

theorem Keeps.answerTxn {s s' : State} {x : Nat} {t : Txn} {st : Status} {data : Bytes} (hs : Keeps s s') :
    Keeps s (s'.answerTxn x t st data) := .respond (.ite hs.condition hs)

theorem Keeps.admitTxn {s s' : State} {x : Nat} {t : Txn} {len : Nat} {r : WinRight} (hs : Keeps s s') :
    Keeps s (s'.admitTxn x t len r).1 := hs.admitRemote

theorem Keeps.doTxnWrite {s s' : State} {x : Nat} (hs : Keeps s s') : Keeps s (s'.doTxnWrite x) := by
  unfold State.doTxnWrite
  split
  · exact hs
  · refine .onTxn hs fun _ _ hu => ?_
    split
    next v e =>
      have hv : Keeps s v := .of_fst hu.admitTxn e
      exact .ite hv.respond hv.writeLocal.answerTxn
    next e => exact .respond (.of_fst hu.admitTxn e)

theorem Keeps.doTxnRead {s s' : State} {x : Nat} (hs : Keeps s s') : Keeps s (s'.doTxnRead x) := by
  unfold State.doTxnRead
  split
  · exact hs
  · refine .onTxn hs fun _ _ hu => ?_
    split
    next v e =>
      have hv : Keeps s v := .of_fst hu.admitTxn e
      exact .ite hv.respond hv.readLocal.answerTxn
    next e => exact .respond (.of_fst hu.admitTxn e)

theorem Keeps.doTxnArrive {s s' : State} {x : Nat} (hs : Keeps s s') : Keeps s (s'.doTxnArrive x) := by
  unfold State.doTxnArrive
  refine .onTxn hs fun _ _ hu => ?_
  split
  next v e =>
    have hv : Keeps s v := .of_fst hu.admitTxn e
    split
    · exact .ite hv.answerTxn hv.arriveAt.respond
    · exact hv.respond
  next e => exact .respond (.of_fst hu.admitTxn e)

theorem Keeps.doTxnVote {s s' : State} {x : Nat} (hs : Keeps s s') : Keeps s (s'.doTxnVote x) :=
  .onTxn hs (fun _ _ hu => hu.deliverVote.respond)

theorem Keeps.doTxnOpen {s s' : State} {x : Nat} (hs : Keeps s s') : Keeps s (s'.doTxnOpen x) :=
  .onTxn hs (fun _ _ hu => .ite hu.respond hu.openWindow.respond)

theorem Keeps.doTxnClose {s s' : State} {x : Nat} (hs : Keeps s s') : Keeps s (s'.doTxnClose x) := by
  unfold State.doTxnClose
  refine .onTxn hs fun _ _ hu => ?_
  extract_lets
  split
  · exact hu.respond
  · split
    next e => exact .respond (.of_fst hu.closeWindow e)
    next e => exact .upd (.of_fst hu.closeWindow e)

theorem Keeps.doTxnEpoch {s s' : State} {x : Nat} (hs : Keeps s s') : Keeps s (s'.doTxnEpoch x) :=
  .onTxn hs (fun _ _ hu => hu.respond)

theorem Keeps.doTxnResp {s s' : State} {x op : Nat} (hs : Keeps s s') : Keeps s (s'.doTxnResp x op) :=
  .onTxn hs (fun _ _ hu => by
    split
    · exact hu
    · exact .ite hu.settleTxn hu.bump)

theorem Keeps.writeRoute {s s' : State} {dev v : Nat} (hs : Keeps s s') : Keeps s (s'.writeRoute dev v).1 :=
  .fst (.failover (.ite hs.setReg.rerouted hs.setReg))

theorem Keeps.doHoldExpiry {s s' : State} {dev : Nat} (hs : Keeps s s') : Keeps s (s'.doHoldExpiry dev) := hs.upd

theorem Keeps.doEpochExpiry {s s' : State} {dev : Nat} (hs : Keeps s s') : Keeps s (s'.doEpochExpiry dev) := hs.upd

end Sys2Proof.Machine
end

section
/-! O54, O55: the operations of Machine/HostPorts keep the queue and the canonical form of memory. -/

namespace Sys2Proof.Machine

theorem Keeps.streamAnswer {s s' : State} {n k va : Nat} {write : Bool} {st : Status} {data : Bytes} (hs : Keeps s s') :
    Keeps s (s'.streamAnswer n k va write st data) := by
  unfold State.streamAnswer
  split
  · exact hs
  · split
    · exact hs.setStream
    · exact hs

theorem Keeps.acked {s s' : State} {w : Wqe} {data : Bytes} (hs : Keeps s s') : Keeps s (s'.acked w data) := by
  unfold State.acked
  split
  · exact hs.setPost
  · exact hs
  · exact hs.streamAnswer
  · exact hs.streamAnswer
  · exact hs.dmaGot
  · exact hs.copyGot
  · exact hs.pourGot
  · exact hs.dbgHost
  · exact hs

theorem Keeps.faultLost {s s' : State} {p c n : Nat} (hs : Keeps s s') : Keeps s (s'.faultLost p c n) :=
  .ite hs hs.bump.setPost

theorem Keeps.lostMsg {s s' : State} {w : Wqe} (hs : Keeps s s') : Keeps s (s'.lostMsg w) := by
  unfold State.lostMsg
  split
  · exact hs.setPost
  · exact hs.faultLost
  · exact hs.setPost
  · exact hs.streamAnswer
  · exact hs.streamAnswer
  · exact hs.dmaGot
  · exact hs.copyGot
  · exact hs.pourGot
  · exact hs.dbgHost
  · exact hs

theorem Keeps.qpEnd {s s' : State} {p q st : Nat} (hs : Keeps s s') : Keeps s (s'.qpEnd p q st) :=
  .foldl hs.setQp.setQpState.setHport (fun _ _ hu => hu.lostMsg)

theorem Keeps.qpError {s s' : State} {p q : Nat} (hs : Keeps s s') : Keeps s (s'.qpError p q) := hs.qpEnd

theorem Keeps.qpResend {s s' : State} {p q : Nat} (hs : Keeps s s') : Keeps s (s'.qpResend p q) :=
  .foldl hs (fun _ _ hu => hu.sendRoce)

theorem Keeps.pumpAll {s s' : State} (hs : Keeps s s') : Keeps s s'.pumpAll := .foldl hs (fun _ _ hu => hu.pumpClient)

theorem Keeps.rxFrames {s s' : State} {p k : Nat} (hs : Keeps s s') : Keeps s (s'.rxFrames p k) := hs.bump

theorem Keeps.flowControl {s s' : State} {p : Nat} (hs : Keeps s s') : Keeps s (s'.flowControl p) :=
  .ite hs (.ite hs.setHport.bump.emit (.ite hs.setHport.emit hs))

theorem Keeps.markCe {s s' : State} {p q : Nat} {ce : Bool} (hs : Keeps s s') : Keeps s (s'.markCe p q ce) :=
  .ite hs.setHport.bump.sendRoce hs

theorem Keeps.roceIn {s s' : State} {p q k : Nat} {ce : Bool} {f : State → State} (hs : Keeps s s') (hf : ∀ u, Keeps s
    u → Keeps s (f u)) :
    Keeps s (s'.roceIn p q k ce f) :=
  .ite hs (.ite (hf _ hs.rxFrames.markCe) hs.rxFrames)

theorem Keeps.doAck {s s' : State} {p q : Nat} {ce : Bool} (hs : Keeps s s') : Keeps s (s'.doAck p q ce) := by
  unfold State.doAck
  refine .roceIn hs fun _ hu => ?_
  extract_lets
  split
  · exact .ite hu hu.setQp.acked.qpPump
  · exact hu

theorem Keeps.doReadResponse {s s' : State} {p q : Nat} {ce : Bool} {data : Bytes} (hs : Keeps s s') :
    Keeps s (s'.doReadResponse p q ce data) := by
  unfold State.doReadResponse
  refine .roceIn hs fun _ hu => ?_
  extract_lets
  split
  · exact .ite hu.qpError (.qpPump (.acked (.foldl hu.setQp (fun _ _ hu => hu.acked))))
  · exact hu.qpError

theorem Keeps.doNak {s s' : State} {p q : Nat} {ce : Bool} (hs : Keeps s s') : Keeps s (s'.doNak p q ce) :=
  .roceIn hs (fun _ hu => hu.qpError)

theorem Keeps.doRnrNak {s s' : State} {p q : Nat} {ce : Bool} (hs : Keeps s s') : Keeps s (s'.doRnrNak p q ce) :=
  .roceIn hs (fun _ hu => .ite hu (.ite hu.qpError hu.setQp.qpResend))

theorem Keeps.doQpTimeout {s s' : State} {p q : Nat} (hs : Keeps s s') : Keeps s (s'.doQpTimeout p q) :=
  .ite hs (.ite hs.qpError hs.setQp.qpResend)

theorem Keeps.doCnp {s s' : State} {p q : Nat} (hs : Keeps s s') : Keeps s (s'.doCnp p q) := .ite hs.rxFrames.setQp hs

theorem Keeps.doCnpRecovery {s s' : State} {p q : Nat} (hs : Keeps s s') : Keeps s (s'.doCnpRecovery p q) :=
  .ite hs hs.setQp

theorem Keeps.doPfc {s s' : State} {p quanta : Nat} (hs : Keeps s s') : Keeps s (s'.doPfc p quanta) :=
  .ite hs (.ite hs.rxFrames.setHport hs.rxFrames.setHport.upd)

theorem Keeps.doPfcRefresh {s s' : State} {p : Nat} (hs : Keeps s s') : Keeps s (s'.doPfcRefresh p) :=
  .ite hs hs.setHport.bump.emit

theorem Keeps.rxAdvance {s s' : State} {p q len : Nat} (hs : Keeps s s') : Keeps s (s'.rxAdvance p q len) := hs.setQp

theorem Keeps.sendAck {s s' : State} {p q len : Nat} (hs : Keeps s s') : Keeps s (s'.sendAck p q len) :=
  hs.rxAdvance.sendRoce

theorem Keeps.nakAccess {s s' : State} {p q : Nat} {st : Status} (hs : Keeps s s') : Keeps s (s'.nakAccess p q st) :=
  hs.sendRoce.condition.qpError

theorem Keeps.hostWindow {s s' : State} {p q rkey a len : Nat} {r : WinRight} (hs : Keeps s s') :
    Keeps s (s'.hostWindow p q rkey a len r).1 := by
  unfold State.hostWindow
  split
  · exact .ite_fst hs.bump.fst hs.admitRemote
  · exact hs.admitRemote

theorem Keeps.headWrite {s s' : State} {p c : Nat} {fault : Bool} {v : Nat} (hs : Keeps s s') :
    Keeps s (s'.headWrite p c fault v) := .ite hs.setPost hs.setPost.pumpClient.stir

theorem Keeps.pageWrite {s s' t : State} {p q va : Nat} {data : Bytes} (hs : Keeps s s')
    (h : s'.pageWrite p q va data = some t) : Keeps s t := by
  unfold State.pageWrite at h
  split at h
  · split at h <;> cases h
    exact hs.intakeBytes
  · split at h <;> cases h
    exact hs.doorbell
  · split at h <;> cases h
    exact hs.headWrite
  · cases h

theorem Keeps.rxWrite {s s' : State} {p q va rkey : Nat} {data : Bytes} (hs : Keeps s s') :
    Keeps s (s'.rxWrite p q va rkey data) := by
  unfold State.rxWrite
  split
  next e =>
    split at e
    · exact (hs.pageWrite e).sendAck
    · cases e
  · split
    next u e0 =>
      have hu : Keeps s u := .of_fst hs.hostWindow e0
      split
      next e1 => exact .sendAck (.of_fst hu.writeLocal e1)
      next e1 => exact .nakAccess (.of_fst hu.writeLocal e1)
    next e0 => exact .nakAccess (.of_fst hs.hostWindow e0)

theorem Keeps.sendData {s s' : State} {p q : Nat} {data : Bytes} (hs : Keeps s s') : Keeps s (s'.sendData p q data) :=
  hs.rxAdvance.sendRoce

theorem Keeps.rxRead {s s' : State} {p q va rkey len : Nat} (hs : Keeps s s') : Keeps s (s'.rxRead p q va rkey len) := by
  unfold State.rxRead
  split
  · exact .ite hs.sendData hs.nakAccess
  · split
    next u e =>
      have hu : Keeps s u := .of_fst hs.hostWindow e
      split
      next ev => exact .sendData (.of_fst hu.readLocal ev)
      next ev => exact .nakAccess (.of_fst hu.readLocal ev)
    next e => exact .nakAccess (.of_fst hs.hostWindow e)

theorem Keeps.rxSend {s s' : State} {p q : Nat} {data : Bytes} (hs : Keeps s s') : Keeps s (s'.rxSend p q data) := by
  unfold State.rxSend
  split
  · exact hs.nakAccess
  · exact .ite hs.sendRoce (.sendAck (.ite hs.intakeBytes.intakeCommit hs.intakeVoid))

theorem Keeps.rxServe {s s' : State} {p q : Nat} {a : RxMsg} (hs : Keeps s s') : Keeps s (s'.rxServe p q a) := by
  unfold State.rxServe
  split
  · exact hs.rxWrite
  · exact hs.rxRead
  · exact hs.rxSend

theorem Keeps.rxServeN {s s' : State} {p a : Nat} (hs : Keeps s s') : Keeps s (s'.rxServeN p a) := by
  induction a generalizing s' p with
  | zero => exact hs
  | succ a ih =>
    unfold State.rxServeN
    extract_lets
    split
    · exact hs
    · exact .ite hs (ih hs.setHport.rxServe)

theorem Keeps.rxPump {s s' : State} {p : Nat} (hs : Keeps s s') : Keeps s (s'.rxPump p) := hs.rxServeN.flowControl

theorem Keeps.rxTake {s s' : State} {p q k : Nat} {ce : Bool} {m : RxMsg} (hs : Keeps s s') :
    Keeps s (s'.rxTake p q k ce m) := .roceIn hs (fun _ hu => hu.setHport.rxPump)

theorem Keeps.doRdmaWrite {s s' : State} {p q : Nat} {ce : Bool} {va rkey : Nat} {data : Bytes} (hs : Keeps s s') :
    Keeps s (s'.doRdmaWrite p q ce va rkey data) := hs.rxTake

theorem Keeps.doCommitDoorbell {s s' : State} {p q : Nat} {ce : Bool} {d r v : Nat} (hs : Keeps s s') :
    Keeps s (s'.doCommitDoorbell p q ce d r v) := hs.doRdmaWrite

theorem Keeps.doRdmaRead {s s' : State} {p q : Nat} {ce : Bool} {va rkey len : Nat} (hs : Keeps s s') :
    Keeps s (s'.doRdmaRead p q ce va rkey len) := hs.rxTake

theorem Keeps.doSend {s s' : State} {p q : Nat} {ce : Bool} {data : Bytes} (hs : Keeps s s') :
    Keeps s (s'.doSend p q ce data) := hs.rxTake

theorem Keeps.tailOf {s s' : State} {p c : Nat} {fault : Bool} (hs : Keeps s s') : Keeps s (s'.tailOf p c fault) :=
  .ite hs.setPost.postWrite hs

theorem Keeps.doTail {s s' : State} {p c : Nat} (hs : Keeps s s') : Keeps s (s'.doTail p c) := hs.tailOf.tailOf

theorem Keeps.doArp {s s' : State} {p target sender mac : Nat} (hs : Keeps s s') :
    Keeps s (s'.doArp p target sender mac) := .ite hs (.ite hs.rxFrames.emit hs.rxFrames)

theorem Keeps.doNeighbour {s s' : State} {p target sender mac : Nat} (hs : Keeps s s') :
    Keeps s (s'.doNeighbour p target sender mac) := .ite hs (.ite hs.rxFrames.emit hs.rxFrames)

theorem Keeps.doEcho {s s' : State} {p : Nat} {v6 : Bool} {target sender : Nat} {data : Bytes} (hs : Keeps s s') :
    Keeps s (s'.doEcho p v6 target sender data) := .ite hs (.ite hs.rxFrames.emit hs.rxFrames)

theorem Keeps.writeQp {s s' : State} {p q v : Nat} (hs : Keeps s s') : Keeps s (s'.writeQp p q v).1 := by
  unfold State.writeQp
  extract_lets _ _ _ _ put
  have hput : ∀ u x1, Keeps s u → Keeps s (put u x1) := fun _ _ hu => hu.setReg
  exact .ite_fst hs (.ite_fst hs (.ite_fst (.fst (hput _ _ hs.qpEnd)) (.ite_fst (.fst (.pumpAll (.setQp (hput _ _
      hs)))) (.fst (hput _ _ hs)))))

theorem Keeps.writeIntake {s s' : State} {d r v : Nat} (hs : Keeps s s') : Keeps s (s'.writeIntake d r v).1 := by
  unfold State.writeIntake
  dsimp only
  split
  · exact hs.setReg
  · exact hs

theorem Keeps.writeRings {s s' : State} {p c v : Nat} (hs : Keeps s s') : Keeps s (s'.writeRings p c v).1 := by
  unfold State.writeRings
  extract_lets
  split
  · exact hs.setReg.setPost.pumpClient.fst
  · exact hs

theorem Keeps.writeAperture {s s' : State} {p k v : Nat} (hs : Keeps s s') : Keeps s (s'.writeAperture p k v).1 :=
  .ite_fst hs hs.setReg.pumpAll.fst

theorem Keeps.portLost {s s' : State} {p : Nat} (hs : Keeps s s') : Keeps s (s'.portLost p) := hs.setReg.setHport

end Sys2Proof.Machine
end

section
/-! O54, O55: the operations of Machine/Resilience keep the queue and the canonical form of memory. -/

namespace Sys2Proof.Machine

theorem Keeps.setShadows {s s' : State} {p : Nat} {l : List Shadow} (hs : Keeps s s') : Keeps s (s'.setShadows p l) :=
  hs.upd

theorem Keeps.setShadow {s s' : State} {p k : Nat} {w : Shadow} (hs : Keeps s s') : Keeps s (s'.setShadow p k w) :=
  hs.setShadows

theorem Keeps.dropShadow {s s' : State} {p k : Nat} (hs : Keeps s s') : Keeps s (s'.dropShadow p k) :=
  hs.setShadows.setReg

theorem Keeps.doShadowStart {s s' : State} {p k : Nat} (hs : Keeps s s') : Keeps s (s'.doShadowStart p k) := by
  unfold State.doShadowStart
  extract_lets
  split
  · exact hs
  · extract_lets _ _ _ _ _ s1
    have hs1 : Keeps s s1 := hs.setShadow
    split
    · exact hs
    · split
      · exact hs
      · exact hs1.placeRun.stir

theorem Keeps.shadowRunEnded {s s' : State} {n h : Nat} {x : Ctx} {st : Status} (hs : Keeps s s') :
    Keeps s (s'.shadowRunEnded n h x st) := by
  unfold State.shadowRunEnded
  extract_lets _ s1
  have hs1 : Keeps s s1 := by
    unfold s1
    split
    · exact .ite hs.dropSaved hs
    · exact .ite hs.vacateCtx hs
  exact .ite hs hs1.setShadows

theorem Keeps.shadowVote {s s' : State} {p v : Nat} (hs : Keeps s s') : Keeps s (s'.shadowVote p v) :=
  .ite hs.gateFail hs.setGate

theorem Keeps.blame {s s' : State} {l : List (Nat × Nat)} (hs : Keeps s s') : Keeps s (s'.blame l) :=
  .foldl hs (fun _ _ hu => hu.watchEvent)

theorem Keeps.skipNote {s s' : State} {p : Nat} {w : Shadow} (hs : Keeps s s') : Keeps s (s'.skipNote p w) :=
  hs.bump.condition

theorem Keeps.shadowSkip {s s' : State} {p k : Nat} {w : Shadow} (hs : Keeps s s') : Keeps s (s'.shadowSkip p k w) :=
  .ite hs.skipNote.dropShadow.blame.shadowVote hs.skipNote.dropShadow

theorem Keeps.shadowDiffers {s s' : State} {p k : Nat} {w : Shadow} {d : Nat} (hs : Keeps s s') :
    Keeps s (s'.shadowDiffers p k w d) := hs.bump.condition.setReg.setShadow

theorem Keeps.tieOutcome {s s' : State} {p k : Nat} {w : Shadow} {d : Nat} (hs : Keeps s s') :
    Keeps s (s'.tieOutcome p k w d) := by
  unfold State.tieOutcome
  extract_lets s1
  have hs1 : Keeps s s1 := hs.dropShadow
  exact .ite hs1.blame (.ite hs1.blame.shadowVote hs1.blame.shadowVote)

theorem Keeps.doShadowComplete {s s' : State} {p k : Nat} (hs : Keeps s s') : Keeps s (s'.doShadowComplete p k) := by
  unfold State.doShadowComplete
  extract_lets s1
  have hs1 : Keeps s s1 := hs.bump
  split
  · exact hs
  · split
    · exact hs
    · exact hs.shadowSkip
    · exact .ite hs.tieOutcome (.ite hs1.dropShadow hs1.shadowDiffers)

theorem Keeps.doShadowExpiry {s s' : State} {p k : Nat} (hs : Keeps s s') : Keeps s (s'.doShadowExpiry p k) := by
  unfold State.doShadowExpiry
  split
  · exact hs
  · exact .ite hs hs.shadowSkip

theorem Keeps.mapCore {s s' : State} {n : Nat} {pos : Option Nat} (hs : Keeps s s') : Keeps s (s'.mapCore n pos) := by
  unfold State.mapCore
  extract_lets
  split <;> exact hs.setReg.setReg.setReg

theorem Keeps.countCores {s s' : State} {d : Nat} (hs : Keeps s s') : Keeps s (s'.countCores d) := hs.setReg.setReg

theorem Keeps.retirePos {s s' : State} {d pos : Nat} (hs : Keeps s s') : Keeps s (s'.retirePos d pos) :=
  hs.watchForget.kdChange

theorem Keeps.replaceCore {s s' : State} {n : Nat} (hs : Keeps s s') : Keeps s (s'.replaceCore n).1 :=
  hs.retirePos.mapCore.countCores.fst

theorem Keeps.endSaved {s s' : State} {v : Saved} {st : Status} (hs : Keeps s s') : Keeps s (s'.endSaved v st) :=
  .ite hs.dropSaved hs.runEnds.upd

theorem Keeps.endAllSaved {s s' : State} {n : Nat} (hs : Keeps s s') : Keeps s (s'.endAllSaved n) :=
  .condition (.foldl hs (fun _ _ hu => hu.endSaved))

theorem Keeps.clearCore {s s' : State} {n : Nat} (hs : Keeps s s') : Keeps s (s'.clearCore n) := by
  unfold State.clearCore
  exact .setCore (.updMem hs (wf_filter _))

theorem Keeps.clearOut {s s' : State} {n : Nat} (hs : Keeps s s') : Keeps s (s'.clearOut n) :=
  .foldl hs (fun _ _ hu => .ite hu.askPreempt.bump.saveCtx hu.askPreempt)

theorem Keeps.doRetire {s s' : State} {n : Nat} (hs : Keeps s s') : Keeps s (s'.doRetire n) := by
  unfold State.doRetire
  extract_lets s1
  have hs1 : Keeps s s1 := hs.clearOut
  split
  · exact hs
  · extract_lets _ s2 _ s3
    have hs2 : Keeps s s2.1 := hs1.condition.replaceCore
    have hs3 : Keeps s s3 := hs2.bump.clearCore.modCore
    exact .ite hs (.ite hs1 (.ite hs3.resumeCore hs3.endAllSaved))

theorem Keeps.retireCheck {s s' : State} {n : Nat} (hs : Keeps s s') : Keeps s (s'.retireCheck n) := .ite hs.upd hs

theorem Keeps.doPreempted {s s' : State} {n h : Nat} (hs : Keeps s s') : Keeps s (s'.doPreempted n h) := by
  unfold State.doPreempted
  extract_lets _ _ s1 s2
  have hs1 : Keeps s s1 := hs.doPreemption
  have hs2 : Keeps s s2 := by
    unfold s2
    split
    · split
      · exact hs1.endSaved
      · exact hs1
    · exact hs1
  exact hs2.retireCheck.stir

theorem Keeps.writeRegion {s s' : State} {p c r v : Nat} (hs : Keeps s s') : Keeps s (s'.writeRegion p c r v).1 := by
  unfold State.writeRegion
  extract_lets
  split
  · exact hs.setReg.fst
  · exact hs

end Sys2Proof.Machine
end

section
/-! O54, O55: the operations of Machine/Kiln keep the queue and the canonical form of memory. -/

namespace Sys2Proof.Machine

theorem Keeps.makeDue {s s' : State} {d kind k : Nat} (hs : Keeps s s') : Keeps s (s'.makeDue d kind k) := .ite hs hs.upd

theorem Keeps.undue {s s' : State} {d kind k : Nat} (hs : Keeps s s') : Keeps s (s'.undue d kind k) := hs.upd

theorem Keeps.doKilnDue {s s' : State} {d : Nat} {seg : Bool} {k : Nat} (hs : Keeps s s') :
    Keeps s (s'.doKilnDue d seg k) := .ite hs (.ite (.ite hs hs.makeDue) (.ite hs hs.makeDue))

theorem Keeps.forceSlice {s s' : State} {d x : Nat} (hs : Keeps s s') : Keeps s (s'.forceSlice d x) := by
  unfold State.forceSlice
  extract_lets _ s1
  have hs1 : Keeps s s1 := hs.upd
  split
  · exact hs1.modCore.clearOut
  · exact hs1

theorem Keeps.doKilnForce {s s' : State} {d x : Nat} (hs : Keeps s s') : Keeps s (s'.doKilnForce d x) :=
  .ite hs.bump.forceSlice hs

theorem Keeps.isolate {s s' : State} {d x : Nat} (hs : Keeps s s') : Keeps s (s'.isolate d x) := by
  unfold State.isolate
  extract_lets _ _ s1
  have hs1 : Keeps s s1 := hs.undue.upd
  split
  · exact hs1.clearCore.modCore
  · exact hs1

theorem Keeps.doKilnSlice {s s' : State} {d x : Nat} (hs : Keeps s s') : Keeps s (s'.doKilnSlice d x) := by
  unfold State.doKilnSlice
  split
  · exact hs
  · split
    · exact hs.isolate
    · exact .ite hs.requestWake (.ite hs (.ite hs.modCore.clearOut.isolate hs.modCore.clearOut))

theorem Keeps.noteCoreResult {s s' : State} {d x v : Nat} (hs : Keeps s s') : Keeps s (s'.noteCoreResult d x v) := by
  unfold State.noteCoreResult
  split
  · exact hs.setReg
  · exact .ite hs.setReg hs

theorem Keeps.kilnFailure {s s' : State} {d core subject : Nat} (hs : Keeps s s') :
    Keeps s (s'.kilnFailure d core subject) := hs.bump.condition

theorem Keeps.watchClean {s s' : State} {kind d pos : Nat} (hs : Keeps s s') : Keeps s (s'.watchClean kind d pos) := by
  unfold State.watchClean
  split
  · exact hs
  · exact .ite hs.watchDrop hs.kdChange

theorem Keeps.applyLate {s s' : State} {d x : Nat} (hs : Keeps s s') : Keeps s (s'.applyLate d x) :=
  .foldl hs.upd (fun _ _ hu => hu.watchEvent)

theorem Keeps.endSlice {s s' : State} {n : Nat} (hs : Keeps s s') : Keeps s (s'.endSlice n) :=
  .ite hs.modCore.retireCheck hs.modCore.resumeCore

theorem Keeps.sliceOutcome {s s' : State} {d x : Nat} {r : BistResult} (hs : Keeps s s') :
    Keeps s (s'.sliceOutcome d x r) := by
  unfold State.sliceOutcome
  extract_lets bad n _ s1 s2 _ s3 s4 s5
  have hs2 : Keeps s s2 := hs.upd.bump.noteCoreResult
  have hs4 : Keeps s s4 := hs2.upd.watchClean.applyLate
  have hs5 : Keeps s s5 := hs2.kilnFailure
  clear_value s4 s5 n
  split
  · split
    · exact hs4.clearCore.mapCore.countCores.endSlice
    · exact hs4.countCores
  · split
    · exact hs5.retirePos.countCores
    · extract_lets q s6 s7
      have hs7 : Keeps s s7 := hs5.replaceCore.bump.clearCore.modCore.applyLate
      exact .ite hs7.resumeCore hs7.endAllSaved

theorem Keeps.p5Note {s s' : State} {item bad : Nat} (hs : Keeps s s') : Keeps s (s'.p5Note item bad) := hs.upd

theorem Keeps.doKilnSliceDone {s s' : State} {d x : Nat} {r : BistResult} (hs : Keeps s s') :
    Keeps s (s'.doKilnSliceDone d x r) := .ite (.ite hs.p5Note.upd hs.p5Note) (.ite hs.sliceOutcome hs)

theorem Keeps.abortSlices {s s' : State} {d : Nat} (hs : Keeps s s') : Keeps s (s'.abortSlices d) := by
  unfold State.abortSlices
  refine .foldl hs fun _ _ hu => ?_
  extract_lets _ _ s1
  have hs1 : Keeps s s1 := hu.upd.bump.makeDue
  split
  · exact hs1.clearCore.applyLate.endSlice
  · exact hs1

theorem Keeps.sweepSegment {s s' : State} {d g : Nat} (hs : Keeps s s') : Keeps s (s'.sweepSegment d g) :=
  .foldl hs (fun _ _ hu => .ite hu.bump.upd hu.foundBad.condition)

theorem Keeps.substitute {s s' : State} {d : Nat} {rows : List (Fin 16 × Nat)} (hs : Keeps s s') :
    Keeps s (s'.substitute d rows).1 := .foldl_fst hs (fun _ _ hu => hu.setReg.fst)

theorem Keeps.forgetWords {s s' : State} {d g : Nat} (hs : Keeps s s') : Keeps s (s'.forgetWords d g) := .ite hs hs.upd

theorem Keeps.rowsNote {s s' : State} {d g : Nat} {rows : List (Fin 16 × Nat)} (hs : Keeps s s') :
    Keeps s (s'.rowsNote d g rows) := .ite hs hs.condition

theorem Keeps.marchSegment {s s' : State} {d g : Nat} {rows : List (Fin 16 × Nat)} (hs : Keeps s s') :
    Keeps s (s'.marchSegment d g rows) := by
  unfold State.marchSegment
  split
  next e => exact .forgetWords (.watchClean (.setReg (.setReg (.rowsNote (.of_fst hs.substitute e)))))
  next u e =>
    have hu : Keeps s u := .of_fst hs.substitute e
    exact hu.watchForget.forgetWords.setReg.setReg.kilnFailure

theorem Keeps.doSegmentTest {s s' : State} {d g : Nat} {badRows : List (Fin 16 × Nat)} (hs : Keeps s s') :
    Keeps s (s'.doSegmentTest d g badRows) := by
  unfold State.doSegmentTest
  extract_lets s1 _ _ _ _ s2
  have hs1 : Keeps s s1.1 := hs.substitute
  have hs2 : Keeps s s2 := hs.undue.sweepSegment
  exact .ite (.p5Note (.ite hs1.rowsNote hs1)) (.ite hs (.ite hs.undue.setReg.upd hs2.marchSegment))

theorem Keeps.doSegmentRetry {s s' : State} {d g : Nat} (hs : Keeps s s') : Keeps s (s'.doSegmentRetry d g) :=
  .ite hs.upd.makeDue hs

theorem Keeps.writeKilnRequest {s s' : State} {v : Nat} (hs : Keeps s s') : Keeps s (s'.writeKilnRequest v).1 := by
  unfold State.writeKilnRequest
  extract_lets _ _ _ s1
  have hs1 : Keeps s s1 := hs.makeDue
  split
  · exact .ite_fst hs (.ite_fst hs (.ite_fst hs (.fst (.ite hs1.forceSlice hs1))))
  · exact .ite_fst hs (.ite_fst hs (.ite_fst hs hs.makeDue.fst))
  · exact .ite_fst hs (.ite_fst hs hs.makeDue.fst)
  · exact .ite_fst hs (.ite_fst hs hs.makeDue.fst)
  · exact hs

end Sys2Proof.Machine
end

section
/-! O54, O55: the operations of Machine/Power keep the queue and the canonical form of memory. -/

namespace Sys2Proof.Machine

theorem Keeps.modPower {s s' : State} {f : Power → Power} (hs : Keeps s s') : Keeps s (s'.modPower f) := hs.upd

theorem Keeps.sessionNote {s s' : State} {x : Session} {st : Status} {cause : Nat} (hs : Keeps s s') :
    Keeps s (s'.sessionNote x st cause) := hs.record

theorem Keeps.closeSessions {s s' : State} {f : Session → Bool} {cause : Nat} (hs : Keeps s s') :
    Keeps s (s'.closeSessions f cause) := .setReg (.foldl hs.upd (fun _ _ hu => hu.sessionNote))

theorem Keeps.releaseHalts {s s' : State} (hs : Keeps s s') : Keeps s s'.releaseHalts := hs.upd

theorem Keeps.endUnlock {s s' : State} {status : Status} (hs : Keeps s s') : Keeps s (s'.endUnlock status) :=
  .ite hs (.releaseHalts (.foldl hs.flushMerge.upd.record.setReg (fun _ _ hu => hu.setReg)))

theorem Keeps.afterReset {s s' : State} (hs : Keeps s s') : Keeps s s'.afterReset := by
  have hr : ∀ t : State, t.pending = s'.pending → t.mem = [] → Keeps s t := fun t hp hm =>
    ⟨hp.trans hs.1, fun _ => hm ▸ reset_mem_wf⟩
  unfold State.afterReset
  exact .ite (.setReg (hr _ rfl rfl)) (hr _ rfl rfl)

theorem Keeps.moduleReset {s s' : State} (hs : Keeps s s') : Keeps s s'.moduleReset :=
  hs.endUnlock.closeSessions.afterReset

theorem Keeps.abortAll {s s' : State} (hs : Keeps s s') : Keeps s s'.abortAll :=
  .foldl (.foldl hs (fun _ _ hu => hu.endRun)) (fun _ _ hu => hu.endSaved)

theorem Keeps.quiesce {s s' : State} {latch : Bool} (hs : Keeps s s') : Keeps s (s'.quiesce latch) :=
  .moduleReset (.bump (.condition (.ite hs.abortAll.setReg hs.abortAll)))

theorem Keeps.endDie {s s' : State} {d : Nat} {st : Status} (hs : Keeps s s') : Keeps s (s'.endDie d st) := by
  unfold State.endDie
  refine .foldl (.foldl hs fun u e hu => ?_) fun _ _ hu => hu.endSaved
  extract_lets
  split
  · exact hu.loadFails
  · exact .ite hu.endRun hu

theorem Keeps.takeover {s s' : State} (hs : Keeps s s') : Keeps s s'.takeover := by
  unfold State.takeover
  extract_lets s1 _ s2 s3 s4
  have hs1 : Keeps s s1 := hs.endUnlock.closeSessions
  have hs2 : Keeps s s2 := hs1.setReg.setReg.bump
  have hs3 : Keeps s s3 := .foldl hs2 (fun _ _ hu => .ite hu.qpError hu)
  have hs4 : Keeps s s4 := .foldl hs3 (fun _ _ hu => .ite hu hu.intakeVoid)
  exact .ite hs.quiesce (.ite hs4.setReg.modPower hs4)

theorem Keeps.fenceDie {s s' : State} {u : Nat} (hs : Keeps s s') : Keeps s (s'.fenceDie u) := by
  unfold State.fenceDie
  extract_lets _ s1 _ _ s2
  have hs1 : Keeps s s1 := hs.modPower.condition
  have hs2 : Keeps s s2 := hs1.setReg
  exact .ite hs (.ite hs1.upd.bump.setReg.endDie (.ite (.ite hs2 (.foldl hs2 (fun _ _ hu => .ite hu
      hu.retireChannel))) (.ite (.foldl hs1.setReg (fun _ _ hu => hu.portDown)) (.ite hs1.takeover hs1.setReg))))

theorem Keeps.doDieCheck {s s' : State} {u : Nat} {ok : Bool} (hs : Keeps s s') : Keeps s (s'.doDieCheck u ok) :=
  .ite hs (.ite hs.undue.modPower.p5Note (.ite hs.undue.p5Note.fenceDie hs.undue.modPower))

theorem Keeps.doLoopback {s s' : State} {x k : Nat} {ok : Bool} (hs : Keeps s s') : Keeps s (s'.doLoopback x k ok) := by
  unfold State.doLoopback
  extract_lets _ s1 _ s2 s3
  have hs1 : Keeps s s1 := hs.p5Note.undue
  have hs2 : Keeps s s2 := hs1.upd
  have hs3 : Keeps s s3 := .ite hs2.setReg hs2
  exact .ite hs (.ite hs1 hs3.condition)

theorem Keeps.beginPoint {s s' : State} {d : Nat} {ceilingFell : Bool} (hs : Keeps s s') :
    Keeps s (s'.beginPoint d ceilingFell) := by
  unfold State.beginPoint
  extract_lets _ _ put s1
  have hput : ∀ u, Keeps s u → Keeps s (put u) := fun _ hu => hu.modPower
  have hs1 : Keeps s s1 := hput _ hs
  exact .ite (.foldl (hput _ hs) (fun _ _ hu => hu.askGovernor)) (.ite (.ite hs1.setReg hs1) hs)

theorem Keeps.opUpdate {s s' : State} {d : Nat} (hs : Keeps s s') : Keeps s (s'.opUpdate d) := .ite hs hs.beginPoint

theorem Keeps.endMove {s s' : State} {d : Nat} (hs : Keeps s s') : Keeps s (s'.endMove d) := hs.modPower.opUpdate

theorem Keeps.writeOpTarget {s s' : State} {d v : Nat} (hs : Keeps s s') : Keeps s (s'.writeOpTarget d v).1 :=
  hs.setReg.opUpdate.fst

theorem Keeps.moveLocked {s s' : State} {d : Nat} (hs : Keeps s s') : Keeps s (s'.moveLocked d) := by
  unfold State.moveLocked
  split
  · exact hs
  · exact .ite hs (.ite hs.modPower.setReg hs.modPower)

theorem Keeps.doSettled {s s' : State} {d : Nat} (hs : Keeps s s') : Keeps s (s'.doSettled d) := by
  unfold State.doSettled
  split
  · exact hs
  · exact .ite hs.setReg.endMove hs

theorem Keeps.setCeiling {s s' : State} {d : Nat} (hs : Keeps s s') : Keeps s (s'.setCeiling d) := by
  unfold State.setCeiling
  extract_lets _ _ _ s1 s2
  have hs1 : Keeps s s1 := hs.setReg
  have hs2 : Keeps s s2 := hs1.bump.abortSlices
  split
  · split
    · exact hs2
    · split
      · exact .ite hs2.upd.modPower.beginPoint hs2
      · exact hs2.beginPoint
  · exact .ite hs1.opUpdate hs1

theorem Keeps.doWindow {s s' : State} (hs : Keeps s s') : Keeps s s'.doWindow := hs.modPower.govern

theorem Keeps.doGate {s s' : State} {d g : Nat} (hs : Keeps s s') : Keeps s (s'.doGate d g) := .ite hs.setReg.modPower hs

theorem Keeps.thermalShutdown {s s' : State} (hs : Keeps s s') : Keeps s s'.thermalShutdown := hs.bump.quiesce

theorem Keeps.doThermal {s s' : State} {u : Nat} {t : Int} (hs : Keeps s s') : Keeps s (s'.doThermal u t) := by
  unfold State.doThermal
  extract_lets _ s1 _ s2 s3
  have hs1 : Keeps s s1 := hs.setReg
  have hs2 : Keeps s s2 := hs1.modPower.setCeiling
  have hs3 : Keeps s s3 := .ite hs.setReg (.ite hs.setReg hs.setReg)
  exact .ite hs (.ite (.ite hs2.thermalShutdown hs2) (.ite hs3.thermalShutdown hs3))

theorem Keeps.ceilings {s s' : State} (hs : Keeps s s') : Keeps s s'.ceilings :=
  .foldl hs (fun _ _ hu => .ite hu hu.setCeiling)

theorem Keeps.lowInput {s s' : State} {low : Bool} (hs : Keeps s s') : Keeps s (s'.lowInput low) :=
  .ceilings (.ite hs.setReg.condition.bump hs.setReg.condition)

theorem Keeps.average {s s' : State} {mv ma : Int} (hs : Keeps s s') : Keeps s (s'.average mv ma).1 := by
  unfold State.average
  extract_lets s1 _ _ s2
  have hs1 : Keeps s s1 := hs.setReg.setReg
  have hs2 : Keeps s s2 := hs1.modPower
  exact .ite_fst hs2.lowInput.fst (.ite_fst hs2.lowInput.fst hs2)

theorem Keeps.clockPort {s s' : State} (hs : Keeps s s') : Keeps s s'.clockPort := by
  unfold State.clockPort
  split <;> exact hs.setReg.modPower

theorem Keeps.leaveP0 {s s' : State} (hs : Keeps s s') : Keeps s s'.leaveP0 := .ite hs.setPhase.clockPort hs

theorem Keeps.enterP2 {s s' : State} (hs : Keeps s s') : Keeps s s'.enterP2 := hs.upd.setPhase

theorem Keeps.refStable {s s' : State} (hs : Keeps s s') : Keeps s s'.refStable :=
  .enterP2 (.ite hs.setReg.condition hs.setReg.modPower)

theorem Keeps.refDone {s s' : State} {p : Nat} (hs : Keeps s s') : Keeps s (s'.refDone p) := by
  unfold State.refDone
  extract_lets s1 s2 s3
  have hs3 : Keeps s s3 := hs.setReg.setReg.bump.condition.modPower
  exact hs3.upd

theorem Keeps.relocked {s s' : State} (hs : Keeps s s') : Keeps s s'.relocked := by
  unfold State.relocked
  split
  · exact .ite hs.refDone hs
  · exact hs

theorem Keeps.loseRef {s s' : State} (hs : Keeps s s') : Keeps s s'.loseRef :=
  .ite hs.setReg.modPower.upd hs.setReg.modPower

theorem Keeps.doRefLoss {s s' : State} (hs : Keeps s s') : Keeps s s'.doRefLoss := .ite hs.loseRef hs

theorem Keeps.switchTo {s s' : State} {p : Nat} (hs : Keeps s s') : Keeps s (s'.switchTo p) := hs.setReg.modPower

theorem Keeps.doCandidate {s s' : State} {p count : Nat} (hs : Keeps s s') : Keeps s (s'.doCandidate p count) :=
  .ite (.ite hs.switchTo hs.modPower.upd) (.ite (.ite hs.switchTo hs.modPower) hs)

theorem Keeps.doPllStable {s s' : State} {u : Nat} (hs : Keeps s s') : Keeps s (s'.doPllStable u) := by
  unfold State.doPllStable
  extract_lets s1
  have hs1 : Keeps s s1 := hs.modPower
  exact .ite (.ite (.ite hs1.refStable hs1) hs1.relocked) (.ite hs.moveLocked hs)

theorem Keeps.doPllTimeout {s s' : State} {u : Nat} (hs : Keeps s s') : Keeps s (s'.doPllTimeout u) := by
  unfold State.doPllTimeout
  split
  · exact hs
  · split
    · exact hs.fenceDie.relocked
    · split
      · exact .ite hs hs.fenceDie
      · exact hs

theorem Keeps.doHoldover {s s' : State} (hs : Keeps s s') : Keeps s s'.doHoldover := .ite hs.quiesce hs

theorem Keeps.writeRefCtl {s s' : State} {n : Nat} (hs : Keeps s s') : Keeps s (s'.writeRefCtl n).1 := by
  unfold State.writeRefCtl
  split
  · exact hs
  · exact .ite_fst hs hs.modPower.fst

theorem Keeps.doLinkUp {s s' : State} {p : Nat} (hs : Keeps s s') : Keeps s (s'.doLinkUp p) :=
  .ite hs (.ite hs.setReg.setReg.clockPort hs.setReg.setReg.leaveP0)

theorem Keeps.doLinkDown {s s' : State} {p : Nat} (hs : Keeps s s') : Keeps s (s'.doLinkDown p) := by
  unfold State.doLinkDown
  extract_lets s1 s2
  have hs1 : Keeps s s1 := hs.portLost.setReg
  have hs2 : Keeps s s2 := hs1.modPower
  exact .ite hs1.clockPort (.ite hs1.loseRef (.ite hs2.upd (.ite hs1.modPower hs1)))

theorem Keeps.doHeartbeat {s s' : State} (hs : Keeps s s') : Keeps s s'.doHeartbeat := .ite hs.modPower hs

theorem Keeps.doTakeover {s s' : State} (hs : Keeps s s') : Keeps s s'.doTakeover := .ite hs.takeover hs

theorem Keeps.toReset {s s' : State} (hs : Keeps s s') : Keeps s s'.toReset := .ite hs.moduleReset hs.quiesce

theorem Keeps.unlatch {s s' : State} (hs : Keeps s s') : Keeps s s'.unlatch := hs.setReg

theorem Keeps.doModReset {s s' : State} (hs : Keeps s s') : Keeps s s'.doModReset :=
  .ite hs.modPower hs.modPower.toReset.unlatch

theorem Keeps.doStbyLow {s s' : State} (hs : Keeps s s') : Keeps s s'.doStbyLow :=
  .ite hs.modPower hs.modPower.toReset.unlatch

theorem Keeps.doRelease {s s' : State} (hs : Keeps s s') : Keeps s s'.doRelease := hs.modPower.leaveP0

theorem Keeps.doStbyHigh {s s' : State} (hs : Keeps s s') : Keeps s s'.doStbyHigh := hs.modPower.leaveP0

theorem Keeps.doStandbyLoss {s s' : State} (hs : Keeps s s') : Keeps s s'.doStandbyLoss :=
  ⟨hs.1, fun _ => reset_mem_wf⟩

theorem Keeps.doStandbyOn {s s' : State} (hs : Keeps s s') : Keeps s s'.doStandbyOn := .ite hs hs.upd.modPower.leaveP0

theorem Keeps.writeBoot {s s' : State} {v : Nat} (hs : Keeps s s') : Keeps s (s'.writeBoot v) := hs.quiesce

theorem Keeps.rampCheck {s s' : State} (hs : Keeps s s') : Keeps s s'.rampCheck := .ite hs.setPhase hs

theorem Keeps.doRampDone {s s' : State} {u : Nat} (hs : Keeps s s') : Keeps s (s'.doRampDone u) :=
  .ite hs.modPower.rampCheck hs

theorem Keeps.doRampTimeout {s s' : State} {u : Nat} (hs : Keeps s s') : Keeps s (s'.doRampTimeout u) :=
  .ite hs.fenceDie.rampCheck hs

theorem Keeps.p5Die {s s' : State} {d : Nat} (hs : Keeps s s') : Keeps s (s'.p5Die d) := by
  unfold State.p5Die
  extract_lets _ s1 s2 s3
  have hs1 : Keeps s s1 := .foldl hs (fun _ _ hu => .ite hu (.ite hu.noteCoreResult.watchClean
      hu.noteCoreResult.kilnFailure.retirePos))
  have hs2 : Keeps s s2 := .foldl hs1 (fun _ _ hu => hu.mapCore)
  have hs3 : Keeps s s3 := hs2.setReg
  exact .foldl hs3 (fun _ _ hu => .ite hu.setReg.watchClean hu.setReg.setReg.kilnFailure.watchForget)

theorem Keeps.endP5 {s s' : State} {sigs : BitVec 24} (hs : Keeps s s') : Keeps s (s'.endP5 sigs) := by
  have hd : Keeps s (((List.range 64).filter s'.dieUp).foldl State.p5Die s') := .foldl hs fun _ _ hu => hu.p5Die
  unfold State.endP5
  exact .setPhase (.modPower (.setReg (.setReg (.updMem hd (wf_filter _)))))

theorem Keeps.enterP7 {s s' : State} (hs : Keeps s s') : Keeps s s'.enterP7 := by
  unfold State.enterP7
  extract_lets s1 s2 _ s3
  have hs1 : Keeps s s1 := hs.setPhase
  have hs2 : Keeps s s2 := .ite hs1.setReg hs1
  have hs3 : Keeps s s3 := .foldl hs2 (fun _ _ hu => hu.kdChange)
  exact .foldl hs3 (fun _ _ hu => hu.opUpdate)

theorem Keeps.p6Check {s s' : State} (hs : Keeps s s') : Keeps s s'.p6Check := .ite hs.enterP7 hs

theorem Keeps.enterP6 {s s' : State} (hs : Keeps s s') : Keeps s s'.enterP6 :=
  .ite hs.condition.enterP7 (.p6Check (.foldl hs (fun _ _ hu => hu.portUp)))

theorem Keeps.leaveP5 {s s' : State} (hs : Keeps s s') : Keeps s s'.leaveP5 := by
  unfold State.leaveP5
  split
  · exact hs.endP5.enterP6
  · exact hs.haltBoot

theorem Keeps.p5Check {s s' : State} (hs : Keeps s s') : Keeps s s'.p5Check := .ite hs.leaveP5 hs

theorem Keeps.doPhaseTimeout {s s' : State} (hs : Keeps s s') : Keeps s s'.doPhaseTimeout := by
  unfold State.doPhaseTimeout
  extract_lets
  split
  · exact hs
  · split
    · exact hs.setPhase.setReg.leaveP0
    · exact .ite hs.setReg.setPhase hs.haltBoot
    · exact .ite (.rampCheck (.foldl hs (fun _ _ hu => hu.fenceDie))) hs
    · exact .doZeroFill (.ite hs hs.doTraining)
    · exact hs.leaveP5
    · exact hs.enterP7
    · exact hs

end Sys2Proof.Machine
end

section
/-! O54, O55: the operations of Machine/Parts keep the queue and the canonical form of memory. -/

namespace Sys2Proof.Machine

theorem Keeps.buildEffects {s s' : State} {p : Nat} (hs : Keeps s s') : Keeps s (s'.buildEffects p) := hs.upd.setReg.upd

theorem Keeps.buildPart {s s' : State} {p : Nat} (hs : Keeps s s') : Keeps s (s'.buildPart p).1 := by
  unfold State.buildPart
  extract_lets
  split
  · exact hs
  · split
    · exact hs
    · split
      · exact hs
      · exact .ite_fst hs hs.buildEffects.fst

theorem Keeps.writeUnits {s s' : State} {p v : Nat} (hs : Keeps s s') : Keeps s (s'.writeUnits p v).1 :=
  .ite_fst hs hs.setReg.fst

theorem Keeps.freeSeg {s s' : State} {i : Nat} (hs : Keeps s s') : Keeps s (s'.freeSeg i) := .ite hs.setReg hs.setReg.upd

theorem Keeps.freeSegs {s s' : State} {l : List Nat} (hs : Keeps s s') : Keeps s (s'.freeSegs l) :=
  .foldl hs (fun _ _ hu => hu.freeSeg.record)

theorem Keeps.writeSegOwner {s s' : State} {d g v : Nat} (hs : Keeps s s') : Keeps s (s'.writeSegOwner d g v).1 := by
  unfold State.writeSegOwner
  extract_lets
  split
  · exact .ite_fst hs.setReg.fst (.ite_fst hs.freeSeg.fst hs)
  · exact hs.beside.fst

theorem Keeps.writeSliceMs {s s' : State} {p c v : Nat} (hs : Keeps s s') : Keeps s (s'.writeSliceMs p c v).1 := by
  unfold State.writeSliceMs
  extract_lets
  split
  · exact .ite_fst hs hs
  · split
    · exact .ite_fst hs hs.freeSegs.setReg.fst
    · split
      · split
        · exact hs
        · exact .fst (.upd (.setReg (.foldl hs (fun _ _ hu => hu.kdChange))))
      · exact hs.setReg.fst

theorem Keeps.writeSaveBanks {s s' : State} {p c v : Nat} (hs : Keeps s s') : Keeps s (s'.writeSaveBanks p c v).1 :=
  .ite_fst hs hs.setReg.fst

theorem Keeps.dissolveUnload {s s' : State} {p : Nat} (hs : Keeps s s') : Keeps s (s'.dissolveUnload p) :=
  .foldl (.foldl hs.upd (fun _ _ hu => hu.kdChange.upd)) (fun _ _ hu => hu.kdChange.setPost)

theorem Keeps.dissolvePart {s s' : State} {p : Nat} (hs : Keeps s s') : Keeps s (s'.dissolvePart p).1 := by
  unfold State.dissolvePart
  extract_lets s1 s2
  have hs1 : Keeps s s1 := hs.dissolveUnload.setPart
  have hs2 : Keeps s s2 := .foldl hs1 fun _ _ hu => hu.closeWindow
  exact .ite_fst hs (.ite_fst hs (.ite_fst hs hs2.upd))

theorem Keeps.advanceDissolve {s s' : State} {p : Nat} (hs : Keeps s s') : Keeps s (s'.advanceDissolve p) := by
  unfold State.advanceDissolve
  extract_lets s1 s2 _ s3 _ s4 _ _ s5 s6
  have hs1 : Keeps s s1 := hs.dropPour
  have hs2 : Keeps s s2 := hs1.upd
  have hs3 : Keeps s s3 := by
    unfold s3
    split
    · exact hs
    · exact hs2.setPart
  have hs4 : Keeps s s4 := hs3.freeSegs
  have hs5 : Keeps s s5 := .foldl hs4 fun _ _ hu => hu.ownChange
  have hs6 : Keeps s s6 := hs5.setReg.setReg.setPart
  exact .ite hs (.ite hs4.setPart hs6.upd)

theorem Keeps.writePartCtl {s s' : State} {p v : Nat} (hs : Keeps s s') : Keeps s (s'.writePartCtl p v).1 :=
  .ite_fst hs.buildPart.fst hs.dissolvePart

theorem Keeps.doSegmentFilled {s s' : State} {d g : Nat} (hs : Keeps s s') : Keeps s (s'.doSegmentFilled d g) := by
  unfold State.doSegmentFilled
  exact .ite hs (.foldl (.updMem hs wf_delIf) fun _ _ hu => hu.advanceDissolve)

theorem Keeps.doWindowClosed {s s' : State} {w : Nat} (hs : Keeps s s') : Keeps s (s'.doWindowClosed w) :=
  .ite hs hs.shutWindow.upd.advanceDissolve

end Sys2Proof.Machine
end

section
/-! O54, O55: the operations of Machine/Trust keep the queue and the canonical form of memory. -/

namespace Sys2Proof.Machine

theorem Keeps.runBank {s s' : State} {bank : Nat} {imgs : List Image} (hs : Keeps s s') :
    Keeps s (s'.runBank bank imgs) := .setReg (.setReg (.foldl hs.upd.setReg (fun _ _ hu => hu.setReg)))

theorem Keeps.setKdBoot {s s' : State} {k : Nat} {b : KdBoot} (hs : Keeps s s') : Keeps s (s'.setKdBoot k b) := hs.upd

theorem Keeps.bootAttempt {s s' : State} {k : Nat} (hs : Keeps s s') : Keeps s (s'.bootAttempt k) := by
  unfold State.bootAttempt
  extract_lets _ _ s1
  have hs1 : Keeps s s1 := hs.setKdBoot
  split
  · exact hs
  · extract_lets _ s2 s3 _ s4
    have hs2 : Keeps s s2 := .ite hs1.runBank hs1
    have hs3 : Keeps s s3 := hs2.setReg.setPhase
    have hs4 : Keeps s s4 := hs.setKdBoot.condition
    exact .ite (.ite (.ite (.ite hs3.setReg hs3) hs2) (.ite hs1.setReg hs1)) (.ite hs4.haltBoot hs4)

theorem Keeps.doVerifyDone {s s' : State} {k : Nat} (hs : Keeps s s') : Keeps s (s'.doVerifyDone k) :=
  .ite hs.setReg.setReg (.ite hs hs.bootAttempt)

theorem Keeps.prefer {s s' : State} {bank : Nat} {trial : Bool} (hs : Keeps s s') : Keeps s (s'.prefer bank trial) :=
  hs.upd

theorem Keeps.writeStage {s s' : State} {c : Nat} {data : Bytes} (hs : Keeps s s') : Keeps s (s'.writeStage c data).1 :=
  .ite_fst hs (.fst (.upd (.setReg (.ite hs.prefer hs))))

theorem Keeps.raiseSvns {s s' : State} (hs : Keeps s s') : Keeps s s'.raiseSvns := .foldl hs (fun _ _ hu => hu.kdChange)

theorem Keeps.commitFw {s s' : State} (hs : Keeps s s') : Keeps s s'.commitFw :=
  hs.raiseSvns.kdChange.prefer.bump.setReg

theorem Keeps.writeFwCtl {s s' : State} {v : Nat} (hs : Keeps s s') : Keeps s (s'.writeFwCtl v).1 := by
  unfold State.writeFwCtl
  extract_lets
  split
  · exact hs
  · split
    · exact hs.setReg.fst
    · exact .ite_fst hs.prefer.setReg.fst hs
    · exact .ite_fst hs.commitFw.fst hs
    · exact .ite_fst hs.prefer.setReg.fst hs

theorem Keeps.writePrincipal {s s' : State} {slot v : Nat} (hs : Keeps s s') : Keeps s (s'.writePrincipal slot v).1 :=
  .ite_fst hs hs.setReg.fst

theorem Keeps.writeNonce {s s' : State} {v : Nat} (hs : Keeps s s') : Keeps s (s'.writeNonce v).1 :=
  .ite_fst hs hs.upd.fst

theorem Keeps.doReportReady {s s' : State} (hs : Keeps s s') : Keeps s s'.doReportReady := by
  unfold State.doReportReady
  split
  · exact hs
  · exact hs.draw.upd.setReg

end Sys2Proof.Machine
end

section
/-! O54, O55: the operations of Machine/DictWrite keep the queue and the canonical form of memory. -/

namespace Sys2Proof.Machine

theorem Keeps.doneNow {s : State} {r : State × Status} (hs : Keeps s r.1) : Keeps s (doneNow r).1 := hs.fst

theorem Keeps.setUnless {s s' : State} {refused : List (Bool × Status)} {index sub v : Nat} (hs : Keeps s s') :
    Keeps s (s'.setUnless refused index sub v).1 := by
  unfold State.setUnless
  split
  · exact hs
  · exact hs.setReg.fst

theorem Keeps.clearSticky {s s' : State} {o : Origin} {mask : Nat} (hs : Keeps s s') : Keeps s (s'.clearSticky o mask) :=
  .record (.foldl hs.setReg (fun _ _ hu => .ite hu.setReg hu))

theorem Keeps.writeAudit {s s' : State} {o : Origin} {index sub v : Nat} (hs : Keeps s s') :
    Keeps s (s'.writeAudit o index sub v).1 := by
  by_cases hi : index = 0x1100
  · subst hi
    by_cases h1 : sub = 1
    · subst h1
      exact hs.record.fst
    · by_cases h2 : sub = 2
      · subst h2
        rw [State.writeAudit.eq_2]
        split
        next u e =>
          have hu : Keeps s u := .of_fst hs.setUnless e
          exact .fst (.ite hu.checkMirror hu)
        · exact hs.setUnless
      · rw [State.writeAudit.eq_3 _ _ _ _ h1 h2]
        exact hs.clearSticky.fst
  · rw [State.writeAudit.eq_4 _ _ _ _ _ hi (fun h => absurd h hi) fun h => absurd h hi]
    exact hs.setReg.fst

theorem Keeps.writeMemEntry {s s' : State} {index sub v : Nat} (hs : Keeps s s') :
    Keeps s (s'.writeMemEntry index sub v).1 := by
  unfold State.writeMemEntry
  split
  · split
    next u e =>
      have hu : Keeps s u := .of_fst hs.setUnless e
      exact .fst (.ite hu.checkCask hu)
    · exact hs.setUnless
  · exact hs.setReg.fst

theorem Keeps.writeXlate {s s' : State} {index sub v : Nat} (hs : Keeps s s') : Keeps s (s'.writeXlate index sub v).1 :=
  .ite_fst hs.writeRoot.doneNow (.ite_fst hs.writeInvalidate (.ite_fst hs.writeResume.doneNow (.ite_fst
      hs.writeWin.doneNow (.ite_fst hs.writeWinCtl hs.setReg.fst))))

theorem Keeps.writePart {s s' : State} {index sub v : Nat} (hs : Keeps s s') : Keeps s (s'.writePart index sub v).1 :=
  .ite_fst (.ite_fst hs.writeUnits.doneNow hs.writePartCtl) (.ite_fst hs.writeSliceMs.doneNow (.ite_fst
      hs.writeSaveBanks.doneNow hs.writeSegOwner.doneNow))

theorem Keeps.writeFab {s s' : State} {index sub v : Nat} (hs : Keeps s s') : Keeps s (s'.writeFab index sub v).1 := by
  unfold State.writeFab
  extract_lets s1
  have hs1 : Keeps s s1.1 := hs.writePortEnable
  exact .ite_fst hs1.p6Check.fst (.ite_fst hs.writeRoute (.ite_fst hs.setUnless hs.setReg.fst))

theorem Keeps.writeHost {s s' : State} {index sub v : Nat} (hs : Keeps s s') : Keeps s (s'.writeHost index sub v).1 :=
  .ite_fst hs.setReg.fst (.ite_fst hs.writeQp (.ite_fst hs.writeAperture (.ite_fst hs.writeIntake hs.writeRings)))

theorem Keeps.writeWatch {s s' : State} {index sub v : Nat} (hs : Keeps s s') : Keeps s (s'.writeWatch index sub v).1 :=
  .ite_fst hs.writeRegion hs.setReg.fst

theorem Keeps.writeGate {s s' : State} {index sub v : Nat} (hs : Keeps s s') : Keeps s (s'.writeGate index sub v).1 := by
  unfold State.writeGate
  extract_lets
  exact .ite_fst hs.writeGateStep (.ite_fst hs.setUnless (.ite_fst hs.writeGateParent.fst (.ite_fst
      hs.writeGateChildren.fst (.ite_fst hs.setUnless hs.setReg.fst))))

theorem Keeps.spillsNow {s s' : State} {p : Nat} (hs : Keeps s s') : Keeps s (s'.spillsNow p) := .ite hs.spills hs

theorem Keeps.writePour {s s' : State} {index sub v : Nat} (hs : Keeps s s') : Keeps s (s'.writePour index sub v).1 := by
  unfold State.writePour
  extract_lets _ _ s1
  have hs1 : Keeps s s1.1 := hs.setUnless
  split
  · split
    next u e =>
      have hu : Keeps s u := .of_fst hs.setUnless e
      exact .fst (.ite (.checkPour (.ite hu.zeroTable hu)) (.ite hu.zeroTable hu))
    · exact hs.setUnless
  · split
    · exact hs.setUnless
    · split
      · exact hs.writePourStep
      · exact hs.setUnless
      · exact hs.setUnless
      · exact hs.setUnless
      · exact hs.setReg.spillsNow.fst
      · exact .fst (.ite hs1.spillsNow hs1)
      · exact hs.setReg.fst

theorem Keeps.writeLauter {s s' : State} {index sub v : Nat} (hs : Keeps s s') : Keeps s (s'.writeLauter index sub v).1 :=
  .ite_fst hs.writePlanCommit (.ite_fst hs.writeGeneration hs.setReg.fst)

theorem Keeps.writeTrust {s s' : State} {index sub : Nat} {value : Bytes} (hs : Keeps s s') :
    Keeps s (s'.writeTrust index sub value).1 := by
  unfold State.writeTrust
  extract_lets
  exact .ite_fst hs.writeFwCtl (.ite_fst hs.writeStage (.ite_fst hs.writeNonce (.ite_fst hs.writePrincipal
      hs.setReg.fst)))

theorem Keeps.applyWrite {s s' : State} {o : Origin} {index sub : Nat} {value : Bytes} (hs : Keeps s s') :
    Keeps s (s'.applyWrite o index sub value).1 := by
  unfold State.applyWrite
  extract_lets
  exact .ite_fst hs.writeAudit.doneNow (.ite_fst (.ite_fst hs.writeRefCtl (.ite_fst hs.writeOpTarget.doneNow
      hs.setReg.fst)) (.ite_fst hs.writeMemEntry.doneNow (.ite_fst hs.writeXlate (.ite_fst hs.writePart (.ite_fst
          hs.writeFab.doneNow (.ite_fst hs.writeHost.doneNow (.ite_fst hs.writeWatch.doneNow (.ite_fst (.ite_fst
              hs.writeKilnRequest.doneNow hs.setReg.fst) (.ite_fst hs.writeTrust.doneNow (.ite_fst
                  hs.writeAudit.doneNow (.ite_fst hs.writeTrust.doneNow (.ite_fst hs.writePour.doneNow (.ite_fst
                      hs.setUnless.doneNow (.ite_fst hs.setReg.fst (.ite_fst hs.writeLauter.doneNow (.ite_fst
                          hs.writeGate.doneNow (.ite_fst hs.writePour.doneNow hs.writeLauter.doneNow)))))))))))))))))

theorem Keeps.writeNote {s s' : State} {o : Origin} {index sub old new : Nat} {st : Status} (hs : Keeps s s') :
    Keeps s (s'.writeNote o index sub old new st) := hs.record

theorem Keeps.refuseWrite {s s' : State} {o : Origin} {index sub old new : Nat} {sts : List Status} (hs : Keeps s s') :
    Keeps s (s'.refuseWrite o index sub old new sts) :=
  .ite (.foldl hs.writeNote (fun _ _ hu => hu.setSticky)) hs.writeNote.beside

theorem Keeps.writeEntry {s s' : State} {o : Origin} {index sub : Nat} {value : Bytes} {who : Replier} (hs : Keeps s s') :
    Keeps s (s'.writeEntry o index sub value who).1 := by
  unfold State.writeEntry
  extract_lets
  split
  · split
    · exact hs.writeNote.writeBoot.fst
    · split
      next e => exact .fst (.writeNote (.of_fst hs.applyWrite e))
      next e => exact .fst (.upd (.of_fst hs.applyWrite e))
  · exact hs.refuseWrite.fst

theorem Keeps.afterWrite {s s' : State} {index sub : Nat} {st : Option Status} (hs : Keeps s s') :
    Keeps s (s'.afterWrite index sub st) := .ite hs.closeSessions hs

theorem Keeps.dictWrite {s s' : State} {o : Origin} {index sub : Nat} {value : Bytes} (hs : Keeps s s') :
    Keeps s (s'.dictWrite o index sub value) := .ite hs hs.writeEntry.afterWrite

end Sys2Proof.Machine
end

section
/-! O54, O55: the operations of Machine/Debug keep the queue and the canonical form of memory. -/

namespace Sys2Proof.Machine

theorem Keeps.modDbg {s s' : State} {f : Debug → Debug} (hs : Keeps s s') : Keeps s (s'.modDbg f) := hs.upd

theorem Keeps.tapSelect {s s' : State} {code : Nat} {out : List Bool} (hs : Keeps s s') :
    Keeps s (s'.tapSelect code out) := .ite hs.modDbg.emit hs

theorem Keeps.doIdcode {s s' : State} (hs : Keeps s s') : Keeps s s'.doIdcode := hs.tapSelect

theorem Keeps.doBoundary {s s' : State} {code : Nat} (hs : Keeps s s') : Keeps s (s'.doBoundary code) := hs.tapSelect

theorem Keeps.doBypass {s s' : State} (hs : Keeps s s') : Keeps s s'.doBypass := hs.tapSelect

theorem Keeps.doDbgXfer {s s' : State} (hs : Keeps s s') : Keeps s s'.doDbgXfer := .ite hs.modDbg hs

theorem Keeps.doTapReset {s s' : State} (hs : Keeps s s') : Keeps s s'.doTapReset := .ite hs.endUnlock.modDbg hs

theorem Keeps.doDebugIdle {s s' : State} (hs : Keeps s s') : Keeps s s'.doDebugIdle := hs.endUnlock

theorem Keeps.dbgScan {s s' : State} (hs : Keeps s s') : Keeps s s'.dbgScan := hs.emit

theorem Keeps.dbgRequest {s s' : State} {op seq arg scope : Nat} {bad : Bool} {body : State → State} (hs : Keeps s s')
    (hbody : ∀ u, Keeps s u → Keeps s (body u)) :
    Keeps s (s'.dbgRequest op seq arg scope bad body) := by
  unfold State.dbgRequest
  extract_lets s1
  have hs1 : Keeps s s1 := hs.dbgScan
  split
  · exact hs
  · split
    · exact hs1.modDbg.dbgNote
    · split
      · exact hbody _ hs1
      · exact hs1.dbgReply.dbgNote.beside

theorem Keeps.dbgDone {s s' : State} {op seq arg : Nat} {st : Status} {data tag : Nat} (hs : Keeps s s') :
    Keeps s (s'.dbgDone op seq arg st data tag) := hs.dbgReply.dbgNote

theorem Keeps.dbgWait {s s' : State} {seq : Nat} {w : DbgWait} (hs : Keeps s s') : Keeps s (s'.dbgWait seq w) := hs.modDbg

theorem Keeps.doDbgNop {s s' : State} (hs : Keeps s s') : Keeps s s'.doDbgNop := .ite hs.dbgScan hs

theorem Keeps.doChallenge {s s' : State} {seq arg data : Nat} (hs : Keeps s s') :
    Keeps s (s'.doChallenge seq arg data) := by
  unfold State.doChallenge
  extract_lets
  exact .dbgRequest hs (fun _ hu => .ite (.dbgNote (.dbgReply (.ite hu.draw.modDbg hu))) (.flushMerge (.dbgReply
      (.ite hu.draw.modDbg hu))))

theorem Keeps.unlockFails {s s' : State} (hs : Keeps s s') : Keeps s s'.unlockFails :=
  .ite hs.setReg.bump.modDbg hs.setReg.bump

theorem Keeps.doRespond {s s' : State} {seq arg data : Nat} (hs : Keeps s s') : Keeps s (s'.doRespond seq arg data) := by
  unfold State.doRespond
  extract_lets
  exact .dbgRequest hs (fun _ hu => .ite hu.modDbg.dbgDone (.ite hu.modDbg.modDbg.setReg.bump.dbgDone
      hu.modDbg.modDbg.unlockFails.dbgDone))

theorem Keeps.doDbgLock {s s' : State} {seq arg data : Nat} (hs : Keeps s s') : Keeps s (s'.doDbgLock seq arg data) :=
  .dbgRequest hs (fun _ hu => .ite hu.endUnlock.dbgReply hu.dbgDone)

theorem Keeps.modDbgCtx {s s' : State} {n h : Nat} {f : Ctx → Ctx} (hs : Keeps s s') : Keeps s (s'.modDbgCtx n h f) := by
  unfold State.modDbgCtx
  split
  · exact hs.upd
  · exact hs.modCtx

theorem Keeps.haltCtx {s s' : State} {seq arg n h : Nat} (hs : Keeps s s') : Keeps s (s'.haltCtx seq arg n h) :=
  .ite hs.dbgDone (.ite hs.modDbgCtx.dbgDone hs.modDbgCtx.dbgWait)

theorem Keeps.dbgOnCtx {s s' : State} {op seq arg data : Nat} {bad : Bool} {body : State → State} (hs : Keeps s s')
    (hbody : ∀ u, Keeps s u → Keeps s (body u)) :
    Keeps s (s'.dbgOnCtx op seq arg data bad body) :=
  .dbgRequest hs (fun _ hu => by
    split
    · exact hu.dbgDone
    · exact hbody _ hu)

theorem Keeps.doHalt {s s' : State} {seq arg data : Nat} (hs : Keeps s s') : Keeps s (s'.doHalt seq arg data) :=
  .dbgOnCtx hs (fun _ hu => hu.haltCtx)

theorem Keeps.doDbgResume {s s' : State} {seq arg data : Nat} (hs : Keeps s s') : Keeps s (s'.doDbgResume seq arg data) :=
  .dbgOnCtx hs (fun _ hu => hu.modDbgCtx.requestWake.dbgDone)

theorem Keeps.doStep {s s' : State} {seq arg data : Nat} (hs : Keeps s s') : Keeps s (s'.doStep seq arg data) :=
  .dbgOnCtx hs (fun _ hu => .ite hu.dbgDone hu.modDbgCtx.requestWake.dbgWait)

theorem Keeps.doHaltEffect {s s' : State} {n h : Nat} (hs : Keeps s s') : Keeps s (s'.doHaltEffect n h) := by
  unfold State.doHaltEffect
  extract_lets _ _ s1
  have hs1 : Keeps s s1 := hs.setCtx
  split
  · split
    · exact .ite hs1.dbgDone hs1
    · exact .ite hs1.dbgDone hs1
    · exact hs1
  · exact hs

theorem Keeps.doCtxRead {s s' : State} {seq arg data : Nat} (hs : Keeps s s') : Keeps s (s'.doCtxRead seq arg data) :=
  .dbgOnCtx hs (fun _ hu => hu.dbgDone)

theorem Keeps.doBreakSet {s s' : State} {seq arg data : Nat} (hs : Keeps s s') : Keeps s (s'.doBreakSet seq arg data) :=
  .dbgRequest hs (fun _ hu => hu.setReg.dbgDone)

theorem Keeps.doBreakClear {s s' : State} {seq arg data : Nat} (hs : Keeps s s') :
    Keeps s (s'.doBreakClear seq arg data) := .dbgRequest hs (fun _ hu => hu.setReg.dbgDone)

theorem Keeps.memLocal {s s' : State} {seq : Nat} {write : Bool} {a data : Nat} (hs : Keeps s s') :
    Keeps s (s'.memLocal seq write a data) := .ite hs.writeLocal.memEnds hs.readLocal.memEnds

theorem Keeps.memOp {s s' : State} {seq : Nat} {write : Bool} {a data : Nat} (hs : Keeps s s') :
    Keeps s (s'.memOp seq write a data) := by
  unfold State.memOp
  split
  · split
    · exact .ite hs.memEnds (.ite hs.memEnds hs.dbgWait.qpSend)
    · exact hs.memEnds
  · exact hs.memEnds
  · exact hs.memEnds
  · exact .ite hs.memEnds (.ite hs.dbgWait hs.memLocal)

theorem Keeps.dbgRetry {s s' : State} (hs : Keeps s s') : Keeps s s'.dbgRetry := by
  unfold State.dbgRetry
  split
  · split
    · exact hs
    · exact .ite hs hs.memOp
  · exact hs

theorem Keeps.doMemRead {s s' : State} {seq arg data : Nat} (hs : Keeps s s') : Keeps s (s'.doMemRead seq arg data) :=
  .dbgRequest hs (fun _ hu => hu.memOp)

theorem Keeps.doMemWrite {s s' : State} {seq arg data : Nat} (hs : Keeps s s') : Keeps s (s'.doMemWrite seq arg data) :=
  .dbgRequest hs (fun _ hu => hu.memOp)

theorem Keeps.doDictRead {s s' : State} {seq arg data : Nat} (hs : Keeps s s') : Keeps s (s'.doDictRead seq arg data) :=
  .dbgRequest hs (fun _ hu => hu.dbgReply.dbgMerge)

theorem Keeps.doDictStage {s s' : State} {seq arg data : Nat} (hs : Keeps s s') : Keeps s (s'.doDictStage seq arg data) :=
  .dbgRequest hs (fun _ hu => hu.modDbg.dbgDone)

theorem Keeps.doDictWrite {s s' : State} {seq arg data : Nat} (hs : Keeps s s') :
    Keeps s (s'.doDictWrite seq arg data) := by
  unfold State.doDictWrite
  refine .dbgRequest hs fun _ hu => ?_
  extract_lets
  split
  · exact hu.dbgNote.writeEntry
  · split
    next e => exact .dbgDone (.afterWrite (.of_fst hu.writeEntry e))
    next e => exact .dbgWait (.of_fst hu.writeEntry e)

end Sys2Proof.Machine
end

section
/-! O54, O55: the operations of Machine/Caddy keep the queue and the canonical form of memory. -/

namespace Sys2Proof.Machine

theorem Keeps.modSession {s s' : State} {id : Nat} {f : Session → Session} (hs : Keeps s s') :
    Keeps s (s'.modSession id f) := hs.upd

theorem Keeps.macDrop {s s' : State} (hs : Keeps s s') : Keeps s s'.macDrop := hs.bump

theorem Keeps.roomForHello {s s' : State} (hs : Keeps s s') : Keeps s s'.roomForHello := by
  unfold State.roomForHello
  dsimp only
  split
  · exact .ite hs.upd hs
  · exact hs

theorem Keeps.deviceSign {s s' : State} {m : Bytes} (hs : Keeps s s') : Keeps s (s'.deviceSign m).2 := hs.draw.snd

theorem Keeps.caddyNote {s s' : State} {o : Origin} {st : Status} {index sub : Nat} (hs : Keeps s s') :
    Keeps s (s'.caddyNote o st index sub) := .ite hs.record hs

theorem Keeps.doHello {s s' : State} {t : Tuple} {m : Bytes} (hs : Keeps s s') : Keeps s (s'.doHello t m) := by
  unfold State.doHello
  extract_lets s1 s2
  have hs1 : Keeps s s1 := hs.rxFrames
  have hs2 : Keeps s s2 := hs1.roomForHello
  refine .ite hs (.ite hs1 (.ite hs1.macDrop (.ite hs1.caddyNote.emit ?_)))
  split
  next u e =>
    have hu : Keeps s u := .of_snd hs2.draw e
    extract_lets
    split
    next v ev =>
      have hv : Keeps s v := .of_snd hu.draw ev
      extract_lets
      split
      next w ew =>
        have hw : Keeps s w := .of_snd hv.deviceSign ew
        exact hw.upd.emit

theorem Keeps.openFailed {s s' : State} {x : Session} {slot seq : Nat} (hs : Keeps s s') :
    Keeps s (s'.openFailed x slot seq) := hs.upd.bump.sessionNote.emit

theorem Keeps.openDone {s s' : State} {x : Session} {slot flags : Nat} (hs : Keeps s s') :
    Keeps s (s'.openDone x slot flags) := hs.draw.draw.modSession.sessionNote.upd.setReg.emit

theorem Keeps.doOpen {s s' : State} {t : Tuple} {m : Bytes} (hs : Keeps s s') : Keeps s (s'.doOpen t m) := by
  unfold State.doOpen
  extract_lets s1
  have hs1 : Keeps s s1 := hs.rxFrames
  split
  · exact hs
  · split
    · exact hs1.macDrop
    · split
      · exact hs1.macDrop
      · split
        · exact .ite hs1.emit hs1.macDrop
        · split
          · exact hs1.caddyNote.emit
          · exact .ite hs1.openDone hs1.openFailed

theorem Keeps.caddyReply {s s' : State} {x : Session} {ty seq : Nat} {st : Status} {payload : Bytes} (hs : Keeps s s') :
    Keeps s (s'.caddyReply x ty seq st payload) := hs.modSession.sendCaddy

theorem Keeps.caddyRequest {s s' : State} {ty : Nat} {t : Tuple} {m : Bytes} {bad : Bool} {body : State → Session →
    State} (hs : Keeps s s') (hbody : ∀ u x1, Keeps s u → Keeps s (body u x1)) :
    Keeps s (s'.caddyRequest ty t m bad body) := by
  unfold State.caddyRequest
  extract_lets s1
  have hs1 : Keeps s s1 := hs.rxFrames
  split
  · exact hs
  · split
    · exact hs1.macDrop
    · exact .ite (.ite hs1 hs1.emit) (.ite (.ite hs1.caddyNote.caddyReply (hbody _ _ hs1)) hs1.caddyNote.emit)

theorem Keeps.doClose {s s' : State} {t : Tuple} {m : Bytes} (hs : Keeps s s') : Keeps s (s'.doClose t m) :=
  .caddyRequest hs (fun _ _ hu => hu.caddyReply.closeSessions)

theorem Keeps.doCaddyRead {s s' : State} {t : Tuple} {m : Bytes} (hs : Keeps s s') : Keeps s (s'.doCaddyRead t m) :=
  .caddyRequest hs (fun _ _ hu => .caddyReply (.foldl hu (fun _ _ hv => hv.caddyNote)))

theorem Keeps.writeReply {s s' : State} {id seq : Nat} {done : Bytes} (hs : Keeps s s') :
    Keeps s (s'.writeReply id seq done) := by
  unfold State.writeReply
  extract_lets
  split
  · exact hs
  · exact .foldl hs.caddyReply (fun _ _ hu => hu.afterWrite)

theorem Keeps.runWrites {s s' : State} {x : Session} {seq : Nat} {done : Bytes} {a : Nat} {b : Bytes} (hs : Keeps s s') :
    Keeps s (s'.runWrites x seq done a b) := by
  induction a generalizing s' done b with
  | zero => exact hs.writeReply
  | succ a ih =>
    unfold State.runWrites
    split
    · exact hs.writeReply
    · extract_lets
      split
      next e => exact ih (.of_fst hs.writeEntry e)
      next e => exact .writeReply (.of_fst hs.writeEntry e)
      next e => exact .of_fst hs.writeEntry e

theorem Keeps.executing {s s' : State} {x : Session} {seq : Nat} (hs : Keeps s s') : Keeps s (s'.executing x seq) :=
  hs.modSession

theorem Keeps.doCaddyWrite {s s' : State} {t : Tuple} {m : Bytes} (hs : Keeps s s') : Keeps s (s'.doCaddyWrite t m) :=
  .caddyRequest hs (fun _ _ hu => hu.executing.runWrites)

theorem Keeps.blockRefused {s s' : State} {x : Session} {m : Bytes} {st : Status} (hs : Keeps s s') :
    Keeps s (s'.blockRefused x m st) := hs.caddyNote.caddyReply

theorem Keeps.doReadBlock {s s' : State} {t : Tuple} {m : Bytes} (hs : Keeps s s') : Keeps s (s'.doReadBlock t m) := by
  unfold State.doReadBlock
  refine .caddyRequest hs fun _ _ hu => ?_
  split
  · split
    · exact hu.modSession.caddyReply
    · exact hu.blockRefused
  · split
    · exact .ite hu.caddyReply hu.blockRefused
    · exact hu.blockRefused

theorem Keeps.blockReply {s s' : State} {id seq index sub : Nat} {st : Status} (hs : Keeps s s') :
    Keeps s (s'.blockReply id seq index sub st) := by
  unfold State.blockReply
  split
  · exact hs
  · exact hs.caddyReply.afterWrite

theorem Keeps.doWriteBlock {s s' : State} {t : Tuple} {m : Bytes} (hs : Keeps s s') :
    Keeps s (s'.doWriteBlock t m) := by
  unfold State.doWriteBlock
  refine .caddyRequest hs fun _ _ hu => ?_
  extract_lets
  split
  · exact hu.modSession.caddyNote.caddyReply
  · split
    · exact hu.modSession.caddyReply
    · split
      next e => exact .blockReply (.of_fst hu.executing.modSession.writeEntry e)
      next e => exact .of_fst hu.executing.modSession.writeEntry e

theorem Keeps.doNotify {s s' : State} {t : Tuple} {m : Bytes} (hs : Keeps s s') : Keeps s (s'.doNotify t m) := by
  unfold State.doNotify
  extract_lets s1
  have hs1 : Keeps s s1 := hs.rxFrames
  split
  · exact .caddyRequest hs (fun _ _ hu => hu)
  · split
    · exact hs
    · split
      · exact hs1.macDrop
      · exact .ite hs1.modSession.upd hs1

theorem Keeps.doNotifyResend {s s' : State} {id : Nat} (hs : Keeps s s') : Keeps s (s'.doNotifyResend id) := by
  unfold State.doNotifyResend
  split
  · exact hs
  · exact .ite hs (.ite hs.modSession.bump hs.modSession.sendCaddy)

theorem Keeps.doIdleExpiry {s s' : State} {id : Nat} (hs : Keeps s s') : Keeps s (s'.doIdleExpiry id) :=
  .ite hs.closeSessions hs

theorem Keeps.doHalfOpenExpiry {s s' : State} {id : Nat} (hs : Keeps s s') : Keeps s (s'.doHalfOpenExpiry id) := hs.upd

theorem Keeps.endWait {s s' : State} {w : Waiting} {st : Status} (hs : Keeps s s') : Keeps s (s'.endWait w st) := by
  unfold State.endWait
  extract_lets s1
  have hs1 : Keeps s s1 := hs.writeNote
  split
  · exact hs.respond
  · split
    · extract_lets
      split
      · exact hs1
      · exact .ite hs1.runWrites hs1.writeReply
    · exact hs1.blockReply
    · split
      · exact .ite hs1.dbgDone hs1
      · exact hs1
    · exact hs1

theorem Keeps.finishWrite {s s' : State} {what : WaitOn} {st : Status} (hs : Keeps s s') :
    Keeps s (s'.finishWrite what st) := .foldl hs.upd (fun _ _ hu => hu.endWait)

end Sys2Proof.Machine
end

section
/-! O54, O55: the operations of Machine/Settle keep the queue and the canonical form of memory. -/

namespace Sys2Proof.Machine

theorem Keeps.reread {s s' : State} {n : Nat} (hs : Keeps s s') : Keeps s (s'.reread n) := by
  unfold State.reread
  refine .foldl hs fun _ _ hu => ?_
  split
  next e => exact .of_fst hu.readResident e
  next e => exact .stopStream (.of_fst hu.readResident e)

theorem Keeps.runEnded {s s' : State} {n h : Nat} {x : Ctx} {st : Status} (hs : Keeps s s') :
    Keeps s (s'.runEnded n h x st) := hs.overDone.mashRunEnded.shadowRunEnded.retireCheck.stir

theorem Keeps.handle {s s' : State} {a : Event} (hs : Keeps s s') : Keeps s (s'.handle a) := by
  unfold State.handle
  split
  · exact hs.runEnded
  · exact hs.localVote
  · exact hs.failVotes
  · exact hs.doRetire
  · exact hs.resumeCore
  · exact hs.reread
  · exact hs.finishWrite
  · exact hs.advanceDissolve.schedule

theorem Keeps.settleN {s s' : State} {a : Nat} (hs : Keeps s s') : Keeps s (s'.settleN a) := by
  induction a generalizing s' with
  | zero => exact hs
  | succ a ih =>
    unfold State.settleN
    split
    · exact hs
    · exact ih hs.upd.handle

theorem Keeps.settle {s s' : State} (hs : Keeps s s') : Keeps s s'.settle := hs.settleN

end Sys2Proof.Machine
end

section
/-! O54, O55: no command changes the queue, and every step keeps memory canonical. -/

namespace Sys2Proof.Machine

/-- The state that an outcome goes on with, if any, keeps queue and memory. -/
def KeepsOut (s : State) (o : Out) : Prop := ∀ t, o = .next t → Keeps s t

theorem KeepsOut.next {s t : State} (h : Keeps s t) : KeepsOut s (.next t) := by
  rintro _ ⟨⟩
  exact h

theorem KeepsOut.doInput {s s' : State} {mv ma : Int} (hs : Keeps s s') : KeepsOut s (s'.doInput mv ma) := by
  unfold State.doInput
  split
  · rintro t ⟨⟩
  · extract_lets p over4 over44 vs as_ s1 hard r s2
    have hs1 : Keeps s s1 := hs.modPower
    have hr : Keeps s r.1 := .ite_fst hs1 hs1.modPower.average
    have hs2 : Keeps s s2 := .ite hr.modPower hr
    split
    · exact .next hs2.quiesce
    · exact .next hs2

theorem KeepsOut.execInputSample {s : State} (mv ma : Int) : KeepsOut s (execInputSample mv ma s) := by
  unfold Machine.execInputSample
  split
  next u e => exact .next (KeepsOut.doInput (.refl s) u e).settle
  next o _ => exact .doInput (.refl s)

/-- No command changes the queue, and each keeps the form of memory. -/
theorem keepsOut_exec (c : Instr) (s : State) : KeepsOut s (exec c s) :=
  have hs := Keeps.refl s
  match c with
  | .seta _ _ => .next hs.doPlain.settle
  | .adda _ _ => .next hs.doPlain.settle
  | .seti _ _ => .next hs.doPlain.settle
  | .loop _ _ => .next hs.doPlain.settle
  | .endl _ _ => .next hs.doPlain.settle
  | .load _ _ => .next hs.doLoad.settle
  | .store _ _ => .next hs.doStore.settle
  | .gather _ _ => .next hs.doGather.settle
  | .scatter _ _ => .next hs.doScatter.settle
  | .emit _ _ => .next hs.doEmit.settle
  | .take _ _ => .next hs.doTake.settle
  | .free _ _ => .next hs.doFree.settle
  | .gristWait _ _ => .next hs.doWait.settle
  | .arrive _ _ => .next hs.doArrive.settle
  | .endStream _ _ => .next hs.doEnd.settle
  | .streamRequestComplete _ _ => .next hs.doRequestComplete.settle
  | .probeResponse _ _ => .next hs.doProbeResponse.settle
  | .barrierConditionHolds _ _ => .next hs.doBarrierHolds.settle
  | .kStepEnter _ => .next hs.doKStep.settle
  | .arrayContinue _ => .next hs.doArrayContinue.settle
  | .spScrubVisit _ => .next hs.doSpScrub.settle
  | .tunScrubVisit _ _ => .next hs.doTunScrub.settle
  | .maintenanceRead _ _ _ => .next hs.doMaintRead.settle
  | .loadRequest _ _ => .next hs.doLoadRequest.settle
  | .recipeHeaderFetched _ _ => .next hs.doHeader.retireCheck.settle
  | .recipeImageFetched _ _ => .next hs.doImage.retireCheck.settle
  | .start _ _ => .next hs.doStart.settle
  | .abort _ _ => .next hs.doAbort.settle
  | .patchRequest _ _ => .next hs.doPatch.settle
  | .unload _ _ => .next hs.doUnload.settle
  | .commandComplete _ _ => .next hs.doCommandComplete.settle
  | .preemptionTaken _ _ => .next hs.doPreempted.settle
  | .matmul _ _ => .next hs.product.settle
  | .matmulT _ _ => .next hs.product.settle
  | .gradW _ _ => .next hs.product.settle
  | .elemwise _ _ => .next hs.doElemwise.settle
  | .rownormFwd _ _ => .next hs.doRownormFwd.settle
  | .rownormBwd _ _ => .next hs.doRownormBwd.settle
  | .softmaxFwd _ _ => .next hs.doSoftmaxFwd.settle
  | .softmaxBwd _ _ => .next hs.doSoftmaxBwd.settle
  | .attnBlockFwd _ _ => .next hs.doAttnFwd.settle
  | .attnBlockBwd _ _ => .next hs.doAttnBwd.settle
  | .rope _ _ => .next hs.doRope.settle
  | .kvAppend _ _ => .next hs.doKvAppend.settle
  | .maskpack _ _ => .next hs.doMaskpack.settle
  | .rngMask _ _ => .next hs.doRngMask.settle
  | .castMx _ _ => .next hs.doCastMx.settle
  | .gatherRows _ _ => .next hs.doGatherRows.settle
  | .scatterAdd _ _ => .next hs.doScatterAdd.settle
  | .optUpdate _ _ => .next hs.doOptUpdate.settle
  | .gatedUpdateProceed _ _ => .next hs.doGatedUpdate.settle
  | .seal _ _ => .next hs.doSeal.settle
  | .checkSeal _ _ => .next hs.doCheckSeal.settle
  | .checkpoint _ _ => .next hs.doCheckpoint.settle
  | .reducePush _ _ => .next hs.doReducePush.settle
  | .layerDone _ _ => .next hs.doLayerDone.settle
  | .barrierCmd _ _ => .next hs.doBarrier.settle
  | .waitCmd _ _ => .next hs.doWaitCmd.settle
  | .fill _ _ => .next hs.doFill.settle
  | .copy _ _ => .next hs.doCopy.settle
  | .patchCmd _ _ => .next hs.doPatchCmd.settle
  | .report _ _ => .next hs.doReport.settle
  | .arbitrationStart _ _ _ => .next hs.doArbitration.settle
  | .gateStepWrite _ _ _ => .next hs.dictWrite.settle
  | .gateTimeout _ => .next hs.doGateTimeout.settle
  | .pourStepWrite _ _ _ => .next hs.dictWrite.settle
  | .pourTableBaseWrite _ _ => .next hs.dictWrite.settle
  | .flushComplete _ => .next hs.doFlushComplete.settle
  | .pourRelease _ => .next hs.doPourRelease.settle
  | .moveComplete _ => .next hs.doMoveComplete.settle
  | .planCommit _ _ => .next hs.dictWrite.settle
  | .accum _ => .next hs.doAccum.settle
  | .accumRetry _ => .next hs.doAccumRetry.settle
  | .lauterBlockTimeout _ _ => .next hs.doBlockTimeout.settle
  | .lauterGenerationWrite _ _ => .next hs.dictWrite.settle
  | .refreshPoll _ _ _ => .next hs.doRefreshPoll.settle
  | .wckOscillator _ => .next hs
  | .lpddrScrubVisit _ _ => .next hs.doLpScrub.settle
  | .memoryReadComplete _ _ _ => .next hs.doMemoryRead.settle
  | .generationIncrement _ => .next hs.doIncrement.settle
  | .generationProbe _ _ => .next hs.doProbe.settle
  | .lpddrTrainingDone _ _ => .next hs.doTraining.settle
  | .zeroFillDone => .next hs.doZeroFill.settle
  | .walkComplete _ _ => .next hs.doWalk.settle
  | .invalidate _ _ _ _ => .next hs.dictWrite.settle
  | .invalidateComplete _ _ => .next hs.finishWrite.settle
  | .retry _ _ _ _ => .next hs.dictWrite.settle
  | .fail _ _ _ _ => .next hs.dictWrite.settle
  | .windowOpen _ _ => .next hs.dictWrite.settle
  | .windowClose _ _ => .next hs.dictWrite.settle
  | .windowCloseComplete _ => .next hs.doWindowClosed.settle
  | .flit _ _ _ => .next hs.doFlit.settle
  | .retryTimer _ => .next hs.doRetryTimer.settle
  | .mapFrame _ _ => .next hs.doMapFrame.settle
  | .configFrame _ _ => .next hs.doConfigFrame.p6Check.settle
  | .doneFrame _ _ _ => .next hs.doDoneFrame.p6Check.settle
  | .lightDetected _ _ => .next hs.doLight.settle
  | .lockComplete _ _ => .next hs.doLock.settle
  | .mapPauseExpiry _ => .next hs.doPauseExpiry.settle
  | .portStateTimeout _ => .next hs.doPortTimeout.settle
  | .laneFail _ _ => .next hs.doLaneFail.settle
  | .lossOfLight _ => .next hs.doDark.settle
  | .portDisable _ _ => .next hs.dictWrite.settle
  | .portEnable _ _ => .next hs.dictWrite.settle
  | .portForceRepair _ _ => .next hs.dictWrite.settle
  | .write _ => .next hs.doTxnWrite.settle
  | .read _ => .next hs.doTxnRead.settle
  | .arriveTransaction _ => .next hs.doTxnArrive.settle
  | .gateVote _ => .next hs.doTxnVote.settle
  | .winOpen _ => .next hs.doTxnOpen.settle
  | .winClose _ => .next hs.doTxnClose.settle
  | .epochQuery _ => .next hs.doTxnEpoch.settle
  | .resp _ => .next hs.doTxnResp.settle
  | .readData _ => .next hs.doTxnResp.settle
  | .transactionAbandon _ _ => .next hs.doAbandon.settle
  | .routeWrite _ _ _ => .next hs.dictWrite.settle
  | .rerouteHoldExpiry _ => .next hs.doHoldExpiry.settle
  | .epochCacheExpiry _ => .next hs.doEpochExpiry.settle
  | .hostLinkUp _ => .next hs.doLinkUp.settle
  | .hostLinkDown _ => .next hs.doLinkDown.settle
  | .pfcFrame _ _ => .next hs.doPfc.settle
  | .pfcRefresh _ => .next hs.doPfcRefresh.settle
  | .cnp _ _ => .next hs.doCnp.settle
  | .cnpRateRecovery _ _ => .next hs.doCnpRecovery.settle
  | .send _ _ _ _ => .next hs.doSend.settle
  | .rdmaWrite _ _ _ _ _ _ => .next hs.doRdmaWrite.settle
  | .rdmaRead _ _ _ _ _ _ => .next hs.doRdmaRead.settle
  | .rdmaReadResponse _ _ _ => .next hs.doReadResponse.settle
  | .ack _ _ => .next hs.doAck.settle
  | .nak _ _ => .next hs.doNak.settle
  | .rnrNak _ _ => .next hs.doRnrNak.settle
  | .qpRetransmitTimeout _ _ => .next hs.doQpTimeout.settle
  | .arpRequest _ _ _ _ => .next hs.doArp.settle
  | .neighbourSolicitation _ _ _ _ => .next hs.doNeighbour.settle
  | .icmpEcho _ _ _ _ _ => .next hs.doEcho.settle
  | .qpValidSet _ _ _ _ => .next hs.dictWrite.settle
  | .qpReset _ _ _ _ => .next hs.dictWrite.settle
  | .commitDoorbell _ _ _ _ _ => .next hs.doCommitDoorbell.settle
  | .completionTailWrite _ _ => .next hs.doTail.settle
  | .build _ _ => .next hs.dictWrite.settle
  | .dissolve _ _ => .next hs.dictWrite.settle
  | .segmentAllocate _ _ _ _ => .next hs.dictWrite.settle
  | .segmentFree _ _ _ => .next hs.dictWrite.settle
  | .sliceMsWrite _ _ _ _ => .next hs.dictWrite.settle
  | .sliceEnd _ => .next hs.doSliceEnd.settle
  | .switchComplete _ => .next hs.doSwitchComplete.settle
  | .shadowStart _ _ => .next hs.doShadowStart.settle
  | .shadowComplete _ _ => .next hs.doShadowComplete.settle
  | .shadowWindowExpiry _ _ => .next hs.doShadowExpiry.settle
  | .kilnDue _ _ _ => .next hs.doKilnDue.settle
  | .kilnForce _ _ => .next hs.doKilnForce.settle
  | .kilnSlice _ _ => .next hs.doKilnSlice.settle
  | .kilnSliceDone _ _ _ => .next hs.doKilnSliceDone.opUpdate.p5Check.dbgRetry.settle
  | .segmentTest _ _ _ => .next hs.doSegmentTest.p5Check.dbgRetry.settle
  | .segmentTestRetry _ _ => .next hs.doSegmentRetry.dbgRetry.settle
  | .dieCheck _ _ _ => .next hs.doDieCheck.p5Check.settle
  | .laneLoopback _ _ _ => .next hs.doLoopback.p5Check.settle
  | .kilnRequestCore _ _ _ _ => .next hs.dictWrite.settle
  | .kilnRequestSegment _ _ _ => .next hs.dictWrite.settle
  | .kilnRequestDieCheck _ _ => .next hs.dictWrite.settle
  | .kilnRequestPort _ _ _ => .next hs.dictWrite.settle
  | .refLoss => .next hs.doRefLoss.settle
  | .candidateCountDone _ _ => .next hs.doCandidate.settle
  | .pllStable _ => .next hs.doPllStable.settle
  | .pllLockTimeout _ => .next hs.doPllTimeout.settle
  | .holdoverExpiry => .next hs.doHoldover.settle
  | .refCtlWrite _ _ => .next hs.dictWrite.settle
  | .opTargetWrite _ _ _ => .next hs.dictWrite.settle
  | .voltageSettled _ => .next hs.doSettled.settle
  | .governorWindow => .next hs.doWindow.settle
  | .thermalSample _ _ => .next hs.doThermal.settle
  | .groupGate _ _ => .next hs.doGate.settle
  | .heartbeat => .next hs.doHeartbeat.settle
  | .kdTakeover => .next hs.doTakeover.settle
  | .modReset => .next hs.doModReset.settle
  | .stbyEnLow => .next hs.doStbyLow.settle
  | .standbyApplied => .next hs.doStandbyOn.settle
  | .standbyLoss => .next hs.doStandbyLoss.settle
  | .bootReset _ => .next hs.dictWrite.settle
  | .bootShutdown _ => .next hs.dictWrite.settle
  | .phaseTimeout => .next hs.doPhaseTimeout.settle
  | .dieRampDone _ => .next hs.doRampDone.settle
  | .dieRampTimeout _ => .next hs.doRampTimeout.settle
  | .firmwareVerifyDone _ => .next hs.doVerifyDone.settle
  | .fwStageWrite _ _ _ => .next hs.dictWrite.settle
  | .fwVerify _ => .next hs.dictWrite.settle
  | .fwArm _ => .next hs.dictWrite.settle
  | .fwCommit _ => .next hs.dictWrite.settle
  | .fwRevert _ => .next hs.dictWrite.settle
  | .attestNonceWrite _ _ => .next hs.dictWrite.settle
  | .attestReportReady => .next hs.doReportReady.settle
  | .principalWrite _ _ _ => .next hs.dictWrite.settle
  | .idcode => .next hs.doIdcode.settle
  | .extest => .next hs.doBoundary.settle
  | .samplePreload => .next hs.doBoundary.settle
  | .bypass => .next hs.doBypass.settle
  | .tapReset => .next hs.doTapReset.settle
  | .dbgNop _ => .next hs.doDbgNop.settle
  | .challenge _ _ _ => .next hs.doChallenge.settle
  | .respond _ _ _ => .next hs.doRespond.settle
  | .lock _ _ _ => .next hs.doDbgLock.settle
  | .halt _ _ _ => .next hs.doHalt.settle
  | .haltEffect _ _ => .next hs.doHaltEffect.settle
  | .resume _ _ _ => .next hs.doDbgResume.settle
  | .stepCtx _ _ _ => .next hs.doStep.settle
  | .ctxRead _ _ _ => .next hs.doCtxRead.settle
  | .breakSet _ _ _ => .next hs.doBreakSet.settle
  | .breakClear _ _ _ => .next hs.doBreakClear.settle
  | .memRead _ _ _ => .next hs.doMemRead.settle
  | .memWrite _ _ _ => .next hs.doMemWrite.settle
  | .dictRead _ _ _ => .next hs.doDictRead.settle
  | .dictStage _ _ _ => .next hs.doDictStage.settle
  | .dictWrite _ _ _ => .next hs.doDictWrite.settle
  | .debugIdleExpiry => .next hs.doDebugIdle.settle
  | .hello _ _ => .next hs.doHello.settle
  | .openSession _ _ => .next hs.doOpen.settle
  | .close _ _ => .next hs.doClose.settle
  | .caddyRead _ _ => .next hs.doCaddyRead.settle
  | .caddyWrite _ _ => .next hs.doCaddyWrite.settle
  | .readBlock _ _ => .next hs.doReadBlock.settle
  | .writeBlock _ _ => .next hs.doWriteBlock.settle
  | .notify _ _ => .next hs.doNotify.settle
  | .notifyResend _ => .next hs.doNotifyResend.settle
  | .sessionIdleExpiry _ => .next hs.doIdleExpiry.settle
  | .halfOpenExpiry _ => .next hs.doHalfOpenExpiry.settle
  | .stickyClear _ _ => .next hs.dictWrite.settle
  | .annotate _ _ => .next hs.dictWrite.settle
  | .registerWrite _ _ _ _ => .next hs.dictWrite.settle
  | .modResetRelease => .next hs.doRelease.settle
  | .stbyEnHigh => .next hs.doStbyHigh.settle
  | .dbgXfer => .next hs.doDbgXfer.settle
  | .segmentZeroFillDone _ _ => .next hs.doSegmentFilled.settle
  | .inputSample _ _ => .execInputSample _ _

/-- Settles O54: of what keeps the queue. -/
theorem execLeavesTheQueue : Obligations.ExecLeavesTheQueue := fun c s t h => (keepsOut_exec c s t h).1

/-- What an idle step goes on with keeps queue and memory. -/
theorem keeps_idle (s : State) : Keeps s (((List.range 4).foldl State.rxPump s).dbgRetry).settle :=
  (Keeps.foldl (.refl s) fun _ _ hu => hu.rxPump).dbgRetry.settle

theorem step_mem_wf {s t : State} (hwf : Memory.wf s.mem = true) (h : step s = .next t) : Memory.wf t.mem = true := by
  unfold step at h
  split at h
  · exact (KeepsOut.next (keeps_idle s).tick t h).2 hwf
  next c rest _ => exact (keepsOut_exec c { s with pending := rest } t h).2 hwf

/-- Settles O55: every operation keeps the form, and so does what settles after it. -/
theorem memoryStaysCanonical : Obligations.MemoryStaysCanonical := fun _ _ hwf h => step_mem_wf hwf h

end Sys2Proof.Machine
end

section
/-! O51: an idle step. -/

namespace Sys2Proof.Machine

/-- t differs from s in dictionary entries at most. -/
def DictOnly (s t : State) : Prop := ∃ d, t = { s with dict := d }

theorem DictOnly.bump {s t : State} (h : DictOnly s t) (w i k n : Nat) : DictOnly s (t.bump w i k n) := by
  obtain ⟨d, rfl⟩ := h
  exact ⟨_, rfl⟩

theorem DictOnly.accruePart {s t : State} (h : DictOnly s t) (k p : Nat) : DictOnly s (t.accruePart k p) := by
  refine foldl_ind (P := DictOnly s) (fun u c hu => ?_) h
  split
  · exact hu.bump _ _ _ _
  · split
    · exact hu.bump _ _ _ _
    · exact hu

theorem State.accrue_dictOnly (s : State) (k : Nat) : DictOnly s (s.accrue k) := by
  unfold State.accrue
  split
  · exact ⟨_, rfl⟩
  · exact foldl_ind (P := DictOnly s) (fun u p hu => hu.accruePart k p) ⟨_, rfl⟩

/-- While a source runs, one cycle adds to the local time counter and changes no more than dictionary entries beside. -/
theorem State.tick_running {s : State} (h : s.reg 0x2000 1 = 1 ∨ s.reg 0x2000 1 = 2) :
    DictOnly { s with time := s.time + 1 } s.tick := by
  unfold State.tick
  rw [if_pos h]
  exact State.accrue_dictOnly _ _

theorem State.tick_fields {s : State} (h : s.reg 0x2000 1 = 1 ∨ s.reg 0x2000 1 = 2) :
    s.tick.time = s.time + 1 ∧ s.tick.localNs = (s.time + 1) * 6400 / 1000 % 2 ^ 64 ∧ s.tick.mem = s.mem ∧
      s.tick.cores = s.cores ∧ s.tick.parts = s.parts ∧ s.tick.pending = s.pending ∧ s.tick.out = s.out := by
  obtain ⟨d, hd⟩ := State.tick_running h
  have htime : s.tick.time = s.time + 1 := by rw [hd]
  refine ⟨htime, ?_, ?_, ?_, ?_, ?_, ?_⟩
  · unfold State.localNs
    rw [htime]
    rfl
  all_goals rw [hd]

theorem State.tick_stopped {s : State} (h1 : s.reg 0x2000 1 ≠ 1) (h2 : s.reg 0x2000 1 ≠ 2) : s.tick = s := by
  unfold State.tick
  rw [if_neg (not_or.2 ⟨h1, h2⟩)]

/-- A port with an empty receive buffer that owes no XON has nothing to take up. -/
theorem State.rxPump_idle (s : State) (p : Nat) (hin : (s.hport p).inq = []) (hx : (s.hport p).xoff = false) :
    s.rxPump p = s := by
  have hheld : s.rxHeld p = 0 := by simp [State.rxHeld, hin]
  simp [State.rxPump, hin, State.rxServeN, State.flowControl, hx, hheld]

theorem State.dbgRetry_idle (s : State) (h : s.dbg.busy = none) : s.dbgRetry = s := by
  simp [State.dbgRetry, h]

theorem State.idle_pumps (s : State) (h : ∀ p, p < 4 → (s.hport p).inq = [] ∧ (s.hport p).xoff = false) :
    (List.range 4).foldl State.rxPump s = s :=
  foldl_fixed_of_mem fun p hp => s.rxPump_idle p (h p (List.mem_range.1 hp)).1 (h p (List.mem_range.1 hp)).2

theorem step_idle {s : State} (h : s.pending = []) :
    step s = .next (((List.range 4).foldl State.rxPump s).dbgRetry).settle.tick := by
  unfold step
  rw [h]

/-- Settles O51: the queue stays empty, the cycle counts while a source runs, and nothing waits on a calm state. -/
theorem idleStepCountsTime : Obligations.IdleStepCountsTime := by
  intro s hs u
  have hu : u.pending = [] := (keeps_idle s).1.trans hs
  refine ⟨u.tick, step_idle hs, fun hrun => ?_, fun h1 h2 => State.tick_stopped h1 h2, fun hports hbusy hcalm => ?_⟩
  · obtain ⟨htime, hns, hmem, hcores, hparts, hpending, hout⟩ := State.tick_fields hrun
    exact ⟨htime, hns, hmem, hcores, hparts, hpending.trans hu, hout⟩
  · show (((List.range 4).foldl State.rxPump s).dbgRetry).settle = s
    rw [State.idle_pumps s hports, State.dbgRetry_idle s hbusy, State.settle_calm s hcalm]

end Sys2Proof.Machine
end

section
/-! O1, O3, O4, O5: the grist instructions, each in the case in which it completes. -/

namespace Sys2Proof.Machine

/-- A command whose own effect is u ends in u settled. -/
theorem next_settle_eq {t u : State} (h : t = u) : (.next t.settle : Out) = .next u.settle := by rw [h]

theorem State.doPlain_ready {s : State} {n k : Nat} {y : Stream} {g : Grist} {is_ : Grist → Bool}
    (hr : s.ready n k = some (y, g)) (hg : is_ g = true) :
    s.doPlain n k is_ = s.setStream n k { y with regs := y.regs.plain (s.ctx n y.ctx) (s.core n).prog g } := by
  unfold State.doPlain
  rw [hr]
  exact if_pos hg

/-- Settles O1: the row of each of the eight forms takes its form. -/
theorem plainGristCompletes : Obligations.PlainGristCompletes := by
  intro c n s y g hr hg
  cases g with
  | seta => exact next_settle_eq (State.doPlain_ready hr rfl)
  | addaImm => exact next_settle_eq (State.doPlain_ready hr rfl)
  | addaReg => exact next_settle_eq (State.doPlain_ready hr rfl)
  | setiImm => exact next_settle_eq (State.doPlain_ready hr rfl)
  | setiReg => exact next_settle_eq (State.doPlain_ready hr rfl)
  | loopImm => exact next_settle_eq (State.doPlain_ready hr rfl)
  | loopReg => exact next_settle_eq (State.doPlain_ready hr rfl)
  | endl => exact next_settle_eq (State.doPlain_ready hr rfl)
  | load | store | gather | scatter | emit | take | free | wait | arrive | done => cases hg

/-- A store with ACC 0 is no accumulate (R239). -/
theorem State.beforeAccum_zero (s : State) (n k : Nat) (y : Stream) : s.beforeAccum n k y 0 = (s, .left) := by
  simp [State.beforeAccum]

/-- Settles O3. -/
theorem transfersComplete : Obligations.TransfersComplete := by
  intro c n s t y
  refine ⟨?_, ?_, ?_, ?_⟩
  · intro ar post len hr hfit hfree hmove
    refine next_settle_eq (t := s.doLoad c.val n.val) ?_
    simp [State.doLoad, hr, Nat.not_lt.2 hfit, hfree, hmove]
  · intro ab ai irl irs m hr hrows hidx hfree hmove
    refine next_settle_eq (t := s.doGather c.val n.val) ?_
    simp [State.doGather, hr, hrows, hidx, hfree, hmove]
  · intro ar post len hr htaken hsup hfit hmove
    refine next_settle_eq (t := s.doStore c.val n.val) ?_
    simp [State.doStore, hr, htaken, hsup, Nat.not_lt.2 hfit, hmove, badAccStore, State.beforeAccum_zero]
  · intro ab ai irl irs m hr htaken hsup hrows hidx hmove
    refine next_settle_eq (t := s.doScatter c.val n.val) ?_
    simp [State.doScatter, hr, htaken, hsup, hrows, hidx, hmove, badAccScatter, State.beforeAccum_zero]

/-- Settles O4. -/
theorem slotGristCompletes : Obligations.SlotGristCompletes := by
  intro c n s y
  refine ⟨?_, ?_, ?_⟩
  · intro z hr hw hfree hfull
    refine next_settle_eq (t := s.doEmit c.val n.val) ?_
    simp [State.doEmit, hr, hw, hfree, Nat.not_lt.2 hfull]
  · intro r hr htaken hring hvis
    refine next_settle_eq (t := s.doTake c.val n.val) ?_
    simp [State.doTake, hr, htaken, hring, hvis, State.markBusy]
  · intro r t bs hr hw hring htaken hcur hread hseal habort
    refine next_settle_eq (t := s.doFree c.val n.val) ?_
    simp [State.doFree, hr, hw, hring, htaken, hcur, hread, hseal, habort]

/-- Settles O5. -/
theorem syncGristCompletes : Obligations.SyncGristCompletes := by
  intro c n s y
  refine ⟨?_, ?_, ?_, ?_⟩
  · intro d b px hr hw
    refine next_settle_eq (t := s.doWait c.val n.val) ?_
    simp [State.doWait, hr, hw, State.setRegs]
  · intro d b px hr href hreach
    refine next_settle_eq (t := s.doWait c.val n.val) ?_
    simp [State.doWait, hr, href, hreach, State.setRegs]
  · intro d b hr hw href harr
    refine next_settle_eq (t := s.doArrive c.val n.val) ?_
    simp [State.doArrive, hr, hw, href, Nat.not_lt.2 harr, State.arriveAt, Stream.arrived]
  · intro hr hreqs hcur htaken hend
    refine next_settle_eq (t := s.doEnd c.val n.val) ?_
    rcases hend with hd | hrew
    · simp [State.doEnd, hr, hreqs, htaken, hd]
    · simp [State.doEnd, hr, hreqs, htaken, hcur, hrew]

end Sys2Proof.Machine
end

section
/-! O6: the events of streams, rings and walks. -/

namespace Sys2Proof.Machine

/-- A read that the link delivers within its attempts counts corrections and retries (R262). -/
theorem State.linkOutcome_delivers (s : State) (p c f e tag : Nat) (hf : f < 3) :
    s.linkOutcome p c f e tag = ((s.bump 32 (0x8820 + p) c e).bump 32 (0x8830 + p) c (min f 2), true) := by
  unfold State.linkOutcome
  exact if_neg (Nat.not_le.2 hf)

/-- A third failure is an event of the channel (R262, R266). -/
theorem State.linkOutcome_fails (s : State) (p c e tag : Nat) :
    s.linkOutcome p c 3 e tag =
      (((s.bump 32 (0x8820 + p) c e).bump 32 (0x8830 + p) c 2).channelEvent p c tag, false) := by
  unfold State.linkOutcome
  exact if_pos (Nat.le_refl 3)

theorem State.doMemoryRead_of_link {s u t : State} {n k f e : Nat} {y : Stream} {q : Req} {bs : Bytes}
    (hy : s.stream n k = some y) (hq : s.memRead y = some q)
    (hlink : s.linkOutcome (s.lpDecode (locOf q.gaddr)).1 (s.lpDecode (locOf q.gaddr)).2.1 f e
      (s.ctx n y.ctx).lastTag = (u, true))
    (hread : u.readArray (locOf q.gaddr) q.len (u.ctx n y.ctx).lastTag = (t, .ok, bs)) :
    s.doMemoryRead n k f e = t.setStream n k
      (let z := y.putReq q { q with ready := true, tries := f, data := bs }
       if y.drains || q.dead || q.off = passMark || q.off = refMark then z
       else { z with rec_ := some (t.noteRead (y.rec_.getD { ckpt := y.ckpt }) (locOf q.gaddr) q.len) }) := by
  unfold State.doMemoryRead
  simp only [hy, hq, hlink, hread]
  have hdrains : ∀ r, (y.putReq q r).drains = y.drains := fun _ => rfl
  have hrec : ∀ r, (y.putReq q r).rec_ = y.rec_ ∧ (y.putReq q r).ckpt = y.ckpt := fun _ => ⟨rfl, rfl⟩
  simp only [hdrains, hrec, apply_ite (t.setStream n k)]

theorem State.doMemoryRead_of_failed_link {s u : State} {n k f e : Nat} {y : Stream} {q : Req}
    (hy : s.stream n k = some y) (hq : s.memRead y = some q)
    (hlink : s.linkOutcome (s.lpDecode (locOf q.gaddr)).1 (s.lpDecode (locOf q.gaddr)).2.1 f e
      (s.ctx n y.ctx).lastTag = (u, false)) :
    s.doMemoryRead n k f e =
      u.setStream n k (y.putReq q { q with ready := true, tries := 3, status := .eccUncorrectable }) := by
  simp only [State.doMemoryRead, hy, hq, hlink]

theorem exec_memoryReadComplete_delivers {c : CoreNo} {n : StreamNo} {s t : State} {y : Stream} {f : Fin 4} {e : Nat}
    {q : Req} {bs : Bytes} (hf : f.val < 3) (hy : s.stream c.val n.val = some y) (hq : s.memRead y = some q)
    (hread : let d := s.lpDecode (locOf q.gaddr)
      let u := (s.bump 32 (0x8820 + d.1) d.2.1 e).bump 32 (0x8830 + d.1) d.2.1 (min f.val 2)
      u.readArray (locOf q.gaddr) q.len (u.ctx c.val y.ctx).lastTag = (t, .ok, bs)) :
    exec (.memoryReadComplete c n ⟨f, e⟩) s = .next
      (t.setStream c.val n.val
        (let z := y.putReq q { q with ready := true, tries := f.val, data := bs }
         if y.drains || q.dead || q.off = passMark || q.off = refMark then z
         else { z with rec_ := some (t.noteRead (y.rec_.getD { ckpt := y.ckpt }) (locOf q.gaddr) q.len) })).settle := by
  have hrow : exec (.memoryReadComplete c n ⟨f, e⟩) s = .next (s.doMemoryRead c.val n.val f.val e).settle := rfl
  exact hrow.trans (next_settle_eq
    (State.doMemoryRead_of_link hy hq (State.linkOutcome_delivers _ _ _ _ _ _ hf) hread))

theorem exec_memoryReadComplete_fails {c : CoreNo} {n : StreamNo} {s : State} {y : Stream} {e : Nat} {q : Req}
    (hy : s.stream c.val n.val = some y) (hq : s.memRead y = some q) :
    let d := s.lpDecode (locOf q.gaddr)
    exec (.memoryReadComplete c n ⟨3, e⟩) s = .next
      ((((s.bump 32 (0x8820 + d.1) d.2.1 e).bump 32 (0x8830 + d.1) d.2.1 2).channelEvent d.1 d.2.1
        (s.ctx c.val y.ctx).lastTag).setStream c.val n.val
          (y.putReq q { q with ready := true, tries := 3, status := .eccUncorrectable })).settle := by
  have hrow : exec (.memoryReadComplete c n ⟨3, e⟩) s = .next (s.doMemoryRead c.val n.val 3 e).settle := rfl
  exact hrow.trans (next_settle_eq (State.doMemoryRead_of_failed_link hy hq (State.linkOutcome_fails _ _ _ _ _)))

/-- Settles O6. -/
theorem streamEventsComplete : Obligations.StreamEventsComplete := by
  intro c n s t y
  refine ⟨?_, ?_, ?_, ?_, ?_, ?_, ?_, ?_⟩
  · intro q hy hq hok hw
    refine next_settle_eq (t := s.doRequestComplete c.val n.val) ?_
    simp [State.doRequestComplete, hy, hq, hok, hw]
  · exact fun f e q bs hf hy hq hread => exec_memoryReadComplete_delivers hf hy hq hread
  · exact fun e q hy hq => exec_memoryReadComplete_fails hy hq
  · intro m g va rest q hinc hy hq
    refine next_settle_eq (t := s.doIncrement m.val) ?_
    have hy' : (((s.setMx m.val { s.mx m.val with incr := rest }).bumpGen g).stream c.val n.val) = some y := hy
    simp only [State.doIncrement, hinc, hy', hq]
  · intro r q x hq hheld hbusy hx hdel href
    refine next_settle_eq (t := s.doProbe c.val r.val) ?_
    simp [State.doProbe, hq, Nat.not_le.2 hheld, hbusy, hx, hdel, href]
  · intro r q x hq hx hhd hrec hfresh
    refine next_settle_eq (t := s.doProbeResponse c.val r.val) ?_
    simp [State.doProbeResponse, hq, hhd, hx, hrec, hfresh]
  · intro h k hk hst hop hhalt hreach hexec
    refine next_settle_eq (t := s.wakeCtx c.val h.val) ?_
    simp [State.wakeCtx, hk, hst, hop, hhalt, hreach, hexec]
  · intro va w g lo hy hph hwalks hfill
    refine next_settle_eq (t := s.doWalk c.val n.val) ?_
    simp only [State.doWalk, hy, hph, hwalks, Bool.not_true, Bool.false_eq_true, if_false, hfill]

end Sys2Proof.Machine
end

section
/-! O7, O9, O10, O12: the commands of recipes, each in the case in which its iteration goes on. -/

namespace Sys2Proof.Machine

theorem State.state_of_running {s : State} {n h : Nat} {k : CmdRun} (hk : s.running n h = some k) :
    (s.ctx n h).state = .running := by
  unfold State.running at hk
  dsimp only at hk
  split at hk
  next hc =>
    simp only [Bool.and_eq_true, beq_iff_eq] at hc
    exact hc.1.2
  · cases hk

theorem State.doReducePush_atWork {s : State} {n h : Nat} {k : CmdRun} (w : s.atWork n h 0x40 k) :
    s.doReducePush n h = s.vecStep n h (fun _ k ops => kReducePush k ops) k := by
  have hc := State.atWork_cmd w
  have hv := State.vector_atWork w (fun _ k ops => kReducePush k ops) fun s k ops => s.pushRefusals n h k ops
  obtain ⟨hk, hopen, -, -⟩ := w
  simp [State.doReducePush, hc, hk, hopen, hv]

/-- Settles O7. -/
theorem vectorRowsComplete : Obligations.VectorRowsComplete := by
  intro c h s k n m
  refine ⟨fun w => ?_, fun w => ?_, fun w => ?_, fun w => ?_, fun w => ?_, fun w => ?_, fun w => ?_, fun w => ?_,
    fun w => ?_, fun w => ?_, fun w => ?_, fun w => ?_, fun w => ?_, fun w => ?_, fun w => ?_, fun w => ?_⟩
  · exact next_settle_eq (State.vector_atWork w _ _)
  · exact next_settle_eq (State.vector_atWork w _ _)
  · exact next_settle_eq (State.vector_atWork w _ _)
  · exact next_settle_eq (State.vector_atWork w _ _)
  · exact next_settle_eq (State.vector_atWork w _ _)
  · exact next_settle_eq (State.vector_atWork w _ _)
  · exact next_settle_eq (State.vector_atWork w _ _)
  · exact next_settle_eq (State.vector_atWork w _ _)
  · exact next_settle_eq (State.vector_atWork w _ _)
  · exact next_settle_eq (State.vector_atWork w _ _)
  · exact next_settle_eq (State.vector_atWork w _ _)
  · exact next_settle_eq (State.vector_atWork w _ _)
  · exact next_settle_eq (State.vector_atWork w _ _)
  · exact next_settle_eq (congrArg (fun t : State => t.sealHold n m) (State.vector_atWork w _ _))
  · exact next_settle_eq (State.vector_atWork w _ _)
  · exact next_settle_eq (State.doReducePush_atWork w)

theorem State.product_begins {s : State} {n h op : Nat} {k : CmdRun} (w : s.atWork n h op k)
    (hfree : (s.core n).array = none) : s.product n h op = s.passBegin n h (s.prod n k (s.opsNow n h k)) := by
  rw [State.product, State.invoke_atWork w]
  simp only [hfree]

theorem State.product_ends {s : State} {n h op : Nat} {k : CmdRun} {a : ArrayRun} (w : s.atWork n h op k)
    (ha : (s.core n).array = some a) (hhold : a.hold = false)
    (hsteps : (s.prod n k (s.opsNow n h k)).steps ≤ a.step) :
    s.product n h op = s.passEnd n h (s.prod n k (s.opsNow n h k)) a := by
  rw [State.product, State.invoke_atWork w]
  simp [ha, hhold, Nat.not_lt.2 hsteps]

theorem exec_product {c : CoreNo} {h : CtxNo} {op : Nat} {row : Instr}
    (hrow : (op, row) ∈ [(0x01, Instr.matmul c h), (0x02, Instr.matmulT c h), (0x03, Instr.gradW c h)]) (s : State) :
    exec row s = .next (s.product c.val h.val op).settle := by
  simp only [List.mem_cons, List.not_mem_nil, or_false] at hrow
  rcases hrow with ⟨rfl, rfl⟩ | ⟨rfl, rfl⟩ | ⟨rfl, rfl⟩ <;> rfl

/-- Settles O9. -/
theorem productRowsComplete : Obligations.ProductRowsComplete := by
  intro c h s k op row hrow w
  refine ⟨fun hfree => ?_, fun a ha hhold hsteps => ?_⟩
  · rw [exec_product hrow, State.product_begins w hfree]
  · rw [exec_product hrow, State.product_ends w ha hhold hsteps]

theorem State.passEnd_staged {s t : State} {n h : Nat} {q : Prod} {a b : ArrayRun} {k : CmdRun}
    (hk : s.running n h = some k) (hA : k.full 0 q.lenA = true) (hB : k.full 1 q.lenB = true)
    (hdrain : s.drainPass n h q (s.opsNow n h k) (if q.masked then k.got 2 (q.lenIn2 (s.opsNow n h k)) else [])
      (33 * q.wid) a = (t, b, .ok)) :
    s.passEnd n h q a =
      if 32 * q.wid ≤ b.drained then t.passDone n h q b
      else (t.setArray n (some { b with hold := true })).drainStall n h (cRole k.word 3) := by
  simp [State.passEnd, State.pull_full hk hA, State.pull_full hk hB, hk, hA, hB, hdrain]

theorem State.doKStep_steps {s : State} {n : Nat} {a : ArrayRun} {k : CmdRun} (ha : (s.core n).array = some a)
    (hk : s.running n a.ctx = some k) (hhold : a.hold = false) :
    let q := s.prod n k (s.opsNow n a.ctx k)
    a.step + 1 < q.steps → k.full 0 (q.needA a.step) = true → k.full 1 (q.needB a.nTile a.step) = true →
    s.doKStep n = (s.turnTiles n q (SMap.get [] k.inBuf 0) (SMap.get [] k.inBuf 1) a.nTile a.step).setArray n (some { a with
      acc := q.stepAcc (SMap.get [] k.inBuf 0) (SMap.get [] k.inBuf 1) a.nTile a.step a.acc,
      step := a.step + 1 }) := by
  intro q hstep hA hB
  have hlt : ¬ q.steps ≤ a.step := by omega
  have hne : ¬ a.step + 1 = q.steps := by omega
  simp [State.doKStep, ha, hk, hhold, q, hlt, hne, State.pull_full hk hA, State.pull_full hk hB, hA, hB]

/-- Settles O10. -/
theorem arrayRowsComplete : Obligations.ArrayRowsComplete := by
  intro c s a k ha hk q mask
  refine ⟨fun t b hhold hsteps hA hB hdrain => ⟨State.drainPass_mono _ _ _ _ _ _ _ _ _ _ _ hdrain, ?_⟩,
    fun hhold hstep hA hB => ?_, fun hhold => ?_⟩
  · refine next_settle_eq (t := s.doKStep c.val) ?_
    have hend : s.doKStep c.val = s.passEnd c.val a.ctx q a := by simp [State.doKStep, ha, hk, hhold, q, hsteps]
    rw [hend]
    exact State.passEnd_staged hk hA hB hdrain
  · exact next_settle_eq (State.doKStep_steps ha hk hhold hstep hA hB)
  · refine next_settle_eq (t := s.doArrayContinue c.val) ?_
    simp [State.doArrayContinue, ha, hk, hhold, q]

theorem State.syncStep_arrives {s : State} {n h : Nat} {k : CmdRun} (hop : cOp k.word = 0x48)
    (href : s.cmdBarRefusal (s.ctx n h).part k.word = none) (hflag : cFlag k.word 32 = true) :
    s.syncStep n h k =
      (s.arriveAt (barDie k.word) (barObj k.word)).modCmd n h fun k => { k with phase := .last, open_ := false } := by
  simp [State.syncStep, href, hop, hflag]

theorem State.syncStep_waits {s : State} {n h : Nat} {k : CmdRun} (hop : cOp k.word = 0x49)
    (href : s.cmdBarRefusal (s.ctx n h).part k.word = none)
    (hreach : (s.barrier (barDie k.word) (barObj k.word)).reached (opnd (s.opsNow n h k) 0 % 65536) = true) :
    s.syncStep n h k = s.syncDone n h := by
  simp [State.syncStep, href, hop, hreach]

theorem State.fillStep_fills {s t u : State} {n h : Nat} {k : CmdRun} (hop : cOp k.word = 0x50)
    (hlease : s.fillLease n h k = (t, none))
    (hwrite : t.writeMem (spBase n + opnd (s.opsNow n h k) 0)
      (fillBytes (opnd (s.opsNow n h k) 2 + opnd (s.opsNow n h k) 3 * 2 ^ 32) (opnd (s.opsNow n h k) 1)) = (u, .ok)) :
    s.fillStep n h k = u.endIter n h k := by
  simp only [State.fillStep, hlease, if_pos hop, hwrite]

theorem State.fillStep_copies {s t u v : State} {n h : Nat} {k : CmdRun} {bs : Bytes} (hop : cOp k.word = 0x51)
    (hlease : s.fillLease n h k = (t, none))
    (hread : t.readMem (spBase n + opnd (s.opsNow n h k) 0) (opnd (s.opsNow n h k) 2) (cTag k.word) = (u, .ok, bs))
    (hwrite : u.writeMem (spBase n + opnd (s.opsNow n h k) 1) bs = (v, .ok)) :
    s.fillStep n h k = v.endIter n h k := by
  have hne : ¬ cOp k.word = 0x50 := by simp [hop]
  simp only [State.fillStep, hlease, if_neg hne, hread, hwrite]

/-- Settles O12. -/
theorem otherMacroRowsComplete : Obligations.OtherMacroRowsComplete := by
  intro c h s k n m
  refine ⟨fun w => ?_, fun w => ?_, fun w => ?_, fun w => ?_, fun w href hflag => ?_, fun w href hreach => ?_,
    fun t u w hlease hwrite => ?_, fun t u v bs w hlease hread hwrite => ?_, fun w => ?_,
    fun hk hph hst hpos hkind => ?_, fun hk hph hst hpre hhalt hgate hexec hscan hmaint hret hawake => ?_⟩
  · exact next_settle_eq (State.invoke_atWork w _ _)
  · exact next_settle_eq (State.invoke_atWork w _ _)
  · exact next_settle_eq (State.invoke_atWork w _ _)
  · exact next_settle_eq (State.invoke_atWork w _ _)
  · obtain ⟨-, -, hop, -⟩ := id w
    have hrun := State.state_of_running w.1
    refine next_settle_eq (t := s.doBarrier n m) ?_
    have hinv : s.doBarrier n m = s.invoke n m 0x48 (fun _ _ _ => []) fun s k => s.syncStep n m k := by
      simp [State.doBarrier, hrun]
    rw [hinv, State.invoke_atWork w]
    exact State.syncStep_arrives hop href hflag
  · obtain ⟨-, -, hop, -⟩ := id w
    have hrun := State.state_of_running w.1
    refine next_settle_eq (t := s.doWaitCmd n m) ?_
    have hinv : s.doWaitCmd n m = s.invoke n m 0x49 (fun _ _ _ => []) fun s k => s.syncStep n m k := by
      simp [State.doWaitCmd, hrun]
    rw [hinv, State.invoke_atWork w]
    exact State.syncStep_waits hop href hreach
  · obtain ⟨-, -, hop, -⟩ := id w
    exact next_settle_eq ((State.invoke_atWork w _ _).trans (State.fillStep_fills hop hlease hwrite))
  · obtain ⟨-, -, hop, -⟩ := id w
    exact next_settle_eq ((State.invoke_atWork w _ _).trans (State.fillStep_copies hop hlease hread hwrite))
  · exact next_settle_eq (State.invoke_atWork w _ _)
  · refine next_settle_eq (t := s.doReport n m) ?_
    simp [State.doReport, hk, hph, hst, hpos, hkind]
  · refine next_settle_eq (t := s.doGatedUpdate n m) ?_
    simp [State.doGatedUpdate, hk, hph, hst, hpre, hhalt, hgate, hexec, hscan, hmaint, hret, hawake]

end Sys2Proof.Machine
end

section
/-! O15, O16, O18: the rows of requests, loads, the end of a command and the step gate. -/

namespace Sys2Proof.Machine

theorem State.answers_of_serves {s : State} {p c n h : Nat} (hs : s.serves p c n h = true) : s.answers p c = true := by
  simp only [State.serves, Bool.and_eq_true] at hs
  exact hs.1.1

/-- Settles O15. -/
theorem intakeRowsComplete : Obligations.IntakeRowsComplete := by
  intro d r s u bs
  dsimp only
  refine ⟨fun w hserves href => ?_, fun t w hpres hserves hst hrun => ?_, fun w hpres hans hready hdone => ?_,
    fun w hpres hsaved habort => ?_, fun w hpres hcount hst hbit => ?_, fun w hpres hst => ?_⟩
  · refine next_settle_eq (t := s.doLoadRequest d.val r.val) ?_
    rw [State.doLoadRequest, State.reader_reads w]
    simp only [State.answers_of_serves hserves, hserves, href, Bool.not_true, Bool.false_eq_true, if_false]
    rfl
  · refine next_settle_eq (t := s.doStart d.val r.val) ?_
    rw [State.doStart, State.reader_reads w]
    have hans := State.answers_of_serves hserves
    rcases hst with hst | hst <;> simp [hpres, hans, hst, hserves, hrun]
  · refine next_settle_eq (t := s.doStart d.val r.val) ?_
    rw [State.doStart, State.reader_reads w]
    have hquiet : Status.busy.sticky = false := rfl
    simp [hpres, hans, hready, hdone, State.refuse, State.rqCondition, hquiet]
  · refine next_settle_eq (t := s.doAbort d.val r.val) ?_
    rw [State.doAbort, State.reader_reads w]
    simp [hpres, hsaved, habort]
  · refine next_settle_eq (t := s.doPatch d.val r.val) ?_
    rw [State.doPatch, State.reader_reads w]
    rcases hst with hst | hst <;> simp [hpres, Nat.not_lt.2 hcount, hst, hbit]
  · refine next_settle_eq (t := s.doUnload d.val r.val) ?_
    rw [State.doUnload, State.reader_reads w]
    rcases hst with hst | hst <;> simp [hpres, hst]

/-- What an overrun's end changes is the switch of its partition. -/
theorem State.core_overDone (s : State) (p n h tag k : Nat) : (s.overDone p n h tag).core k = s.core k := by
  unfold State.overDone
  dsimp only
  split
  · split <;> rfl
  · rfl

/-- Settles O16. -/
theorem loadAndCommandEndRowsComplete : Obligations.LoadAndCommandEndRowsComplete := by
  intro c h s n m
  refine ⟨fun l hl hended hbad => ⟨fun hnone href => ?_, fun hd hhd hcrc hval harm => ?_⟩,
    fun k => ⟨fun hk hph hst hstreams hmaint hexec hok => ?_, fun hpre hkiln hret => ?_⟩⟩
  · refine next_settle_eq (t := (s.doHeader n m).retireCheck n) ?_
    simp [State.doHeader, hl, hended, hbad, hnone, href]
  · refine next_settle_eq (t := (s.doImage n m).retireCheck n) ?_
    simp [State.doImage, hl, hended, hbad, hhd, hcrc, hval, harm]
  · refine next_settle_eq (t := s.doCommandComplete n m) ?_
    rcases hexec with hexec | hexec <;>
      simp [State.doCommandComplete, hk, hph, hst, hstreams, hmaint, hexec, hok]
  · refine next_settle_eq (t := s.doPreempted n m) ?_
    simp [State.doPreempted, State.doPreemption, hpre, State.core_overDone, hkiln, hret]

/-- Settles O18. -/
theorem gateRowsComplete : Obligations.GateRowsComplete := by
  intro p s
  refine ⟨fun v w k hk hstage hdist hfree => ?_, fun hlim hst => ?_⟩
  · refine next_settle_eq (t := s.doArbitration p.val v.toNat w.toNat) ?_
    simp only [State.doArbitration, hk, hstage, hdist, hfree]
    rfl
  · refine next_settle_eq (t := s.doGateTimeout p.val) ?_
    simp [State.doGateTimeout, hlim, State.gateFail, hst, State.failVotes]

end Sys2Proof.Machine
end

section
/-! O19, O20: the rows of the pour engine and of the lauter engines. -/

namespace Sys2Proof.Machine

theorem State.pourFlush_of_due_nil {s : State} {p : Nat} (h : (s.pour p).due = []) : s.pourFlush p = s := by
  simp [State.pourFlush, h]

theorem State.settlePour_of_bad_none {s : State} {p : Nat} (h : (s.pour p).bad = none) : s.settlePour p = s := by
  simp [State.settlePour, h]

theorem State.pour_setPour (s : State) (p : Nat) (x : Pour) : (s.setPour p x).pour p = x := by
  simp [State.pour, State.setPour, get_putD]

theorem State.doPourRelease_begins {s u : State} {p : Nat} {w : Walk} (hstate : s.reg (0x9500 + p) 1 = 1)
    (hcopies : ((s.pour p).copies.any fun e => e.kind == .flush) = false) (hwalk : (s.pour p).walk = none)
    (hdue : (s.pour p).due = []) (hu : s.beginWalk p = u) (hw : (u.pour p).walk = some w) (hblocks : w.blocks = none)
    (hquiet : (u.pour p).quiet = true) (hbad : (u.pour p).bad = none) :
    s.doPourRelease p = u.goOnWalk p w := by
  simp [State.doPourRelease, hstate, hcopies, State.pourFlush_of_due_nil hdue, hwalk, hu, hw, hblocks, hquiet,
    State.settlePour_of_bad_none hbad]

theorem State.doPourRelease_goesOn {s : State} {p : Nat} {w : Walk} (hstate : s.reg (0x9500 + p) 1 = 1)
    (hcopies : ((s.pour p).copies.any fun e => e.kind == .flush) = false) (hwalk : (s.pour p).walk = some w)
    (hdue : (s.pour p).due = []) (hblocks : w.blocks = none → (s.pour p).quiet = true ∧ (s.pour p).bad = none) :
    s.doPourRelease p = s.goOnWalk p w := by
  cases hb : w.blocks with
  | none =>
    obtain ⟨hquiet, hbad⟩ := hblocks hb
    simp [State.doPourRelease, hstate, hcopies, State.pourFlush_of_due_nil hdue, hwalk, hb, hquiet,
      State.settlePour_of_bad_none hbad]
  | some l => simp [State.doPourRelease, hstate, hcopies, State.pourFlush_of_due_nil hdue, hwalk, hb]

theorem State.goOnWalk_releases {s t : State} {p : Nat} {w e : Walk} (hall : s.walkAll p w.blocks w.todo = (t, e))
    (htodo : e.todo = []) (hquiet : (t.pour p).quiet = true) :
    s.goOnWalk p w = t.releaseStep p (w.recs ++ e.recs) := by
  simp [State.goOnWalk, hall, htodo, hquiet]

/-- Settles O19. -/
theorem pourRowsComplete : Obligations.PourRowsComplete := by
  intro p s t x y
  dsimp only
  refine ⟨fun d hdue hfind hrun hbad hstage hzero => ?_, fun hfind hrun hbad hstage hreg => ?_,
    fun granted hstate hcopies hwalk hdue hgrants hquiet hbad => ?_,
    fun w e x hstate hcopies hwalk hdue hblocks hall htodo hquiet hwrite => ?_⟩
  · refine next_settle_eq (t := s.doFlushComplete p.val) ?_
    simp only [State.doFlushComplete, State.pourFlush_of_due_nil hdue, hfind, hrun, hbad, hstage, hzero, ne_eq,
      not_true_eq_false, if_false]
  · refine next_settle_eq (t := s.doMoveComplete p.val) ?_
    simp only [State.doMoveComplete, hfind, hrun, hbad, hstage, ne_eq, not_true_eq_false, if_false, if_neg hreg]
  · refine next_settle_eq (t := s.doPourRelease p.val) ?_
    refine State.doPourRelease_begins hstate hcopies hwalk hdue ?_ ?_ rfl hquiet hbad
    · simp only [State.beginWalk, hgrants]
    · rw [State.pour_setPour]
  · refine next_settle_eq (t := s.doPourRelease p.val) ?_
    rw [State.doPourRelease_goesOn hstate hcopies hwalk hdue hblocks, State.goOnWalk_releases hall htodo hquiet]
    simp only [State.releaseStep, hwrite]

/-- Settles O20. -/
theorem lauterRowsComplete : Obligations.LauterRowsComplete := by
  intro m s c rest
  dsimp only
  refine ⟨fun hq i x hgen hfail hplan href hopen => ?_, fun n k va y q hr hsender hy hreq => ?_, fun b x hx hlim => ?_⟩
  · refine next_settle_eq (t := s.doAccum m.val) ?_
    have hjoin : ¬ (cGen c.header ≠ (s.modMx m.val fun k => { k with queue := rest }).reg 0x9210 2 ∨
        ((s.modMx m.val fun k => { k with queue := rest }).mx m.val).failed.contains (c.dest / 4096) = true) :=
      not_or.2 ⟨fun h => h hgen, by rw [hfail]; exact Bool.false_ne_true⟩
    simp only [State.doAccum, hq, State.arrival, if_neg hjoin, hplan, href, hopen]
  · refine next_settle_eq (t := s.doAccumRetry m.val) ?_
    simp [State.doAccumRetry, hr, hsender, State.streamAgain, hy, hreq]
  · refine next_settle_eq (t := s.doBlockTimeout m.val b.toNat) ?_
    simp [State.doBlockTimeout, hx, hlim]

end Sys2Proof.Machine
end

section
/-! O21, O22: the rows of partitions, shadow checks and kiln. -/

namespace Sys2Proof.Machine

/-- The physical position of a core does not depend on a shadow check. -/
theorem State.physPos_setShadow (s : State) (p k : Nat) (w : Shadow) (t : Nat) :
    (s.setShadow p k w).physPos t = s.physPos t := rfl

/-- Settles O21. -/
theorem partitionRowsComplete : Obligations.PartitionRowsComplete := by
  intro p s t
  dsimp only
  refine ⟨fun d g hfill => ?_, fun c hbuilt hclosing hswitch hres hchoose => ?_, fun w hswitch hlive hover => ?_,
    fun k w lo hi hk hrun hpres hst hfree hkiln hmaint hbase hprog hrange => ?_, fun k w hk hres htie => ?_,
    fun k w hk hrun => ?_⟩
  · refine next_settle_eq (t := s.doSegmentFilled d.val g.val) ?_
    simp only [State.doSegmentFilled, hfill, Bool.not_true, Bool.false_eq_true, if_false]
  · refine next_settle_eq (t := s.doSliceEnd p.val) ?_
    simp [State.doSliceEnd, hbuilt, hclosing, hswitch, hchoose, Nat.not_le.2 hres]
  · refine next_settle_eq (t := s.doSwitchComplete p.val) ?_
    simp [State.doSwitchComplete, hswitch, hlive, hover]
  · refine next_settle_eq (t := s.doShadowStart p.val k) ?_
    rcases hfree with hne | hempty
    · simp [State.doShadowStart, hk, hrun, hpres, hst, hne, hkiln, hmaint, hbase, hprog, hrange,
        State.physPos_setShadow]
    · simp [State.doShadowStart, hk, hrun, hpres, hst, hempty, hkiln, hmaint, hbase, hprog, hrange,
        State.physPos_setShadow]
  · refine next_settle_eq (t := s.doShadowComplete p.val k) ?_
    simp [State.doShadowComplete, hk, hres, htie]
  · refine next_settle_eq (t := s.doShadowExpiry p.val k) ?_
    simp [State.doShadowExpiry, hk, hrun]

/-- Settles O22. -/
theorem kilnRowsComplete : Obligations.KilnRowsComplete := by
  intro d x s
  refine ⟨fun hp7 hup hret hslices => ?_, fun hdue hforced hroom hq => ?_, fun hdue hroom hq hcore => ?_,
    fun r hp5 hslices => ?_, fun g bad hp5 hp7 hq hup hdue hown => ?_, fun g hspan => ?_,
    fun u hph hfence hfused => ?_, fun y k hph hfence hp5 hbad => ?_⟩
  · refine next_settle_eq (t := s.doKilnDue d.val false x.val) ?_
    simp only [State.doKilnDue, hp7, hup, hret, hslices]
    rfl
  · refine next_settle_eq (t := s.doKilnForce d.val x.val) ?_
    simp only [State.doKilnForce, hdue, hforced, hroom, hq]
    rfl
  · refine next_settle_eq (t := s.doKilnSlice d.val x.val) ?_
    simp only [State.doKilnSlice, hdue, hroom, hq, hcore]
    rfl
  · refine next_settle_eq (t := ((s.doKilnSliceDone d.val x.val r).opUpdate d.val).p5Check.dbgRetry) ?_
    have h : s.doKilnSliceDone d.val x.val r = s.sliceOutcome d.val x.val r := by
      simp only [State.doKilnSliceDone, hp5, Bool.false_and, Bool.false_eq_true, if_false, hslices, if_true]
    rw [h]
  · dsimp only
    intro hok
    refine next_settle_eq (t := (s.doSegmentTest d.val g.val bad).p5Check.dbgRetry) ?_
    have h : s.doSegmentTest d.val g.val bad =
        ((s.undue d.val kilnSegment g.val).sweepSegment d.val g.val).marchSegment d.val g.val bad := by
      simp only [State.doSegmentTest, hp5, hp7, hq, hup, hdue, hown, Bool.false_and, Bool.false_eq_true, if_false,
        Bool.not_true, Bool.true_or, Bool.or_self, bne_self_eq_false, if_neg hok, List.nil_append]
    rw [h]
  · refine next_settle_eq (t := (s.doSegmentRetry d.val g.val).dbgRetry) ?_
    simp only [State.doSegmentRetry, hspan, if_true]
  · refine next_settle_eq (t := (s.doDieCheck (unitOf u) true).p5Check) ?_
    have hf : (decide (unitOf u < 64) && s.fused (unitOf u)) = false := by
      by_cases hu : unitOf u < 64
      · simp [hfused hu]
      · simp [hu]
    simp only [State.doDieCheck, Nat.not_lt.2 hph, hfence, hf, decide_false, Bool.or_self, Bool.false_eq_true, if_false,
      if_true]
  · refine next_settle_eq (t := (s.doLoopback y.val k.val true).p5Check) ?_
    simp only [State.doLoopback, Nat.not_lt.2 hph, hfence, hp5, hbad, decide_false, Bool.or_self, Bool.true_or,
      Bool.not_true, Bool.false_eq_true, if_false, if_true]
    rfl

end Sys2Proof.Machine
end

section
/-! O23, O24: dictionary writes, accepted and refused. O50, O52, O53: the step, settling and the reset state. -/

namespace Sys2Proof.Machine

/-- A row that writes a dictionary entry is that write. -/
theorem exec_of_dictRow {r : Instr} {o : Origin} {index sub : Nat} {value : Bytes}
    (h : dictRow r = some (o, index, sub, value)) (s : State) :
    exec r s = .next (s.dictWrite o index sub value).settle := by
  unfold dictRow at h
  split at h
  all_goals cases h
  all_goals rfl

/-- A write that passes its check and whose rule answers later joins the writes that wait. -/
theorem State.dictWrite_later {s t : State} {o : Origin} {index sub : Nat} {value : Bytes}
    {what : WaitOn} {left : List (Nat × Nat × Nat × Nat)}
    (hphase : 3 ≤ s.phase) (hok : s.writeCheck o index sub value = .ok) (hboot : index ≠ 0x2030)
    (happly : s.applyWrite o index sub value = (t, .later what left)) :
    s.dictWrite o index sub value
      = { t with waits := t.waits ++ [⟨what, o, index, sub, s.reg index sub, value, .nobody, left⟩] } := by
  simp [dictWrite, writeEntry, afterWrite, Nat.not_lt.mpr hphase, writeRefusals_eq_nil hok, hboot, happly]

/-- A write of `boot.ctl` that passes its check is recorded before it acts. -/
theorem State.dictWrite_boot {s : State} {o : Origin} {sub : Nat} {value : Bytes} (hphase : 3 ≤ s.phase)
    (hok : s.writeCheck o 0x2030 sub value = .ok) :
    s.dictWrite o 0x2030 sub value
      = (s.writeNote o 0x2030 sub (s.reg 0x2030 sub) (leNat value) .ok).writeBoot (leNat value) := by
  simp [dictWrite, writeEntry, afterWrite, Nat.not_lt.mpr hphase, writeRefusals_eq_nil hok]

/-- Settles O23. -/
theorem dictRowsComplete : Obligations.DictRowsComplete := by
  intro r o index sub value s t hrow hphase hok
  rw [exec_of_dictRow hrow]
  refine ⟨fun hboot happly => ?_, fun what left hboot happly => ?_, ?_⟩
  · rw [State.dictWrite_done hphase hok hboot happly]
  · rw [State.dictWrite_later hphase hok hboot happly]
  · rintro rfl
    rw [State.dictWrite_boot hphase hok]

/-! A refused write. -/

/-- A refused write is its record and the conditions that the check found. -/
theorem State.dictWrite_refused {s : State} {o : Origin} {index sub : Nat} {value : Bytes} (hphase : 3 ≤ s.phase)
    (hbad : s.writeCheck o index sub value ≠ .ok) :
    s.dictWrite o index sub value
      = s.refuseWrite o index sub (s.reg index sub) (leNat value) (s.writeRefusals o index sub value) := by
  rw [writeCheck] at hbad
  cases hfound : s.writeRefusals o index sub value with
  | nil => exact absurd (by rw [hfound]; rfl) hbad
  | cons st l =>
    rw [hfound] at hbad
    simp [dictWrite, writeEntry, afterWrite, Nat.not_lt.mpr hphase, hfound, hbad]

/-- t differs from s in the audit log, the sticky bits, the sessions and what is sent only. -/
structure LogOnly (s t : State) : Prop where
  mem : t.mem = s.mem
  cores : t.cores = s.cores
  parts : t.parts = s.parts
  mirror : t.reg 0x1100 3 = s.reg 0x1100 3
  reg : ∀ i j, j < 256 → i < 0x1100 ∨ 0x1300 ≤ i → t.reg i j = s.reg i j

theorem LogOnly.refl (s : State) : LogOnly s s := ⟨rfl, rfl, rfl, rfl, fun _ _ _ _ => rfl⟩

theorem LogOnly.trans {s t u : State} (h : LogOnly s t) (k : LogOnly t u) : LogOnly s u :=
  ⟨k.mem.trans h.mem, k.cores.trans h.cores, k.parts.trans h.parts, k.mirror.trans h.mirror,
    fun i j hj hi => (k.reg i j hj hi).trans (h.reg i j hj hi)⟩

/-- Operations that keep to the log keep to it together, while the mirror stays off. -/
theorem LogOnly.foldl {α : Type} {f : State → α → State} (hf : ∀ s x, s.reg 0x1100 3 ≠ 1 → LogOnly s (f s x)) (l : List α)
    {s : State} (hoff : s.reg 0x1100 3 ≠ 1) : LogOnly s (l.foldl f s) := by
  induction l generalizing s with
  | nil => exact .refl s
  | cons x l ih => exact (hf s x hoff).trans (ih ((hf s x hoff).mirror ▸ hoff))

theorem LogOnly.setSticky (s : State) (st : Status) (seq : Nat) : LogOnly s (s.setSticky st seq) := by
  unfold State.setSticky
  split
  · exact .refl s
  split
  · exact .refl s
  · have hlt := st.code_lt
    refine ⟨rfl, rfl, rfl, ?_, fun i j hj hi => ?_⟩ <;> rw [State.reg_of_dict (State.notifyAll_dict _)]
    · rw [State.reg_setReg_of_ne hlt (by decide) (Or.inl (by decide)),
        State.reg_setReg_of_ne (by decide) (by decide) (Or.inr (by decide))]
    · rw [State.reg_setReg_of_ne hlt hj (Or.inl (by omega)), State.reg_setReg_of_ne (by decide) hj (Or.inl (by omega))]

/-- With the mirror off a record keeps to the log. -/
theorem LogOnly.record (s : State) (r : AuditRec) (hoff : s.reg 0x1100 3 ≠ 1) : LogOnly s (s.record r) := by
  have hmirror : (s.logged r).reg 0x1100 3 = s.reg 0x1100 3 :=
    State.reg_logged_of_ne (by decide) (Or.inr (by decide)) (Or.inl (by decide)) s r
  have hlogged : LogOnly s (s.logged r) :=
    ⟨rfl, rfl, rfl, hmirror, fun i j hj hi =>
      State.reg_logged_of_ne hj (Or.inl (by omega)) (hi.imp (by omega) id) s r⟩
  rw [State.record_eq, State.mirror_off (hmirror ▸ hoff)]
  exact hlogged.trans (.setSticky ..)

theorem LogOnly.beside (s : State) (l : List Status) (o : Origin) (hoff : s.reg 0x1100 3 ≠ 1) :
    LogOnly s (s.beside l o) :=
  LogOnly.foldl (fun s _ h => LogOnly.record s _ h) _ hoff

theorem LogOnly.refuseWrite (s : State) (o : Origin) (index sub old new : Nat) (sts : List Status)
    (hoff : s.reg 0x1100 3 ≠ 1) : LogOnly s (s.refuseWrite o index sub old new sts) := by
  have hnote : LogOnly s (s.writeNote o index sub old new (lowest sts)) := .record s _ hoff
  have hoff' := hnote.mirror ▸ hoff
  unfold State.refuseWrite
  dsimp only
  split
  · exact hnote.trans (LogOnly.foldl (fun s st _ => .setSticky s st _) _ hoff')
  · exact hnote.trans (.beside _ _ _ hoff')

/-! The sticky bits of what was found. -/

/-- The sticky bit of a status is set. -/
def State.Stuck (s : State) (st : Status) : Prop := bit (s.reg 0x1100 0x10) st.code = true

theorem State.Stuck.setSticky {s : State} {e : Status} (h : s.Stuck e) (st : Status) (seq : Nat) :
    (s.setSticky st seq).Stuck e := (setSticky_keeps e.code_lt h st seq).1

theorem State.Stuck.record {s : State} {e : Status} (h : s.Stuck e) (r : AuditRec) : (s.record r).Stuck e :=
  (stickyBitsStay s r e.code e.code_lt h).1

theorem State.Stuck.condition {s : State} {e : Status} (h : s.Stuck e) (st : Status) (o : Origin) (detail : Nat) :
    (s.condition st o detail).Stuck e := h.record _

theorem State.stuck_setSticky {st : Status} (hst : st.sticky = true) (s : State) (seq : Nat) :
    (s.setSticky st seq).Stuck st := by
  unfold State.setSticky Stuck
  rw [if_neg (by simp [hst])]
  split
  next hset => exact hset
  next hnew =>
    rw [reg_of_dict (notifyAll_dict _), reg_setReg_of_ne st.code_lt (by decide) (Or.inl (by decide)), reg_setReg_self,
      bit_eq_div_mod]
    rw [bit_eq_div_mod, decide_eq_true_eq] at hnew
    rw [decide_eq_true_eq, Nat.add_div_right _ (Nat.two_pow_pos _)]
    omega

theorem State.stuck_record {r : AuditRec} {e : Status} (hr : r.status = e) (hst : e.sticky = true) (s : State) :
    (s.record r).Stuck e := by
  rw [record_eq, hr]
  exact stuck_setSticky hst _ _

/-- Steps that keep the sticky bits keep them together. -/
theorem State.Stuck.foldl {f : State → Status → State} {e : Status}
    (hkeep : ∀ s x, s.Stuck e → (f s x).Stuck e) (l : List Status) {s : State} (h : s.Stuck e) : (l.foldl f s).Stuck e := by
  induction l generalizing s with
  | nil => exact h
  | cons x l ih => exact ih (hkeep s x h)

/-- Steps that keep the sticky bits and set their own have set them all. -/
theorem State.stuck_foldl {f : State → Status → State} {e : Status} (hkeep : ∀ s x, s.Stuck e → (f s x).Stuck e)
    (hset : ∀ s, (f s e).Stuck e) {l : List Status} (he : e ∈ l) (s : State) : (l.foldl f s).Stuck e := by
  induction l generalizing s with
  | nil => exact absurd he List.not_mem_nil
  | cons x l ih =>
    rcases List.mem_cons.mp he with rfl | he
    · exact Stuck.foldl hkeep l (hset s)
    · exact ih he (f s x)

theorem State.stuck_condition {e : Status} (hst : e.sticky = true) (s : State) (o : Origin) (detail : Nat) :
    (s.condition e o detail).Stuck e := by
  unfold condition
  exact stuck_record (by rfl) hst s

theorem State.stuck_beside {l : List Status} {e : Status} (he : e ∈ l) (hst : e.sticky = true) (hne : e ≠ lowest l)
    (s : State) (o : Origin) : (s.beside l o).Stuck e := by
  unfold beside
  refine stuck_foldl (fun s x h => h.condition x o _) (fun s => stuck_condition hst s o _) ?_ s
  rw [List.mem_filter, List.mem_eraseDups]
  exact ⟨he, by simp [hne, hst]⟩

/-- A refused write sets the sticky bit of every condition found: the record that of the lowest, the rest beside it. -/
theorem State.stuck_refuseWrite {sts : List Status} {e : Status} (he : e ∈ sts) (hst : e.sticky = true) (s : State)
    (o : Origin) (index sub old new : Nat) : (s.refuseWrite o index sub old new sts).Stuck e := by
  unfold refuseWrite
  dsimp only
  split
  · exact stuck_foldl (fun s x h => h.setSticky x _) (fun s => stuck_setSticky hst s _) he _
  · by_cases hlow : e = lowest sts
    · have hnote : (s.writeNote o index sub old new (lowest sts)).Stuck e :=
        stuck_record hlow.symm hst s
      exact Stuck.foldl (fun s x h => h.condition x o _) _ hnote
    · exact stuck_beside he hst hlow _ o

/-- Settles O24. -/
theorem refusedWriteOnlyNotes : Obligations.RefusedWriteOnlyNotes := by
  intro r o index sub value s st hrow hphase hcheck hbad
  dsimp only
  refine ⟨?_, fun e he hst => State.stuck_refuseWrite he hst s o index sub _ _, fun hoff => ?_⟩
  · rw [exec_of_dictRow hrow, State.dictWrite_refused hphase (hcheck ▸ hbad)]
  · have hlog := LogOnly.refuseWrite s o index sub (s.reg index sub) (leNat value) (s.writeRefusals o index sub value) hoff
    exact ⟨hlog.mem, hlog.cores, hlog.parts, fun i j _ hj hi => hlog.reg i j hj hi⟩

/-! The step, settling, reset. -/

/-- Settles O50. -/
theorem stepRunsFront : Obligations.StepRunsFront := by
  intro c rest s hqueue
  rw [step, hqueue]

/-- One event of settling. -/
theorem State.settleN_cons {s : State} {e : Event} {rest : List Event} (h : s.events = e :: rest) (n : Nat) :
    State.settleN (n + 1) s = State.settleN n (({ s with events := rest } : State).handle e) := by
  rw [State.settleN, h]

/-- Settles O52. -/
theorem settleCalm : Obligations.SettleCalm := fun s =>
  ⟨s.settle_calm, fun _ _ h => State.settleN_cons h 65535⟩

/-- Settles O53: the reset state lists nothing, so that every entry reads as its row's value. -/
theorem resetState : Obligations.ResetState :=
  ⟨rfl, rfl, rfl, rfl, rfl, rfl, rfl, rfl, rfl, rfl, fun _ _ => rfl⟩

end Sys2Proof.Machine
end

section
/-! O29: the rows of memory upkeep and of waiting writes. -/

namespace Sys2Proof.Machine

/-- Training without a failed channel writes the part identifiers and the usable capacity. -/
theorem State.doTraining_sound {s : State} (hphase : s.inPhase 4 = true) (hnew : s.power.trained = false)
    (hfenced : s.power.fenced = []) (ids : List Nat) :
    s.doTraining [] ids =
      let u := ((ids.take 16).zipIdx).foldl (fun (s : State) e => s.setReg 0x1013 e.2 e.1) s
      let v := u.setReg 0x3000 0 u.lpUsable
      { v with power := { v.power with trained := true } } := by
  have hdead : ((List.range 16).filter fun p => s.fencedDie (64 + p)) = [] := by
    simp [fencedDie, hfenced]
  simp only [doTraining, hphase, hnew, hdead, Bool.not_false, Bool.and_self, if_true, List.flatMap_nil, List.append_nil,
    List.foldl_nil]

/-- The zero-fill of trained LPDDR5X (R257, R410). -/
theorem State.doZeroFill_trained {s : State} (hphase : s.inPhase 4 = true) (htrained : s.power.trained = true) :
    s.doZeroFill =
      let u : State := { s with
        mem := s.mem.filter fun e => !inLpddr e.1, poison := s.poison.filter fun w => !inLpddr w,
        flaws := s.flaws.filter fun e => !inLpddr e.1, gens := s.gens.filter fun e => !inLpddr (e.1 * 65536) }
      u.checkCask.checkPour.checkMirror.setPhase 5 := by
  rw [doZeroFill, hphase, htrained]
  rfl

/-- Settles O29. -/
theorem memoryRowsComplete : Obligations.MemoryRowsComplete := by
  intro s
  refine ⟨fun c hpres => ?_, fun d b hfused hfence => ?_, fun m ch a => ?_, fun c dbg r t bs hfused hmaint hok helems => ?_,
    fun m r errs hr => ?_, fun m => rfl, fun ids hphase hnew hfenced => ?_, fun hphase htrained => ?_, fun p cl => rfl,
    fun w hstate hdone => ?_⟩
  · refine next_settle_eq (t := s.doSpScrub c.val) ?_
    simp only [State.doSpScrub, hpres, Bool.not_true, Bool.false_eq_true, if_false]
  · dsimp only
    intro hlive
    refine next_settle_eq (t := s.doTunScrub d.val b.val) ?_
    simp only [State.doTunScrub, hfused, hfence, Bool.or_self, Bool.false_eq_true, if_false, if_neg hlive]
  · dsimp only
    intro henc
    refine next_settle_eq (t := s.doLpScrub m.val ch.val) ?_
    simp only [State.doLpScrub, henc]
  · refine next_settle_eq (t := s.doMaintRead c.val r) ?_
    simp only [State.doMaintRead, hfused, hmaint, hok, helems, Bool.not_true, Bool.false_eq_true, if_false]
  · refine next_settle_eq (t := s.doRefreshPoll m.val r.val errs) ?_
    simp only [State.doRefreshPoll, hr, false_and, if_false]
  · refine next_settle_eq (t := s.doTraining [] (ids.map BitVec.toNat)) ?_
    exact State.doTraining_sound hphase hnew hfenced _
  · refine next_settle_eq (t := s.doZeroFill) ?_
    exact State.doZeroFill_trained hphase htrained
  · refine next_settle_eq (t := s.doWindowClosed w.val) ?_
    simp [State.doWindowClosed, hstate, hdone]

end Sys2Proof.Machine
end

section
/-! O37: the rows of the link ports. -/

namespace Sys2Proof.Machine

/-- A sound flit with the next payload is acknowledged, taken, and followed by what the port has to send. -/
theorem State.doFlit_taken {s : State} {g f : Nat} (hactive : s.portState g = 5) (hcrc : crcOk f = true)
    (htype : fld f 7 0 = 0) (hpay : fld f 32 31 = 1) (hack : (s.takeAck g f).portState g = 5)
    (hnext : fld f 63 52 = ((s.takeAck g f).port g).rxNext)
    (hlive : ((s.takeAck g f).takePayload g f).portState g = 5) :
    s.doFlit g f false =
      let v := (s.takeAck g f).takePayload g f
      let w := v.pumpPort g ((v.port g).outq.length + 1)
      if w.out.length = v.out.length then w.sendFlit g none else w := by
  have hbad : (false || !crcOk f || fld f 7 0 != 0 || 1 == 2) = false := by simp [hcrc, htype]
  have hne : (1 : Nat) ≠ 3 := by decide
  simp only [doFlit, hactive, hbad, ne_eq, not_true_eq_false, if_false, Bool.false_eq_true, if_neg hne, hpay, hack,
    and_self, if_true, hnext, hlive, true_or, and_true]

/-- Settles O37. -/
theorem linkRowsComplete : Obligations.LinkRowsComplete := by
  intro g s
  refine ⟨fun f hactive hcrc htype hpay => ?_, fun hactive hretry hfew => ?_, fun hactive hretry hmany => ?_,
    fun f hok hactive => ?_, fun f hok hactive hmap => ?_, fun f hok hactive hconf hgot hrepair hdev hlevel => ?_,
    fun f rt hok hactive hconf => ?_, fun l hwait => ?_, fun m hlock hspare => ?_, fun hpaused => ?_, fun hstate => ?_,
    fun hstate hpaused => ?_, fun l lost marked corrected symbols => ?_, fun hactive => ?_, fun dev => rfl, fun dev => rfl⟩
  · dsimp only
    intro hack hnext hlive
    exact next_settle_eq (State.doFlit_taken hactive hcrc htype hpay hack hnext hlive)
  · refine next_settle_eq (t := s.doRetryTimer g.val) ?_
    simp [State.doRetryTimer, State.goBack, hactive, hretry, Nat.not_le.2 hfew]
  · refine next_settle_eq (t := s.doRetryTimer g.val) ?_
    simp [State.doRetryTimer, State.goBack, hactive, hretry, hmany]
  · refine next_settle_eq (t := s.doMapFrame g.val f.toNat) ?_
    simp [State.doMapFrame, hok, hactive]
  · dsimp only
    intro hfull
    refine next_settle_eq (t := s.doMapFrame g.val f.toNat) ?_
    simp [State.doMapFrame, hok, hactive, hmap, hfull]
  · refine next_settle_eq (t := (s.doConfigFrame g.val f.toNat).p6Check) ?_
    simp [State.doConfigFrame, hok, hactive, hconf, hgot, hrepair, hdev, hlevel]
  · refine next_settle_eq (t := (s.doDoneFrame g.val f.toNat rt).p6Check) ?_
    simp [State.doDoneFrame, hok, hactive, hconf]
  · refine next_settle_eq (t := s.doLight g.val l.val) ?_
    simp [State.doLight, hwait]
  · refine next_settle_eq (t := s.doLock g.val m.toNat) ?_
    simp [State.doLock, hlock, hspare]
  · refine next_settle_eq (t := s.doPauseExpiry g.val) ?_
    simp [State.doPauseExpiry, hpaused]
  · refine next_settle_eq (t := s.doPortTimeout g.val) ?_
    rcases hstate with h | h
    · simp [State.doPortTimeout, h]
    · simp [State.doPortTimeout, h]
  · refine next_settle_eq (t := s.doPortTimeout g.val) ?_
    simp [State.doPortTimeout, hstate, hpaused]
  · dsimp only
    intro hactive
    refine next_settle_eq (t := s.doLaneFail g.val l.val lost marked corrected symbols) ?_
    simp [State.doLaneFail, hactive]
  · refine next_settle_eq (t := s.doDark g.val) ?_
    simp [State.doDark, hactive]

end Sys2Proof.Machine
end

section
/-! O38: the rows of fabric transactions. -/

namespace Sys2Proof.Machine

/-- A fabric row consumes the front transaction of its operation code. -/
theorem State.onTxn_of_op {s : State} {x op : Nat} {t : Txn} {rest : List Txn} (hfront : (s.lx x).inq = t :: rest)
    (hop : t.op = op) (f : State → Txn → State) :
    s.onTxn x op f = f ((s.setLx x { s.lx x with inq := rest }).freeBufs t) t := by
  rw [← hop, onTxn_front hfront]

/-- A response or read data ends the request that it fits, and is counted when it does not fit. -/
theorem State.doTxnResp_found {s : State} {x op : Nat} {t : Txn} {rest : List Txn} {o : Outst}
    (hfront : (s.lx x).inq = t :: rest) (hop : t.op = op)
    (hout : SMap.find? t.txn (((s.setLx x { s.lx x with inq := rest }).freeBufs t).lx t.srcLink).outst = some o) :
    s.doTxnResp x op =
      let u := (s.setLx x { s.lx x with inq := rest }).freeBufs t
      if o.fits t then u.settleTxn t.srcLink t.txn (.ofCode (fld t.aux 7 0)) (fld t.aux 31 24) t.data
      else u.bump 32 0x8A05 x 1 := by
  rw [doTxnResp, onTxn_of_op hfront hop]
  dsimp only
  rw [hout]

/-- Settles O38. -/
theorem transactionRowsComplete : Obligations.TransactionRowsComplete := by
  intro x s t rest hfront
  dsimp only
  refine ⟨fun v w st hop hheld hadmit hwin hsave hwrite => ?_, fun v w st bs hop hheld hadmit hwin hsave hread => ?_,
    fun v hheld hsave => ⟨fun hop hadmit => ?_, fun hop hadmit => ?_⟩, fun hheld => ⟨?_, ?_⟩,
    fun v d b hop hplace hadmit hfused => ?_, fun v st hop hvote => ?_, fun v hop hctl hopen => ?_,
    fun v what left hop hctl hclose => ?_, fun hop => ?_, fun o hout => ⟨fun hop => ?_, fun hop => ?_⟩, fun n o hout => ?_⟩
  · refine next_settle_eq (t := s.doTxnWrite x.val) ?_
    simp [State.doTxnWrite, hheld, State.onTxn_of_op hfront hop, hadmit, hwin, hsave, hwrite]
  · refine next_settle_eq (t := s.doTxnRead x.val) ?_
    simp [State.doTxnRead, hheld, State.onTxn_of_op hfront hop, hadmit, hwin, hsave, hread]
  · refine next_settle_eq (t := s.doTxnWrite x.val) ?_
    simp [State.doTxnWrite, hheld, State.onTxn_of_op hfront hop, hadmit, hsave]
  · refine next_settle_eq (t := s.doTxnRead x.val) ?_
    simp [State.doTxnRead, hheld, State.onTxn_of_op hfront hop, hadmit, hsave]
  · refine next_settle_eq (t := s.doTxnWrite x.val) ?_
    rw [State.doTxnWrite, if_pos hheld]
  · refine next_settle_eq (t := s.doTxnRead x.val) ?_
    rw [State.doTxnRead, if_pos hheld]
  · refine next_settle_eq (t := s.doTxnArrive x.val) ?_
    simp [State.doTxnArrive, State.onTxn_of_op hfront hop, hadmit, hplace, hfused]
  · refine next_settle_eq (t := s.doTxnVote x.val) ?_
    simp [State.doTxnVote, State.onTxn_of_op hfront hop, hvote]
  · refine next_settle_eq (t := s.doTxnOpen x.val) ?_
    simp [State.doTxnOpen, State.onTxn_of_op hfront hop, hctl, hopen]
  · refine next_settle_eq (t := s.doTxnClose x.val) ?_
    simp [State.doTxnClose, State.onTxn_of_op hfront hop, hctl, hclose]
  · refine next_settle_eq (t := s.doTxnEpoch x.val) ?_
    rw [State.doTxnEpoch, State.onTxn_of_op hfront hop]
  · exact next_settle_eq (State.doTxnResp_found hfront hop hout)
  · exact next_settle_eq (State.doTxnResp_found hfront hop hout)
  · refine next_settle_eq (t := s.doAbandon x.val n.toNat) ?_
    rw [State.doAbandon, hout]

end Sys2Proof.Machine
end

section
/-! O40: the rows of the host ports. -/

namespace Sys2Proof.Machine

theorem toNat_ne_zero_of_ne {n : Nat} {v : BitVec n} (h : v ≠ 0) : v.toNat ≠ 0 := fun hv =>
  h (BitVec.eq_of_toNat_eq (by rw [hv]; rfl))

/-- A port whose oldest request waits serves none. -/
theorem State.rxServeN_waits {w : State} {p : Nat} {x : Nat × RxMsg} {t : List (Nat × RxMsg)}
    (hinq : (w.hport p).inq = x :: t) (hwait : w.rxWaits x.2 = true) (k : Nat) : State.rxServeN p k w = w := by
  cases k with
  | zero => rfl
  | succ k => rw [rxServeN, hinq]; exact if_pos hwait

/-- A request that joins the receive buffer behind one that waits leaves the buffer standing. -/
theorem State.rxTake_waits {s v : State} {p q k : Nat} {ce : Bool} {m : RxMsg} {x : Nat × RxMsg} {t : List (Nat × RxMsg)}
    (h : s.takesRoce p q k ce v) (hinq : (v.hport p).inq = x :: t)
    (hwait : (v.setHport p { v.hport p with inq := x :: t ++ [(q, m)] }).rxWaits x.2 = true) :
    s.rxTake p q k ce m = (v.setHport p { v.hport p with inq := x :: t ++ [(q, m)] }).flowControl p := by
  have hold : ((v.setHport p { v.hport p with inq := x :: t ++ [(q, m)] }).hport p).inq = x :: (t ++ [(q, m)]) := by
    rw [setHport_hport, List.cons_append]
  rw [rxTake, roceIn_takes h, hinq, rxPump, rxServeN_waits hold hwait]

theorem State.rxSend_taken {u : State} {p q d r : Nat} {data : Bytes} (hring : u.ringOf p q = some (d, r))
    (hroom : 64 ≤ u.intakeFree d r) (hgot : (u.intake d r).got = 0) (hvoid : (u.intake d r).curVoid = false) :
    u.rxSend p q data = ((u.intakeBytes d r 0 data).intakeCommit d r data.length).sendAck p q data.length := by
  unfold rxSend
  simp only [hring, if_neg (Nat.not_lt.2 hroom), hgot, hvoid, beq_self_eq_true, Bool.not_false, Bool.and_self, if_true]

theorem State.rxWrite_window {u v w : State} {p q va rkey : Nat} {data : Bytes} (hkey : rkey ≠ 0)
    (hwin : u.hostWindow p q rkey va data.length .write = (v, .ok)) (hwrite : v.writeLocal .host va data = (w, .ok)) :
    u.rxWrite p q va rkey data = w.sendAck p q data.length := by
  simp [rxWrite, hkey, hwin, hwrite]

theorem State.rxWrite_page {u w : State} {p q va : Nat} {data : Bytes} (hpage : u.pageWrite p q va data = some w) :
    u.rxWrite p q va 0 data = w.sendAck p q data.length := by
  simp [rxWrite, hpage]

theorem State.rxRead_window {u v w : State} {p q va rkey len : Nat} {bs : Bytes} (hkey : rkey ≠ 0)
    (hwin : u.hostWindow p q rkey va len .read = (v, .ok)) (hread : v.readLocal va len = (w, .ok, bs)) :
    u.rxRead p q va rkey len = w.sendData p q bs := by
  simp [rxRead, hkey, hwin, hread]

/-- XOFF above 1.5 MiB, XON below 1 MiB, and nothing in between (R317). -/
theorem State.flowControl_cases {s : State} {p : Nat} (hup : s.linkUp p = true) :
    ((s.hport p).xoff = false → 0x180000 < s.rxHeld p →
      s.flowControl p = ((s.setHport p { s.hport p with xoff := true }).bump 32 0x8B01 p 1).emit
        (.pfc p (s.reg (0x5800 + p) 4) 0xFFFF)) ∧
    ((s.hport p).xoff = true → s.rxHeld p < 0x100000 →
      s.flowControl p = (s.setHport p { s.hport p with xoff := false }).emit (.pfc p (s.reg (0x5800 + p) 4) 0)) ∧
    (0x100000 ≤ s.rxHeld p → s.rxHeld p ≤ 0x180000 → s.flowControl p = s) := by
  refine ⟨fun hoff hheld => ?_, fun hon hheld => ?_, fun hlow hhigh => ?_⟩
  · simp [flowControl, hup, hoff, hheld]
  · simp [flowControl, hup, hon, hheld]
  · simp [flowControl, hup, Nat.not_lt.2 hlow, Nat.not_lt.2 hhigh]

/-- Settles O40. -/
theorem hostRowsComplete : Obligations.HostRowsComplete := by
  intro p q s
  dsimp only
  refine ⟨fun quanta hup hquanta => ?_, fun hup => ?_, fun hup hstate => ?_, fun hstate => ?_,
    fun ce data d r u hserve hring hroom hgot hvoid => ?_, fun ce va rkey data u v w hkey hserve hwin hwrite => ?_,
    fun ce va rkey len u v w bs hkey hserve hwin hread => ?_, fun ce d r v u w hserve hpage => ?_,
    fun ce va rkey data v x t htake hinq hwait => ?_, fun hup => State.flowControl_cases hup,
    fun ce u x t htake hold hread hsent => ?_, fun ce data u x t htake hold hread hsent hlen => ?_, fun ce u htake => ?_,
    fun ce u htake hsent hlim => ?_, fun hstate hsent hfew => ?_, fun target sender mac hup hset hown => ?_,
    fun target sender mac hup hset hown => ?_, fun target sender data hup hset hown => ?_, fun pt cl => rfl⟩
  · refine next_settle_eq (t := s.doPfc p.val quanta.toNat) ?_
    simp [State.doPfc, hup, toNat_ne_zero_of_ne hquanta]
  · refine next_settle_eq (t := s.doPfcRefresh p.val) ?_
    simp [State.doPfcRefresh, hup]
  · refine next_settle_eq (t := s.doCnp p.val q.val) ?_
    simp [State.doCnp, hup, hstate]
  · refine next_settle_eq (t := s.doCnpRecovery p.val q.val) ?_
    simp [State.doCnpRecovery, hstate]
  · refine next_settle_eq (t := s.doSend p.val q.val ce data) ?_
    rw [State.doSend, State.rxTake_serves hserve, State.rxServe, State.rxSend_taken hring hroom hgot hvoid]
  · refine next_settle_eq (t := s.doRdmaWrite p.val q.val ce va.toNat rkey.toNat data) ?_
    rw [State.doRdmaWrite, State.rxTake_serves hserve, State.rxServe,
      State.rxWrite_window (toNat_ne_zero_of_ne hkey) hwin hwrite]
  · refine next_settle_eq (t := s.doRdmaRead p.val q.val ce va.toNat rkey.toNat len) ?_
    rw [State.doRdmaRead, State.rxTake_serves hserve, State.rxServe,
      State.rxRead_window (toNat_ne_zero_of_ne hkey) hwin hread]
  · refine next_settle_eq (t := s.doCommitDoorbell p.val q.val ce d.val r.val v.toNat) ?_
    rw [State.doCommitDoorbell, State.doRdmaWrite, length_natLe, State.rxTake_serves hserve, State.rxServe,
      State.rxWrite_page hpage, length_natLe]
  · refine next_settle_eq (t := s.doRdmaWrite p.val q.val ce va.toNat rkey.toNat data) ?_
    rw [State.doRdmaWrite, State.rxTake_waits htake hinq hwait]
  · refine next_settle_eq (t := s.doAck p.val q.val ce) ?_
    simp [State.doAck, State.roceIn_takes htake, hold, hread, hsent]
  · refine next_settle_eq (t := s.doReadResponse p.val q.val ce data) ?_
    simp [State.doReadResponse, State.roceIn_takes htake, hold, hread, hsent, hlen]
  · refine next_settle_eq (t := s.doNak p.val q.val ce) ?_
    rw [State.doNak, State.roceIn_takes htake]
  · refine next_settle_eq (t := s.doRnrNak p.val q.val ce) ?_
    simp only [State.doRnrNak, State.roceIn_takes htake, hsent, hlim, Bool.false_eq_true, if_false, ne_eq,
      not_true_eq_false, false_and]
  · refine next_settle_eq (t := s.doQpTimeout p.val q.val) ?_
    simp only [State.doQpTimeout, hstate, hsent, Nat.not_le.2 hfew, ne_eq, not_true_eq_false, decide_false, Bool.or_false,
      Bool.false_eq_true, if_false]
  · refine next_settle_eq (t := s.doArp p.val target.toNat sender.toNat mac.toNat) ?_
    have htarget := hown ▸ hset
    simp only [State.doArp, hup, Bool.not_true, Bool.false_eq_true, if_false, hown, htarget, ne_eq, not_false_eq_true,
      and_self, if_true]
  · refine next_settle_eq (t := s.doNeighbour p.val target.toNat sender.toNat mac.toNat) ?_
    have htarget := hown ▸ hset
    simp only [State.doNeighbour, hup, Bool.not_true, Bool.false_eq_true, if_false, hown, htarget, ne_eq, not_false_eq_true,
      and_self, if_true]
  · refine next_settle_eq (t := s.doEcho p.val false target.toNat sender.toNat data) ?_
    have htarget := hown ▸ hset
    simp only [State.doEcho, hup, Bool.not_true, Bool.false_eq_true, if_false, hown, htarget, ne_eq, not_false_eq_true,
      and_self, if_true]

end Sys2Proof.Machine
end

section
/-! O42, O43: the rows of the reference, of power and temperature. -/

namespace Sys2Proof.Machine

/-- The phase does not depend on entries other than `boot.state`. -/
theorem State.inPhase_setReg_of_ne {i k : Nat} (hk : k < 256) (hi : i ≠ 0x2030) (s : State) (v n : Nat) :
    (s.setReg i k v).inPhase n = s.inPhase n := by
  simp only [inPhase, phase, haltedBoot, reg_setReg_of_ne hk (show 0 < 256 by decide) (Or.inl hi.symm)]

theorem State.inPhase_modPower (s : State) (f : Power → Power) (n : Nat) : (s.modPower f).inPhase n = s.inPhase n := rfl

/-- Settles O42: each row, in the case in which it acts. -/
theorem referenceRowsComplete : Obligations.ReferenceRowsComplete := by
  intro p u s
  dsimp only
  refine ⟨fun hrecv hgood hphase => ?_, fun hphase hsrc hrun => ?_, fun hrun => ?_,
    fun count hlow hhigh hlocked hcount hhold hport hcand => ?_, fun hrelock hphase => ?_,
    fun hphase hsource hrelock => ?_, fun hhold => ?_⟩
  · refine next_settle_eq (t := s.doLinkUp p.val) ?_
    have hphase' : ((s.setReg (0x5800 + p.val) 7 1).setReg 0x2000 3
        (setFld (s.reg 0x2000 3) p.val p.val 1)).inPhase 1 = false := by
      rw [State.inPhase_setReg_of_ne (by decide) (by decide), State.inPhase_setReg_of_ne (by decide) (by omega), hphase]
    simp only [State.doLinkUp, hrecv, hgood, hphase', Bool.not_true, Bool.or_self, Bool.false_and, Bool.false_eq_true,
      if_false]
  · refine next_settle_eq (t := s.doLinkDown p.val) ?_
    simp only [State.doLinkDown, hphase, hsrc, hrun, Bool.false_and, Bool.false_eq_true, if_false, and_self, if_true]
  · refine next_settle_eq (t := s.doRefLoss) ?_
    rw [State.doRefLoss, if_pos hrun]
  · refine next_settle_eq (t := s.doCandidate p.val count) ?_
    simp only [State.doCandidate, State.switchTo, hlow, hhigh, hlocked, hcount, hhold, hport, hcand, decide_true,
      Bool.and_self, reduceCtorEq, if_false, and_self, if_true]
  · refine next_settle_eq (t := s.doPllStable (unitOf u)) ?_
    simp only [State.doPllStable, hrelock, if_true, State.inPhase_modPower, hphase, Bool.false_eq_true, if_false]
  · refine next_settle_eq (t := s.doPllTimeout (unitOf u)) ?_
    have hthere : (s.reg 0x2000 1 != 1 && s.power.port.isNone) = false := by
      rcases hsource with h | h
      · simp [h]
      · simp [Option.isNone_eq_false_iff.2 h]
    simp only [State.doPllTimeout, hphase, hthere, hrelock, Bool.or_self, Bool.false_eq_true, if_false, if_true]
  · refine next_settle_eq (t := s.doHoldover) ?_
    rw [State.doHoldover, if_pos hhold]

/-- A sample of an input in range, of the first nine, joins the average (R469). -/
theorem State.doInput_inRange {s : State} {mv ma : Int} (hlow : 0 ≤ mv) (hhigh : mv ≤ 60000) (hamps : ma ≤ 400000)
    (hfew : s.power.volts.length < 9) :
    s.doInput mv ma = .next (s.modPower fun p =>
      { p with volts := p.volts ++ [mv], amps := p.amps ++ [ma], over400 := 0 }) := by
  have hdamage : ¬ mv < -300 := by omega
  have hover4 : ¬ 400000 < ma := by omega
  have hover44 : ¬ 440000 < ma := by omega
  have hvolts : ¬ 60000 < mv := by omega
  have hlen : (s.power.volts ++ [mv]).length < 10 := by rw [List.length_append, List.length_singleton]; omega
  simp only [doInput, if_neg hdamage, if_neg hover4, hover44, hvolts, if_pos hlen, decide_false, Bool.false_and,
    Bool.or_self, Bool.false_eq_true, if_false, show ¬ 50 < 0 from by decide]
  rfl

/-- Settles O43: each row, in the case in which it acts. -/
theorem powerRowsComplete : Obligations.PowerRowsComplete := by
  intro d g s
  refine ⟨fun m hmove hlocked => ?_, rfl, fun x t hphase hcool => ?_, fun hon hidle hbudget => ?_,
    fun mv ma hlow hhigh hamps hfew => ?_⟩
  · refine next_settle_eq (t := s.doSettled d.val) ?_
    simp only [State.doSettled, hmove, hlocked, if_true]
  · refine next_settle_eq (t := s.doThermal (64 + x.val) t) ?_
    have hx : x.val < 16 := x.isLt
    have hnocd : ¬ 64 + x.val < 64 := by omega
    have hmx : 64 + x.val < 80 := by omega
    have hon : s.powered = true := decide_eq_true hphase
    have hphase0 : ¬ s.phase = 0 := by omega
    simp only [State.doThermal, hnocd, hon, hphase0, hmx, decide_false, Bool.false_and, Bool.not_true, Bool.and_false,
      Bool.or_self, Bool.false_eq_true, if_false, if_true, if_neg (Int.not_le.2 hcool), Nat.add_sub_cancel_left]
  · refine next_settle_eq (t := s.doGate d.val g.val) ?_
    simp only [State.doGate, hon, hidle, hbudget, decide_true, Bool.and_self, if_true]
  · have hinput : exec (.inputSample mv ma) s = execInputSample mv ma s := rfl
    rw [hinput, execInputSample, State.doInput_inRange hlow hhigh hamps hfew]

end Sys2Proof.Machine
end

section
/-! O44, O45: the rows of the management dies, of start-up, of firmware, attestation and the TAP. -/

namespace Sys2Proof.Machine

/-- A key that a filter keeps holds its entry, and one that it does not keep holds none. -/
theorem find_filter_key {α : Type} (keep : Nat → Bool) (k : Nat) (m : SMap α) :
    SMap.find? k (List.filter (fun e => keep e.1) m) = if keep k then SMap.find? k m else none := by
  induction m with
  | nil => simp [SMap.find?]
  | cons e t ih =>
    obtain ⟨a, v⟩ := e
    by_cases hk : a = k
    · subst hk
      cases ha : keep a <;> simp [ha, SMap.find?, ih]
    · cases ha : keep a <;> simp [ha, SMap.find?, ih, hk]

/-- The loss of standby keeps the persistent entries and resets the others (R416). -/
theorem State.reg_doStandbyLoss (s : State) (i k : Nat) :
    s.doStandbyLoss.reg i k = if dictPers (rk i k) = .persistent then s.reg i k else State.reset.reg i k := by
  have hdict : s.doStandbyLoss.dict = List.filter (fun e : Nat × Nat => dictPers e.1 == .persistent) s.dict := rfl
  rw [reg, hdict, find_filter_key (fun key => dictPers key == .persistent)]
  by_cases hkept : dictPers (rk i k) = .persistent
  · simp [hkept, reg]
  · simp [hkept, reg, reset, SMap.find?]

theorem State.phase_doStandbyLoss (s : State) : s.doStandbyLoss.phase = 0 := by
  rw [phase, reg_doStandbyLoss, if_neg (by decide)]
  decide

/-- Settles O44: each row, in the case in which it acts. -/
theorem startUpRowsComplete : Obligations.StartUpRowsComplete := by
  intro u s
  refine ⟨fun hactive => ?_, fun hactive => ?_, fun hstandby => ?_, fun hstandby => ?_, fun hoff => ?_,
    ⟨s.doStandbyLoss, rfl, s.phase_doStandbyLoss, rfl, rfl, rfl, rfl, s.reg_doStandbyLoss⟩, fun hphase hrun => ?_,
    fun hphase hrange hramp => ⟨?_, ?_⟩, rfl, rfl⟩
  · refine next_settle_eq (t := s.doHeartbeat) ?_
    rw [State.doHeartbeat, if_pos hactive]
  · refine next_settle_eq (t := s.doTakeover) ?_
    rw [State.doTakeover, if_pos hactive]
  · refine next_settle_eq (t := s.doModReset) ?_
    simp only [State.doModReset, hstandby, Bool.not_true, Bool.false_eq_true, if_false]
  · refine next_settle_eq (t := s.doStbyLow) ?_
    simp only [State.doStbyLow, hstandby, Bool.not_true, Bool.false_eq_true, if_false]
  · refine next_settle_eq (t := s.doStandbyOn) ?_
    simp only [State.doStandbyOn, hoff, Bool.false_eq_true, if_false]
  · refine next_settle_eq (t := s.doPhaseTimeout) ?_
    simp only [State.doPhaseTimeout, hphase, hrun, Bool.false_eq_true, if_false]
    rfl
  · refine next_settle_eq (t := s.doRampDone (unitOf u)) ?_
    simp only [State.doRampDone, hphase, hrange, hramp, Bool.and_self, if_true]
  · refine next_settle_eq (t := s.doRampTimeout (unitOf u)) ?_
    simp only [State.doRampTimeout, hphase, hrange, hramp, Bool.and_self, if_true]

/-- An instruction of a TAP that is on selects its register and shifts out what that holds (R433). -/
theorem State.tapSelect_on {s : State} (hon : s.tapOn = true) (code : Nat) (out : List Bool) :
    s.tapSelect code out = (s.modDbg fun d => { d with ir := code }).emit (.tap out) := if_pos hon

/-- A draw from the random source leaves the device's key. -/
theorem State.devicePub_of_draw {s u : State} {r : BitVec 256} (h : s.draw = (r, u)) : u.devicePub = s.devicePub := by
  have hu : u = s.draw.2 := by rw [h]
  rw [hu]
  rfl

/-- Settles O45: each row, in the case in which it acts. -/
theorem trustAndTapRowsComplete : Obligations.TrustAndTapRowsComplete := by
  intro k q s
  refine ⟨fun hverify => ?_, fun nonce r u hforming hdraw => ?_, fun hon =>
    ⟨?_, ?_, ?_, ?_, ?_, ?_, fun hir => ?_⟩⟩
  · refine next_settle_eq (t := s.doVerifyDone k.val) ?_
    simp only [State.doVerifyDone, hverify, if_true]
  · refine next_settle_eq (t := s.doReportReady) ?_
    simp only [State.doReportReady, hforming, hdraw, State.devicePub_of_draw hdraw]
  · exact next_settle_eq (State.tapSelect_on hon ..)
  · exact next_settle_eq (State.tapSelect_on hon ..)
  · exact next_settle_eq (State.tapSelect_on hon ..)
  · exact next_settle_eq (State.tapSelect_on hon ..)
  · refine next_settle_eq (t := s.doTapReset) ?_
    rw [State.doTapReset, if_pos hon]
  · refine next_settle_eq (t := s.doDbgXfer) ?_
    rw [State.doDbgXfer, if_pos hon]
  · refine next_settle_eq (t := s.doDbgNop) ?_
    rw [State.doDbgNop, if_pos (by rw [hon, hir]; rfl)]
    rfl

end Sys2Proof.Machine
end

section
/-! O46: the debug requests of unlocking and of scope RUN. -/

namespace Sys2Proof.Machine

/-! The scan shifts out a response, and reads and writes nothing else. -/

@[simp] theorem State.dbgScan_reg (s : State) (i k : Nat) : s.dbgScan.reg i k = s.reg i k := rfl
@[simp] theorem State.dbgScan_dbg (s : State) : s.dbgScan.dbg = s.dbg := rfl
@[simp] theorem State.dbgScan_localNs (s : State) : s.dbgScan.localNs = s.localNs := rfl
@[simp] theorem State.dbgScan_unlocked (s : State) : s.dbgScan.unlocked = s.unlocked := rfl
@[simp] theorem State.dbgScan_coreGone (s : State) (n : Nat) : s.dbgScan.coreGone n = s.coreGone n := rfl
@[simp] theorem State.dbgScan_dbgSaved (s : State) (n h : Nat) : s.dbgScan.dbgSaved n h = s.dbgSaved n h := rfl
@[simp] theorem State.dbgScan_dbgCtx (s : State) (n h : Nat) : s.dbgScan.dbgCtx n h = s.dbgCtx n h := rfl

/-- A well-formed debug request of an open scope acts after the scan. -/
theorem State.dbgRequest_sound {s : State} {scope op seq arg : Nat} {bad : Bool} {body : State → State}
    (hready : s.dbgReady scope) (hbad : bad = false) : s.dbgRequest op seq arg scope bad body = body s.dbgScan := by
  rw [hbad, dbgRequest_ready hready]

/-- A well-formed debug request of a context acts on a core that is there. -/
theorem State.dbgOnCtx_sound {s : State} {op seq arg data : Nat} {bad : Bool} {body : State → State}
    (hready : s.dbgReady scopeRun) (hdata : data = 0) (hbad : bad = false) (hthere : s.coreGone (argCore arg) = none) :
    s.dbgOnCtx op seq arg data bad body = body s.dbgScan := by
  rw [dbgOnCtx, dbgRequest_sound hready (by rw [hdata, hbad]; rfl)]
  simp only [dbgScan_coreGone, hthere]

/-- A challenge is answered on a device whose debug policy allows it, outside the time after failures (R436). -/
theorem State.challenge_ok {s : State} (hpolicy : s.reg 0x7030 0 ≠ 0) (hfree : s.dbg.blocked ≤ s.localNs) :
    lowest (conds [(s.reg 0x7030 0 == 0, .accessDenied), (decide (s.localNs < s.dbg.blocked), .busy)]) = .ok := by
  simp [conds, hpolicy, Nat.not_lt.2 hfree, lowest]

theorem State.doChallenge_word {s : State} {seq arg : Nat} (hready : s.dbgReady 0) (harg : fld arg 47 2 = 0)
    (hword : fld arg 1 0 ≠ 0) (hpolicy : s.reg 0x7030 0 ≠ 0) (hfree : s.dbg.blocked ≤ s.localNs) :
    s.doChallenge seq arg 0
      = (s.dbgScan.dbgReply seq .ok (leNat (sliceZ s.dbg.nonce (8 * fld arg 1 0) 8))).flushMerge := by
  have hok : lowest (conds [(s.dbgScan.reg 0x7030 0 == 0, .accessDenied),
      (decide (s.dbgScan.localNs < s.dbgScan.dbg.blocked), .busy)]) = .ok := challenge_ok hpolicy hfree
  rw [doChallenge, dbgRequest_sound hready (by rw [harg]; rfl)]
  dsimp only
  rw [hok]
  simp only [hword, and_false, if_false, if_true, dbgScan_dbg]

theorem State.doChallenge_first {s v : State} {r : BitVec 256} {seq : Nat} (hready : s.dbgReady 0)
    (hpolicy : s.reg 0x7030 0 ≠ 0) (hfree : s.dbg.blocked ≤ s.localNs) (hdraw : s.dbgScan.draw = (r, v)) :
    s.doChallenge seq 0 0 =
      ((v.modDbg fun d => { d with nonce := natLe 32 r.toNat, sig := [] }).dbgReply seq .ok
        (leNat (sliceZ (natLe 32 r.toNat) 0 8))).dbgNote 0x01 0 .ok 0 0 := by
  have hok : lowest (conds [(s.dbgScan.reg 0x7030 0 == 0, .accessDenied),
      (decide (s.dbgScan.localNs < s.dbgScan.dbg.blocked), .busy)]) = .ok := challenge_ok hpolicy hfree
  have hword : fld 0 1 0 = 0 := by decide
  rw [doChallenge, dbgRequest_sound hready (by decide)]
  dsimp only
  rw [hok, hdraw]
  simp only [hword, and_self, if_true]
  rfl

/-- Every word of a signature but the last is kept, and answered. -/
theorem State.doRespond_word {s : State} {seq arg data : Nat} (hready : s.dbgReady 0) (harg : fld arg 40 3 = 0)
    (hword : fld arg 2 0 ≠ 7) :
    s.doRespond seq arg data
      = (s.dbgScan.modDbg fun d => { d with sig := SMap.put (fld arg 2 0) (BitVec.ofNat 64 data) d.sig }).dbgDone
          0x02 seq arg .ok 0 := by
  rw [doRespond, dbgRequest_sound hready (by rw [harg]; rfl)]
  dsimp only
  rw [if_pos hword]

/-- The last word of a signature that verifies unlocks the port. -/
theorem State.doRespond_last {s : State} {seq arg data : Nat} (hready : s.dbgReady 0) (harg : fld arg 40 3 = 0)
    (hword : fld arg 2 0 = 7)
    (hvalid : (s.dbgScan.modDbg fun d => { d with sig := SMap.put (fld arg 2 0) (BitVec.ofNat 64 data) d.sig }).unlocks
      (fld arg 47 44) (fld arg 43 41) = true) :
    s.doRespond seq arg data
      = (((((s.dbgScan.modDbg fun d => { d with sig := SMap.put (fld arg 2 0) (BitVec.ofNat 64 data) d.sig }).modDbg
          fun d => { d with nonce := [], sig := [] }).setReg 0x7030 2
            (2 ^ 15 + 2 ^ 14 + fld arg 43 41 <<< 11 + fld arg 47 44 <<< 4)).bump 32 0x8F10 0 1).dbgDone 0x02 seq arg
              .ok 0) := by
  rw [doRespond, dbgRequest_sound hready (by rw [harg]; rfl)]
  dsimp only
  rw [if_neg (fun h => h hword), hvalid, if_pos rfl]

/-- A halt that finds the context running waits for its next command boundary (R437). -/
theorem State.haltCtx_running {s : State} {seq arg n h : Nat} (hrun : (s.dbgCtx n h).halted = false)
    (hstate : (s.dbgCtx n h).state ≠ .waiting) :
    s.haltCtx seq arg n h = (s.modDbgCtx n h fun x => { x with haltReq := true }).dbgWait seq (.halt n h) := by
  simp [haltCtx, hrun, hstate]

/-- A halt of a waiting context takes effect at once (R437). -/
theorem State.haltCtx_waiting {s : State} {seq arg n h : Nat} (hrun : (s.dbgCtx n h).halted = false)
    (hsaved : s.dbgSaved n h = none) (hstate : (s.ctx n h).state = .waiting) :
    s.haltCtx seq arg n h
      = (s.modCtx n h fun x => { x with halted := true }).dbgDone 0x10 seq arg .ok 0 (s.haltTag n (s.dbgCtx n h)) := by
  have hctx : s.dbgCtx n h = s.ctx n h := by rw [dbgCtx, hsaved]
  simp [haltCtx, hrun, hsaved, modDbgCtx, hctx ▸ hstate]

theorem State.doHaltEffect_due {s : State} {n h : Nat} (hstate : (s.ctx n h).state = .running)
    (hcmd : (s.ctx n h).cmd = none) (hrun : (s.ctx n h).halted = false) (hdue : s.haltDue n h = true) :
    (s.dbg.busy = none → s.doHaltEffect n h
      = s.setCtx n h { s.ctx n h with halted := true, haltReq := false }) ∧
    ∀ seq, s.dbg.busy = some (seq, .halt n h) → s.doHaltEffect n h
      = (s.setCtx n h { s.ctx n h with halted := true, haltReq := false }).dbgDone 0x10 seq (h <<< 14 + n) .ok 0
          (s.haltTag n (s.ctx n h)) := by
  have hbusy : (s.setCtx n h { s.ctx n h with halted := true, haltReq := false }).dbg.busy = s.dbg.busy := rfl
  have hguard : ((s.ctx n h).state == .running && (s.ctx n h).cmd.isNone && !(s.ctx n h).halted && s.haltDue n h)
      = true := by simp [hstate, hcmd, hrun, hdue]
  rw [doHaltEffect]
  dsimp only
  rw [if_pos hguard, hbusy]
  refine ⟨fun hnone => ?_, fun seq hhalt => ?_⟩
  · rw [hnone]
  · rw [hhalt]
    exact if_pos ⟨rfl, rfl⟩

/-- Settles O46: each row, in the case in which it acts. -/
theorem debugRunRowsComplete : Obligations.DebugRunRowsComplete := by
  intro q a w s
  dsimp only
  refine ⟨fun hready hd hx hword hpolicy hfree => ?_, fun hready hd hx hpolicy hfree r v hdraw => ?_,
    fun hready hx => ⟨fun hword => ?_, fun hword hvalid => ?_⟩, fun hready hd hx hopen => ?_,
    fun hready hd hx hgone hrun hstate => ?_, fun hready hd hx hgone hrun hsaved hstate => ?_,
    fun hready hd hx hgone => ?_, fun hready hd hx hgone hhalted => ?_, fun hready hd hx hitem hgone => ?_,
    fun hready hd hkind hx hall => ?_, fun hready hd hx => ?_, fun k g hstate hcmd hrun hdue hbusy => ?_,
    fun k g seq hstate hcmd hrun hdue hbusy => ?_, rfl⟩
  · refine next_settle_eq (t := s.doChallenge q.toNat a.toNat w.toNat) ?_
    rw [hd, State.doChallenge_word hready hx hword hpolicy hfree]
  · refine next_settle_eq (t := s.doChallenge q.toNat a.toNat w.toNat) ?_
    rw [hd, hx, State.doChallenge_first hready hpolicy hfree hdraw]
  · refine next_settle_eq (t := s.doRespond q.toNat a.toNat w.toNat) ?_
    rw [State.doRespond_word hready hx hword, BitVec.ofNat_toNat, BitVec.setWidth_eq]
  · refine next_settle_eq (t := s.doRespond q.toNat a.toNat w.toNat) ?_
    have hsig : BitVec.ofNat 64 w.toNat = w := by rw [BitVec.ofNat_toNat, BitVec.setWidth_eq]
    rw [State.doRespond_last hready hx hword (hsig.symm ▸ hvalid), hsig]
  · refine next_settle_eq (t := s.doDbgLock q.toNat a.toNat w.toNat) ?_
    rw [State.doDbgLock, State.dbgRequest_sound hready (by rw [hd, hx]; rfl)]
    exact if_pos hopen
  · refine next_settle_eq (t := s.doHalt q.toNat a.toNat w.toNat) ?_
    rw [State.doHalt, State.dbgOnCtx_sound hready hd (by rw [hx]; rfl) hgone]
    exact State.haltCtx_running hrun hstate
  · refine next_settle_eq (t := s.doHalt q.toNat a.toNat w.toNat) ?_
    rw [State.doHalt, State.dbgOnCtx_sound hready hd (by rw [hx]; rfl) hgone]
    exact State.haltCtx_waiting (s := s.dbgScan) hrun hsaved hstate
  · refine next_settle_eq (t := s.doDbgResume q.toNat a.toNat w.toNat) ?_
    rw [State.doDbgResume, State.dbgOnCtx_sound hready hd (by rw [hx]; rfl) hgone]
  · refine next_settle_eq (t := s.doStep q.toNat a.toNat w.toNat) ?_
    rw [State.doStep, State.dbgOnCtx_sound hready hd (by rw [hx]; rfl) hgone]
    dsimp only
    rw [State.dbgScan_dbgCtx, hhalted]
    rfl
  · refine next_settle_eq (t := s.doCtxRead q.toNat a.toNat w.toNat) ?_
    rw [State.doCtxRead, State.dbgOnCtx_sound hready hd (by simp [hx, Nat.not_lt.2 hitem]) hgone]
  · refine next_settle_eq (t := s.doBreakSet q.toNat a.toNat w.toNat) ?_
    have hbad : (decide (65535 < w.toNat) || fld a.toNat 43 42 == 0 || fld a.toNat 43 42 == 3 ||
        fld a.toNat 32 14 != 0 || (bit a.toNat 41 && fld a.toNat 13 0 != 0)) = false := by
      rcases hkind with h | h <;> simp [h, hx, hall, Nat.le_of_lt_succ hd]
    rw [State.doBreakSet, State.dbgRequest_sound hready hbad, Nat.mod_eq_of_lt hd, Nat.mod_eq_of_lt a.isLt]
  · refine next_settle_eq (t := s.doBreakClear q.toNat a.toNat w.toNat) ?_
    rw [State.doBreakClear, State.dbgRequest_sound hready (by rw [hd, hx]; rfl)]
  · exact next_settle_eq ((State.doHaltEffect_due hstate hcmd hrun hdue).1 hbusy)
  · exact next_settle_eq ((State.doHaltEffect_due hstate hcmd hrun hdue).2 seq hbusy)

end Sys2Proof.Machine
end

section
/-! O47: the debug requests of scopes READ and WRITE. -/

namespace Sys2Proof.Machine

/-- A read of tun outside the save areas that nothing holds is made at once (R438). -/
theorem State.memOp_tun_read {s t : State} {seq a e off : Nat} {bs : Bytes} (hplace : place a = .tun e off)
    (hsave : s.inSaveArea a = false) (hwaits : s.accessWaits a 8 = false) (hread : s.readLocal a 8 = (t, .ok, bs)) :
    s.memOp seq false a 0 = (t.dbgReply seq .ok (leNat bs)).dbgMerge 0x20 a 8 .ok := by
  simp only [memOp, hplace, hsave, hwaits, Bool.false_and, Bool.false_eq_true, if_false, memLocal, hread, memEnds,
    if_true]

/-- A write of tun outside the save areas that nothing holds is made at once (R438, R439). -/
theorem State.memOp_tun_write {s t : State} {seq a e off data : Nat} (hplace : place a = .tun e off)
    (hsave : s.inSaveArea a = false) (hwaits : s.accessWaits a 8 = false)
    (hwrite : s.writeLocal .debug a (natLe 8 data) = (t, .ok)) :
    s.memOp seq true a data = (t.dbgReply seq .ok 0).dbgNote 0x21 a .ok (leNat (s.bytes a 8)) data := by
  simp only [memOp, hplace, hsave, hwaits, Bool.false_and, Bool.false_eq_true, if_false, memLocal, hwrite, memEnds,
    if_true]

theorem bit_of_lt {v i : Nat} (h : v < 2 ^ i) : bit v i = false := by
  rw [bit_eq_div_mod, Nat.div_eq_of_lt h]
  rfl

/-- Settles O47: each row, in the case in which it acts. -/
theorem debugDataRowsComplete : Obligations.DebugDataRowsComplete := by
  intro q a w s
  dsimp only
  refine ⟨fun e off t bs hready hd hlt halign hplace hsave hwaits hread => ?_,
    fun e off t hready hlt halign hplace hsave hwaits hwrite => ?_, fun bs hready hd hx hread => ?_,
    fun hready hx hx' => ?_, fun t hready hd hx hboot hwrite => ?_⟩
  · refine next_settle_eq (t := s.doMemRead q.toNat a.toNat w.toNat) ?_
    rw [State.doMemRead, State.dbgRequest_sound hready (by rw [hd, bit_of_lt hlt, halign]; rfl), Nat.mod_eq_of_lt hlt,
      State.memOp_tun_read hplace hsave hwaits hread]
  · refine next_settle_eq (t := s.doMemWrite q.toNat a.toNat w.toNat) ?_
    rw [State.doMemWrite, State.dbgRequest_sound hready (by rw [bit_of_lt hlt, halign]; rfl), Nat.mod_eq_of_lt hlt,
      State.memOp_tun_write hplace hsave hwaits hwrite]
  · refine next_settle_eq (t := s.doDictRead q.toNat a.toNat w.toNat) ?_
    have hroles : s.dbgScan.tapRoles = s.tapRoles := rfl
    rw [State.doDictRead, State.dbgRequest_sound hready (by rw [hd, hx]; rfl), hroles, hread]
    rfl
  · refine next_settle_eq (t := s.doDictStage q.toNat a.toNat w.toNat) ?_
    rw [State.doDictStage, State.dbgRequest_sound hready (by rw [hx, hx']; rfl), BitVec.ofNat_toNat, BitVec.setWidth_eq]
  · refine next_settle_eq (t := s.doDictWrite q.toNat a.toNat w.toNat) ?_
    rw [State.doDictWrite, State.dbgRequest_sound hready (by rw [hd, hx]; rfl)]
    dsimp only
    rw [if_neg (fun h => hboot h.1), hwrite]

end Sys2Proof.Machine
end

section
/-! O48, O49: Caddy sessions and the requests of an open session. -/

namespace Sys2Proof.Machine

theorem msgFor_of_type {ty : Nat} {m : Bytes} (h : msgType m = ty) : msgFor ty m = true := by simp [msgFor, h]

/-- A HELLO that nothing refuses opens a half-open session and is answered with its identifier (R451). -/
theorem State.doHello_opened {s v w z : State} {t : Tuple} {m sig : Bytes} {r n : BitVec 256} (hon : s.caddyOn t = true)
    (htype : msgType m = 0x01) (hport : bit ((s.rxFrames t.port.val 1).reg 0x7080 0) t.port.val = true)
    (hlen : 48 ≤ m.length) (hmac : msgMac m = noMac) (hhead : badHeader 0x01 m = false) (hid : msgSession m = 0)
    (hpay : (msgPayload m).length = 32) (hroom : (s.rxFrames t.port.val 1).roomForHello.draw = (r, v))
    (hdraw : v.draw = (n, w))
    (hsign : w.deviceSign (ascii "CDY1" ++ msgPayload m ++ natLe 32 n.toNat ++
      natBe 4 (freeId v.sessIds (r.toNat % 2 ^ 32) (v.sessIds.length + 2)) ++ natLe 8 (w.reg 0x1000 3)) = (sig, z)) :
    s.doHello t m =
      let id := freeId v.sessIds (r.toNat % 2 ^ 32) (v.sessIds.length + 2)
      let device := natLe 32 n.toNat
      ({ z with sessions := z.sessions ++ [{ id := id, tuple := t, isOpen := false, nonces := msgPayload m ++ device }],
                sessIds := z.sessIds ++ [id] } : State).emit
        (.caddy t (plainMsg 0x01 .ok id (msgSeq m) (device ++ natLe 8 (w.reg 0x1000 3) ++ sig))) := by
  have hshort : (decide (m.length < 48) || msgMac m != noMac) = false := by simp [hmac, Nat.not_lt.2 hlen]
  have hbad : (badHeader 0x01 m || msgSession m != 0 || (msgPayload m).length != 32) = false := by
    simp [hhead, hid, hpay]
  simp only [doHello, hon, msgFor_of_type htype, hport, hshort, hbad, Bool.not_true, Bool.or_self, Bool.false_eq_true,
    if_false, hroom, hdraw, hsign]

/-- An OPEN of a half-open session whose signature verifies opens it (R451). -/
theorem State.doOpen_opened {s : State} {t : Tuple} {m : Bytes} {x : Session} (hon : s.caddyOn t = true)
    (htype : msgType m = 0x02) (hsession : (s.rxFrames t.port.val 1).session (msgSession m) = some x) (htuple : x.tuple = t)
    (hhalf : x.isOpen = false) (hlen : 48 ≤ m.length) (hmac : msgMac m = noMac) (hhead : badHeader 0x02 m = false)
    (hpay : (msgPayload m).length = 72) (hflags : leNat (sliceZ (msgPayload m) 1 1) ≤ 1)
    (hzero : leNat (slice (msgPayload m) 2 6) = 0)
    (hslot : (s.rxFrames t.port.val 1).openRefused (leNat (sliceZ (msgPayload m) 0 1)) (msgSeq m) false = none)
    (hvalid : (s.rxFrames t.port.val 1).openValid x (leNat (sliceZ (msgPayload m) 0 1)) (leNat (sliceZ (msgPayload m) 1 1))
      (slice (msgPayload m) 8 64) = true) :
    s.doOpen t m = (s.rxFrames t.port.val 1).openDone x (leNat (sliceZ (msgPayload m) 0 1))
      (leNat (sliceZ (msgPayload m) 1 1)) := by
  have hmine : (decide (x.tuple ≠ t) || decide (m.length < 48) || msgMac m != noMac) = false := by
    simp [htuple, hmac, Nat.not_lt.2 hlen]
  have hbad : (badHeader 0x02 m || (msgPayload m).length != 72 || decide (1 < leNat (sliceZ (msgPayload m) 1 1)) ||
      leNat (slice (msgPayload m) 2 6) != 0) = false := by
    simp [hhead, hpay, Nat.not_lt.2 hflags, hzero]
  simp only [doOpen, hon, msgFor_of_type htype, hsession, hmine, hhalf, hbad, hslot, hvalid, Bool.not_true, Bool.or_self,
    Bool.false_eq_true, if_false, if_true]

/-- Settles O48: each row, in the case in which it acts. -/
theorem sessionRowsComplete : Obligations.SessionRowsComplete := by
  intro t m i s
  dsimp only
  refine ⟨fun hon htype hport hlen hmac hhead hid hpay r v n w sig z hroom hdraw hsign => ?_,
    fun x hon htype hsession htuple hhalf hlen hmac hhead hpay hflags hzero hslot hvalid => ?_, fun hopen => ?_, rfl⟩
  · exact next_settle_eq
      (State.doHello_opened hon htype hport hlen hmac hhead hid hpay hroom hdraw hsign)
  · exact next_settle_eq
      (State.doOpen_opened hon htype hsession htuple hhalf hlen hmac hhead hpay hflags hzero hslot hvalid)
  · refine next_settle_eq (t := s.doIdleExpiry i.toNat) ?_
    rw [State.doIdleExpiry, if_pos hopen]

end Sys2Proof.Machine
end

section
/-! O49: the requests of an open Caddy session, and notifications. -/

namespace Sys2Proof.Machine

/-- A well-formed request of an open session, next in sequence, is executed (R453, R457). -/
theorem State.caddyRequest_sound {s : State} {t : Tuple} {m : Bytes} {ty : Nat} {x : Session} {bad : Bool}
    {body : State → Session → State} (htake : s.takesRequest t m ty x) (hbad : bad = false) :
    s.caddyRequest ty t m bad body = body (s.rxFrames t.port.val 1) x := by
  rw [hbad, caddyRequest_takes htake]

/-- A READ of one item is answered with what the entry reads as (R454). -/
theorem State.doCaddyRead_one {s : State} {t : Tuple} {m v : Bytes} {x : Session} (htake : s.takesRequest t m 0x10 x)
    (hgood : badRead (msgPayload m) = false) (hone : itemCount (msgPayload m) = 1)
    (hread : (s.rxFrames t.port.val 1).dictRead x.roles (itemIndex (slice (msgPayload m) 8 8))
      (itemSub (slice (msgPayload m) 8 8)) = (.ok, v)) :
    s.doCaddyRead t m = (s.rxFrames t.port.val 1).caddyReply x 0x10 (msgSeq m) .ok (natLe 8 1 ++
      (natLe 2 (itemIndex (slice (msgPayload m) 8 8)) ++ natLe 1 (itemSub (slice (msgPayload m) 8 8)) ++ natLe 1 0 ++
        natLe 4 v.length ++ padTo 8 v)) := by
  have hitems : readItems (msgPayload m) = [slice (msgPayload m) 8 8] := by rw [readItems, hone]; rfl
  have hnote (s : State) (o : Origin) (i j : Nat) : s.caddyNote o .ok i j = s := rfl
  rw [doCaddyRead, caddyRequest_sound htake hgood]
  simp only [hitems, List.map_cons, List.map_nil, hread, List.flatMap_cons, List.flatMap_nil, List.append_nil,
    List.foldl_cons, List.foldl_nil, hnote, List.length_singleton, firstBad, if_true]
  rfl

/-- A READ_BLOCK at the start of an entry takes its snapshot (R456). -/
theorem State.doReadBlock_first {s : State} {t : Tuple} {m v : Bytes} {x : Session} (htake : s.takesRequest t m 0x12 x)
    (hlen : (msgPayload m).length = 8) (hzero : leNat (sliceZ (msgPayload m) 3 1) = 0) (hsome : blockLen (msgPayload m) ≠ 0)
    (hmax : blockLen (msgPayload m) ≤ 2048) (hoff : blockOff (msgPayload m) = 0)
    (hread : (s.rxFrames t.port.val 1).dictRead x.roles (itemIndex (msgPayload m)) (itemSub (msgPayload m)) = (.ok, v)) :
    s.doReadBlock t m
      = ((s.rxFrames t.port.val 1).modSession x.id fun y =>
          { y with snap := some (blockKey (msgPayload m), v) }).caddyReply x 0x12 (msgSeq m) .ok
            (readBlockReply (msgPayload m) .ok v) := by
  rw [doReadBlock, caddyRequest_sound htake (by simp [hlen, hzero, hsome, hmax]), if_pos hoff, hread]

/-- The checks that a WRITE_BLOCK passes. -/
theorem writeBlock_sound {p : Bytes} (hlen : p.length = 8 + blockLen p) (hsome : blockLen p ≠ 0) (hmax : blockLen p ≤ 2048)
    (hlast : leNat (sliceZ p 3 1) ≤ 1) :
    (decide (p.length < 8) || p.length != 8 + blockLen p || blockLen p == 0 || decide (2048 < blockLen p) ||
      decide (1 < leNat (sliceZ p 3 1))) = false := by
  have hshort : ¬ 8 + blockLen p < 8 := by omega
  simp only [hshort, hlen, bne_self_eq_false, beq_eq_false_iff_ne.2 hsome, Nat.not_lt.2 hmax, Nat.not_lt.2 hlast,
    decide_false, Bool.or_self]

/-- A NOTIFY that the host acknowledges is no longer outstanding (R458). -/
theorem State.doNotify_acked {s : State} {t : Tuple} {m : Bytes} {x : Session} (hon : s.caddyOn t = true)
    (hreply : msgIsReply m = true) (htype : msgType m = 0x20) (hauth : (s.rxFrames t.port.val 1).authentic t m = some x)
    (hout : x.nOut = true) (hnum : x.nNum = msgSeq m) (hclean : x.nDirty = false) :
    s.doNotify t m = (s.rxFrames t.port.val 1).modSession x.id fun _ => { x with nOut := false, nDirty := false } := by
  simp only [doNotify, hreply, hon, msgFor_of_type htype, hauth, hout, hnum, hclean, Bool.not_true, Bool.or_self,
    Bool.false_eq_true, if_false, beq_self_eq_true, Bool.and_self, if_true, List.append_nil]

/-- Settles O49: each row, in the case in which it acts. -/
theorem requestRowsComplete : Obligations.RequestRowsComplete := by
  intro t m i s x
  dsimp only
  refine ⟨fun htake hpay => ?_, fun v htake hgood hone hread => ?_, fun htake hgood hitems => ?_,
    fun v htake hlen hzero hsome hmax hoff hread => ?_,
    fun v htake hlen hsome hmax hstage => ⟨fun hmore => ?_, fun w hlast hwrite => ?_⟩,
    fun hon hreply htype hauth hout hnum hclean => ?_, fun hsession hout hfew => ?_⟩
  · refine next_settle_eq (t := s.doClose t m) ?_
    rw [State.doClose, State.caddyRequest_sound htake (by rw [hpay]; rfl)]
  · exact next_settle_eq (State.doCaddyRead_one htake hgood hone hread)
  · refine next_settle_eq (t := s.doCaddyWrite t m) ?_
    rw [State.doCaddyWrite, State.caddyRequest_sound htake (by rw [hgood, hitems]; rfl)]
  · refine next_settle_eq (t := s.doReadBlock t m) ?_
    rw [State.doReadBlock_first htake hlen hzero hsome hmax hoff hread, readBlockReply, hoff]
    rfl
  · refine next_settle_eq (t := s.doWriteBlock t m) ?_
    rw [State.doWriteBlock]
    dsimp only
    rw [State.caddyRequest_sound htake (writeBlock_sound hlen hsome hmax (by omega)), hstage]
    exact if_pos hmore
  · refine next_settle_eq (t := s.doWriteBlock t m) ?_
    rw [State.doWriteBlock]
    dsimp only
    rw [State.caddyRequest_sound htake (writeBlock_sound hlen hsome hmax (by omega)), hstage]
    dsimp only
    rw [if_neg (by omega), hwrite]
  · exact next_settle_eq (State.doNotify_acked hon hreply htype hauth hout hnum hclean)
  · refine next_settle_eq (t := s.doNotifyResend i.toNat) ?_
    simp only [State.doNotifyResend, hsession, hout, Bool.not_true, Bool.false_eq_true, if_false, Nat.not_le.2 hfew]

end Sys2Proof.Machine
end
